-- ==== Sys2Proof/Word.lean ====
section
/-!
DEFINITION. The word types of the device: bytes of the stores and frames, and the 32-bit words of the register window
(R12).
-/
namespace Sys2Proof

/-- A byte of the job store, the journal or a frame. -/
abbrev Byte := BitVec 8

/-- A register word: registers are 32 bits wide (R12). -/
abbrev Word := BitVec 32

/-- A run of bytes, lowest offset first. -/
abbrev Bytes := List Byte

end Sys2Proof
end

