-- ==== Sys2Proof/Syntax.lean ====
section
/-!
DEFINITION. The commands of the device: one constructor of `Instr` for each row of spec/opcode_table.json, and the
types of what a command brings with it from outside (a message's header, an edge's arrival time, a received frame).
-/
namespace Sys2Proof

/-- By which path a register access reaches the window (R11), and whether it arrived at the pair address (R119). -/
inductive Path
  | service    -- the service port (R491)
  | ojpOwn     -- an OJP message at the device's own address
  | ojpPair    -- an OJP message at the pair address
  | partner    -- a register message of the striker over the Igmal link (R318)
  | config     -- the configuration records (R446)
  deriving DecidableEq, Repr

/-- What a DRAM read of a 64-byte line finds beyond the stored bytes (R391 to R393). -/
inductive LineFind | corrected | uncorrectable
  deriving DecidableEq, Repr

/-- R396, R397, Table 87: what an SRAM byte that the sweeper reads serves: codes of a computed grid line or of a line queue
entry (with the local numbers of the nozzles that share the byte), a word of an active or shadow copy by its window
address, a row error, a decode window, the stoker's memory, or the queue that QUEUE_RESET numbers. -/
inductive SramPlace
  | stagger (plane : Fin 8) (line : Nat) (port : Fin 64) (nozzles : List Nat)
  | queue (port : Fin 64) (entry : Nat) (nozzles : List Nat)
  | activeCopy (addr : Nat)
  | shadowCopy (addr byte : Nat)
  | rowError (plane : Fin 8) (port : Fin 64) (nozzle : Nat)
  | decode (plane : Fin 8)
  | stoker
  | other (q : Nat)
  deriving DecidableEq, Repr

/-- The finds of one command's DRAM reads: line offsets (multiples of 64) with what was found there. -/
abbrev Finds := List (Nat × LineFind)

/-- R89: an endpoint is a source address and a source UDP port. -/
structure Endpoint where
  v6 : Bool
  ip : Nat
  udp : BitVec 16
  deriving DecidableEq, Repr

/-- One received OJP datagram: where it came from, the header fields of Table 21 (its type is the command's own), the
body, the bytes after the body, and what the store reads it causes find. -/
structure OjpMsg where
  ep : Endpoint
  mac : BitVec 48
  port : Fin 4
  atPair : Bool
  magic : BitVec 16
  version : BitVec 8
  flags : BitVec 8
  session : BitVec 8
  bodyLength : BitVec 16
  seq : BitVec 32
  ackSeq : BitVec 32
  ackMap : BitVec 64
  msgCrc : BitVec 32
  body : Bytes
  tail : Bytes
  finds : Finds
  deriving DecidableEq, Repr

/-- R120: a session's state as the striker mirrors it: endpoint, nonces, windows and grants, AckSeq, the next device Seq,
held messages with their types, and unacknowledged device messages as type, Seq and body. -/
structure SessionCopy where
  ep : Endpoint
  mac : BitVec 48
  port : Fin 4
  hostNonce : Bytes
  devNonce : Bytes
  devWindow : Nat
  hostWindow : Nat
  subscribe : BitVec 4
  keyId : Nat
  telPeriod : Nat
  maxMessage : Nat
  openReply : Bytes
  ackSeq : Nat
  txNext : Nat
  held : List (Nat × OjpMsg)
  unacked : List (Nat × Nat × Bytes)
  deriving DecidableEq, Repr

/-- Why a received frame or datagram is discarded (R83, R84, R87, R358, R437). -/
inductive DiscardCause
  | fcs | runt | tooLong | vlan | ipFragment | ipOption | udpChecksum | ojpHeader | ojpTooLong | notReady | other
  deriving DecidableEq, Repr

/-- Table 63: the rows of fatal faults, counted from 1 in the FatalFault trouble record (R481). -/
abbrev FatalKind := Fin 16

/-- A hello of the partner (R310). -/
structure Hello where
  number : Nat
  state : Nat
  storeValid : Bool
  prefer : Nat
  joinWait : Nat
  deriving DecidableEq, Repr

/-- What a heartbeat carries: the sender's state code (Table 70), its Ready bits and its count of mismatched lines (R313). -/
structure Heartbeat where
  state : Nat
  ready : BitVec 8
  mismatch : BitVec 32
  deriving DecidableEq, Repr

/-- A time of the time counter: 48-bit seconds, nanoseconds, and 1/2^32 ns (R367). -/
structure TimeStamp where
  sec : Nat
  ns : Nat
  frac : Nat
  deriving DecidableEq, Repr

/-- R318, R320: what the striker's sequence messages say: a descriptor fetched with its DescCrc, a page start on a channel
with S, a stop, an abort, an abandonment, a data-late stop with the late plane and port and the resume event of each
stopped plane. -/
inductive SeqMsg
  | fetch (offset : Nat) (crc : Word)
  | pageStart (channel : Fin 4) (s : BitVec 48) (time : TimeStamp)
  | stop
  | abort
  | abandon (plane : Fin 8) (event : Nat)
  | dataLate (plane port : Nat) (resume : List (Fin 8 × Nat))
  deriving DecidableEq, Repr

/-- R325, R327: one rally record: a plane's line event with the check values of its ports, port order, and whether the
sender states evidence against itself for the line. -/
structure RallyRec where
  plane : Fin 8
  event : Nat
  pageId : BitVec 32
  lcvs : List (BitVec 32)
  evidence : Bool
  deriving DecidableEq, Repr

/-- R353: a received Igmal training frame's first two blocks, and the FOM that this end's eye monitor gives then (R346). -/
structure TrainFrame where
  lane : Fin 8
  bytes : Bytes
  fom : BitVec 8
  deriving DecidableEq, Repr

/-- R371: the fields of a received PTP message the model uses. -/
structure PtpMsg where
  port : Fin 4
  transport : Nat
  domain : Nat
  seqId : Nat
  source : Nat
  correction : Int
  arrival : TimeStamp
  stamp : TimeStamp
  twoStep : Bool
  deriving DecidableEq, Repr

/-- R365: a received Announce, with the dataset fields the best master clock algorithm compares. -/
structure PtpAnnounce where
  port : Fin 4
  transport : Nat
  domain : Nat
  source : Nat
  priority1 : Nat
  clockClass : Nat
  accuracy : Nat
  variance : Nat
  priority2 : Nat
  identity : Nat
  steps : Nat
  deriving DecidableEq, Repr

/-- The block an inflating engine is inside. -/
inductive InflateBlock
  | header
  | stored (left : Nat)
  | codes (lit dist : List (Nat × Nat × Nat))
  deriving DecidableEq, Repr

/-- R133: the saved state of a continued stream: window (newest byte first), block, remainder of a match, unread bits
carried over, and whether the present block is the last. -/
structure StreamSt where
  number : Nat
  last : Nat
  valid : Bool
  ended : Bool
  window : Bytes
  block : InflateBlock
  final : Bool
  matchLeft : Nat
  matchDist : Nat
  carry : List Bool
  deriving DecidableEq, Repr

/-- R339: the items of resynchronisation data (Table 69): a 1 MiB region of the job store by the lines of it that hold
other than zeros, a poisoned line, a register's shadow copy and value in force, a nozzle's pending and adopted state,
journal-held calibration and remap results, a channel's counter, high-water mark and fault, what a sequence message says,
and, at its next state save, a continued stream's state. -/
inductive ResyncItem
  | storeRegion (offset : Nat) (lines : List (Nat × Bytes))
  | storePoison (line : Nat)
  | register (addr : Nat) (value inForce : Word)
  | nozzle (z : Nat) (pending adopted : BitVec 2)
  | results (calibration : List (Nat × Nat)) (remap : List (Nat × Word))
  | channel (c : Fin 4) (pos hwm : BitVec 48) (fault : Bool)
  | sequence (msg : SeqMsg)
  | position (plane : Fin 8) (event : Nat)
  | stream (saved : StreamSt)
  | finish
  deriving DecidableEq, Repr

/-- R301: one axis's outcome of the ADC calibration. -/
structure AdcResult where
  axis : Fin 8
  pass : Bool
  deriving DecidableEq, Repr

/-- The commands, one for each row of the table, in the table's order. -/
inductive Instr
  -- REGISTER_WRITE to DEC_PLANPER_WRITE
  | registerWrite (path : Path) (addr : Nat) (value : Word)
  | jobStart (path : Path)
  | jobStop (path : Path)
  | jobAbort (path : Path)
  | doorbellRing (path : Path) (finds : Finds)
  | descriptorFetch (finds : Finds)
  | linkPoll (finds : Finds)
  | pageRetire
  | decPlanperWrite (path : Path) (value : Word)
  -- the Oaxia job protocol
  | openSession (msg : OjpMsg)
  | close (msg : OjpMsg)
  | ack (msg : OjpMsg)
  | keepalive (msg : OjpMsg)
  | jobWrite (msg : OjpMsg)
  | linkWrite (msg : OjpMsg)
  | doorbell (msg : OjpMsg)
  | jobRead (msg : OjpMsg)
  | regWrite (msg : OjpMsg)
  | regRead (msg : OjpMsg)
  | ackDelayExpiry (session : Fin 16)
  | retransmitTimeout (session : Fin 16) (seq : Nat)
  | idleTimeout (session : Fin 16)
  | telemetryPeriod (session : Fin 16)
  | wakeFrame (port : Fin 4) (payload : Bytes)
  -- decoding and the print record
  | decodeUseStart (plane : Fin 8) (finds : Finds)
  | decodeResume (plane : Fin 8)
  | decodeUseEnd (plane : Fin 8)
  | preExpansionDone (ok : Bool)
  | repairWaitEnd (line : Nat)
  | printRecordChunk (plane : Fin 8)
  -- the raster pipeline
  | rasterLine (plane : Fin 8)
  | corrCopyDone (plane : Fin 8)
  | htCopyDone (plane : Fin 8)
  | nztWrite (path : Path) (nozzle : Nat) (value : Word)
  -- position channels and probes
  | quadratureEdge (ch : Fin 4) (a b : Bool) (ns : Nat)
  | stepEdge (ch : Fin 4) (rising dir changed : Bool) (ns : Nat)
  | ssiFrameStart (ch : Fin 4) (ns : Nat)
  | ssiFrame (ch : Fin 4) (raw : Nat) (startHigh stopLow : Bool) (ns : Nat)
  | ssiHoldExpiry (ch : Fin 4)
  | indexLatch (ch : Fin 4) (rising : Bool)
  | probeLatch (k : Fin 4) (rising : Bool) (ns : Nat)
  | pageStart (path : Path) (ch : Fin 4)
  | setPos (path : Path) (ch : Fin 4)
  | clearFault (path : Path) (ch : Fin 4)
  | ltPosloRead (ch : Fin 4)
  | lineEvent (plane : Fin 8)
  | strobe (port : Fin 64)
  | latFall (port : Fin 64)
  | speedWindowEnd (ch : Fin 4)
  | stillTimeout (ch : Fin 4)
  -- head ports
  | shiftStart (port : Fin 64)
  | shiftComplete (port : Fin 64)
  | echoCompareResult (port : Fin 64) (bits : List Bool)
  | echoFind (path : Path) (port : Fin 64)
  | findTimeout (port : Fin 64)
  | deskewStart (path : Path) (all : Bool) (port : Fin 64) (granted : Bool)
  | deskewPortDone (port : Fin 64) (calRef : Bool) (pass : Bool)
  | commitGeometry (path : Path)
  | commitScale (path : Path)
  | commitCodeWidth (path : Path)
  | commitPort (path : Path)
  | commitPrint (path : Path)
  | clampClear (path : Path)
  -- drop detection
  | ddStart (path : Path)
  | ddStop (path : Path)
  | sweepSchedule
  | carriageSettled (gate : Fin 4)
  | pacerTick (ns : Nat)
  | gatePulse (gate : Fin 4) (ns : Nat)
  | windowClose (gate : Fin 4)
  -- axes
  | move (path : Path) (axis : Fin 8)
  | motStop (path : Path) (axis : Fin 8)
  | home (path : Path) (axis : Fin 8)
  | disable (path : Path) (axis : Fin 8)
  | enable (path : Path) (axis : Fin 8)
  | goPrint (path : Path) (axis : Fin 8)
  | goService (path : Path) (axis : Fin 8)
  | energiseDelay (axis : Fin 8)
  | pwmPeriod (axis : Fin 8) (ia ib va vb : Int)
  | moveComplete (axis : Fin 8)
  | limitInput (k : Fin 16) (level : Bool)
  | standstill (axis : Fin 8)
  | adcCalStart (path : Path) (mask : BitVec 8)
  | adcCalDone (vcal : Bool) (results : List AdcResult)
  -- the pair
  | hello (h : Hello)
  | joinWaitExpiry
  | soloResample (level : Bool)
  | strkInChange (level : Bool)
  | heartbeatSend
  | heartbeat (h : Heartbeat)
  | heartbeatLoss
  | strkInWaitExpiry
  | fatalFault (kind : FatalKind)
  | fatalMessage
  | pairGuard
  | mirror (lines : List (Nat × Bytes × Bool))
  | mirrorAck (n : Nat)
  | registerMessage (addr : Nat) (value : Word)
  | sequenceMessage (msg : SeqMsg)
  | verdictMessage (nozzle : Nat) (state : BitVec 2)
  | sessionMessage (session : Fin 16) (copy : Option SessionCopy)
  | timeMessage (t : TimeStamp)
  | handoffMessage (events : List (Fin 8 × Nat))
  | repairRequest (line : Nat) (finds : Finds)
  | repairAnswer (line : Nat) (data : Option Bytes)
  | rallyRecord (r : RallyRec)
  | rallyWaitExpiry (plane : Fin 8) (event : Nat)
  | latMonitorEdge (port : Fin 64) (rising : Bool)
  | handoff (path : Path)
  | selfTest (path : Path)
  | selfTestDone (pass : Bool)
  | resyncData (item : ResyncItem)
  -- serial lanes
  | laneSignal (lane : Fin 12)
  | trainingFrame (f : TrainFrame)
  | trainingRequestTimeout (lane : Fin 8)
  | trainRetry (lane : Fin 8)
  | flit (bytes : Bytes)
  | linkLoss (reason : Nat)
  | hostAdaptTimeout (lane : Fin 4) (fom : Nat)
  | linkDrop (lane : Fin 4) (reason : Nat)
  | speedAutoSwitch (port : Fin 4)
  | netPctrlWrite (path : Path) (port : Fin 4) (value : Word)
  | laneRetrain (path : Path) (lane : Fin 12)
  | refclkLoss
  | arpRequest (port : Fin 4) (mac : BitVec 48) (sender target : Nat)
  | neighbourSolicitation (port : Fin 4) (mac : BitVec 48) (sender target : Nat)
  | echoRequest (port : Fin 4) (ep : Endpoint) (target : Nat) (data : Bytes)
  | pauseFrame (port : Fin 4)
  -- network time
  | announce (a : PtpAnnounce)
  | sync (m : PtpMsg)
  | followUp (m : PtpMsg)
  | delayResp (m : PtpMsg)
  | delayReqSend
  | announceTimeout (source : Nat)
  | holdover
  | timeTick
  | timeIncrWrite (path : Path) (value : Word)
  | timeStep (path : Path) (value : Word)
  | timeSecloRead
  | timeExseqRead
  | toutArm (path : Path) (k : Fin 8)
  | toutDisarm (path : Path) (k : Fin 8)
  | toutEdge (k : Fin 8)
  -- memory
  | dramTrainingDone (ok : BitVec 4)
  | alertN (channel : Fin 4) (accepted : Bool)
  | refresh (channel : Fin 4)
  | zqCalibration
  | tempPoll (channel : Fin 4) (range : BitVec 2)
  | sweeperRead (errors : Bytes)
  | sramSweepRead (addr : Nat) (place : SramPlace) (find : Option LineFind)
  | sweeperReread (line : Nat) (errors : Bytes)
  | liveLineAction (line : Nat)
  | remapRequest (path : Path) (value : Word)
  | remapDone
  | remapClearAll (path : Path)
  | kindleDone
  | reservedKindled
  -- DMA, check units and queues
  | dmaProdWrite (path : Path) (c : Fin 16) (value : Word)
  | dmaResume (path : Path) (c : Fin 16)
  | dmaAbort (path : Path) (c : Fin 16)
  | dmaDescFetch (c : Fin 16) (finds : Finds)
  | dmaTrigger (c : Fin 16)
  | dmaTimerExpiry (t : Fin 8)
  | dmaComplete (c : Fin 16) (finds : Finds)
  | dmaRecordWrite
  | dmaCqconsWrite (path : Path) (value : Word)
  | crcReset (path : Path) (u : Fin 4)
  | queueReset (q : Nat)
  | noticeQueueTimeout (q : Fin 4)
  | trbNqdataRead (q : Fin 4)
  | telQdataRead
  | telemetrySample
  -- start-up, configuration and the journal
  | resetAssert
  | resetRelease (devsel : Bool) (imageA imageB : Bytes)
  | stokerRelease
  | deviceReady
  | stokerLoadWindow (load : Nat)
  | watchdogExpiry (hashOk : Bool)
  | journalWrite (ok : Bool)
  | firingCountCheckpoint
  | clearStates (path : Path)
  | clearCounts (path : Path)
  | clearTrouble (path : Path)
  | clearCal (path : Path)
  | checkpoint (path : Path)
  | jnlRddataRead
  -- power domains
  | pwrReqOn (path : Path) (d : Fin 14)
  | pwrReqEmber (path : Path) (d : Fin 14)
  | pwrReqCold (path : Path) (d : Fin 14)
  | domainEntryDone (d : Fin 14)
  | domainExitDone (d : Fin 14)
  | pgFall
  -- sticky bits, trouble record, service port, telemetry
  | stickyClear (path : Path) (mask : Word)
  | trbRecackWrite (path : Path) (value : Word)
  | trbRecdataRead
  | serviceRead (request : Bytes)
  | serviceWrite (request : Bytes)
  | badCommand (request : Bytes)
  | serviceIncomplete (request : Bytes)
  | telFcloRead
  | firingCountFold (port : Fin 64)
  | tjUpdate (temp : BitVec 16)
  -- the rows the table adds at its end
  | blockLock (lane : Fin 4) (fom : Nat) (hiBer : Bool)
  | budgetScanDone
  | frameDiscard (port : Fin 4) (cause : DiscardCause)
  | clk25Loss
  | refclkReturn
  | ssiCountAdvance (ch : Fin 4) (ns : Nat)
  | axisCommandForward (axis : Fin 8) (op : BitVec 3)
  | axisStatusReport (axis : Fin 8) (pos vel load stat : Word)
  | deskewGrantRequest (port : Fin 64)
  deriving DecidableEq, Repr

end Sys2Proof
end

