-- ==== Sys2Proof/Decode.lean ====
section
/-!
DEFINITION. Table words: no row of spec/opcode_table.json gives bits, since a command of this block arrives as a register
access, a message, an edge or an event and not as an encoded word; so no word spells a command.
-/
namespace Sys2Proof

/-- The command that a word spells by the table's bits: none, for the table gives no row bits. -/
def decodeTableWord (_nbits _w : Nat) : Option Instr := none

end Sys2Proof
end

