-- ==== Sys2Proof/Config.lean ====
section
/-!
DEFINITION. What the spec leaves open: free values, opaque constants that nothing can evaluate.  Each is applied to a
counter of the state (`Dev.free`) that the step reads and advances, or to the operands it depends on.
-/
namespace Sys2Proof.Config

/-- R437, R443: byte `i` of the SHA-256 of the vendor's signing key in the fuses; no rule states it. UNVERIFIED free value
(log 2). -/
opaque fuseByte : Nat → BitVec 8

/-- R90: the DeviceNonce the device chooses for a session. UNVERIFIED free value: the spec says only "chosen by the
device for this session" (log 3). -/
opaque deviceNonce : Nat → BitVec 64

/-- R89, R90: which of the free session numbers an Open is granted; the spec says only 0 to 15 (log 11). -/
opaque sessionChoice : Nat → Nat

/-- R146, R148: the bytes the compress engines emit for a chunk; the spec fixes what they decode to and their greatest
length, not the bytes (log 4). -/
opaque compressedChunk : Nat → List (BitVec 8)

/-- R371: the servo's adjustment of the increment, in 2^-32 ns; the spec bounds it and states no law (log 5). -/
opaque slewAdjust : Nat → Int

/-- R286, R289: whether an intermediate profile position that the spec does not say how to round is rounded up
(log 6). -/
opaque profileRound : Nat → Bool

/-- R287, R295: the angle that atan2(0, 0) gives, in 1/1,024 turn; the spec states none (log 8). -/
opaque zeroAngle : Nat → Nat

/-- R2, R437: the die identity read from the fuses (log 7). -/
opaque dieIdentity : Nat → BitVec 32

/-- R419: how many bytes a channel has moved when Abort stops it at a line boundary (log 9). -/
opaque dmaProgress : Nat → Nat

end Sys2Proof.Config
end

