-- ==== Sys2Proof/Machine/Bits.lean ====
section
/-!
DEFINITION. Helpers on numbers and bytes that many meanings share: bit fields of a word, byte orders (R19, R85),
signed readings, clamping (R449), saturation, and updates of fixed-length vectors.
-/
namespace Sys2Proof.Machine

/-- Bits `hi:lo` of a number. -/
def bitsOf (n hi lo : Nat) : Nat := (n >>> lo) % 2 ^ (hi + 1 - lo)

/-- A word with bits `hi:lo` replaced by the low bits of `v`. -/
def setBits (w : Word) (hi lo v : Nat) : Word :=
  let width := hi + 1 - lo
  let keep := w.toNat - (bitsOf w.toNat hi lo) * 2 ^ lo
  BitVec.ofNat 32 (keep + (v % 2 ^ width) * 2 ^ lo)

/-- Bit `i` of a number. -/
def bitAt (n i : Nat) : Bool := n.testBit i

/-- The nearest value in `lo`..`hi` (R449). -/
def clampNat (lo hi n : Nat) : Nat := if n < lo then lo else if hi < n then hi else n

/-- The nearest value in `lo`..`hi` (R449), signed. -/
def clampInt (lo hi n : Int) : Int := if n < lo then lo else if hi < n then hi else n

/-- The number `n`, below `2 ^ w`, read as a signed value of `w` bits. -/
def signedOf (w n : Nat) : Int :=
  let m := n % 2 ^ w
  if m < 2 ^ (w - 1) then (m : Int) else (m : Int) - (2 ^ w : Nat)

/-- The `w`-bit two's-complement pattern of a signed value. -/
def patternOf (w : Nat) (i : Int) : Nat := (i % ((2 ^ w : Nat) : Int)).toNat

/-- Ceiling division of a non-negative number; 0 for divisor 0. -/
def ceilDiv (a b : Nat) : Nat := (a + b - 1) / b

/-- Floor of `a / b` for a positive divisor. -/
def floorDivI (a : Int) (b : Nat) : Int := Int.fdiv a (b : Int)

/-- Ceiling of `a / b` for a positive divisor. -/
def ceilDivI (a : Int) (b : Nat) : Int := - Int.fdiv (-a) (b : Int)

/-- `a / b` rounded to nearest, halves away from zero. -/
def roundDiv (a b : Nat) : Nat := (2 * a + b) / (2 * b)

/-- The number that bytes spell, lowest first (R19). -/
def leNat : Bytes → Nat
  | [] => 0
  | b :: bs => b.toNat + 256 * leNat bs

/-- `n` bytes of a number, lowest first (R19). -/
def natLE : Nat → Nat → Bytes
  | 0, _ => []
  | k + 1, v => BitVec.ofNat 8 v :: natLE k (v / 256)

/-- The number that bytes spell in network byte order (R85). -/
def beNat (bs : Bytes) : Nat := bs.foldl (fun a b => 256 * a + b.toNat) 0

/-- `n` bytes of a number in network byte order (R85). -/
def natBE (n v : Nat) : Bytes := (natLE n v).reverse

/-- `n` bytes of a run from offset `off`; bytes past its end read 0. -/
def sliceB (bs : Bytes) (off n : Nat) : Bytes :=
  let t := (bs.drop off).take n
  t ++ List.replicate (n - t.length) 0

/-- The little-endian field of `n` bytes at `off`. -/
def leAt (bs : Bytes) (off n : Nat) : Nat := leNat (sliceB bs off n)

/-- The network-order field of `n` bytes at `off`. -/
def beAt (bs : Bytes) (off n : Nat) : Nat := beNat (sliceB bs off n)

/-- A run padded with zeros, or cut, to `n` bytes. -/
def padTo (n : Nat) (bs : Bytes) : Bytes := sliceB bs 0 n

/-- A run with the bytes at `off` replaced by `v` (cut at the run's end). -/
def patchB (bs : Bytes) (off : Nat) (v : Bytes) : Bytes :=
  bs.take off ++ v.take (bs.length - off) ++ bs.drop (off + v.length)

/-- The element `i` of a vector changed by `f`. -/
def vmod {α : Type} {n : Nat} (v : Vector α n) (i : Fin n) (f : α → α) : Vector α n :=
  v.set i.val (f v[i]) i.isLt

/-- The element at a number, or a default past the end. -/
def vgetD {α : Type} {n : Nat} (v : Vector α n) (i : Nat) (d : α) : α :=
  if h : i < n then v[i] else d

/-- The element at a number changed by `f`; nothing past the end. -/
def vmodN {α : Type} {n : Nat} (v : Vector α n) (i : Nat) (f : α → α) : Vector α n :=
  if h : i < n then v.set i (f v[i]) h else v

/-- The numbers `i < n` with the property, lowest first. -/
def allBelow (n : Nat) (p : Nat → Bool) : List Nat := (List.range n).filter p

/-- The mask whose bit `i` says whether `p i`, for `i < n`. -/
def maskOf (n : Nat) (p : Nat → Bool) : Nat :=
  (List.range n).foldl (fun a i => if p i then a + 2 ^ i else a) 0

/-- Floor of the base-2 logarithm, by at most `fuel` halvings. -/
def log2Fuel : Nat → Nat → Nat
  | 0, _ => 0
  | f + 1, n => if n < 2 then 0 else 1 + log2Fuel f (n / 2)

/-- Integer square root below a bound, by bisection: the greatest `r` with `r * r ≤ n`. -/
def isqrtFuel : Nat → Nat → Nat → Nat → Nat
  | 0, _, lo, _ => lo
  | f + 1, n, lo, hi =>
    if hi ≤ lo + 1 then lo
    else
      let m := (lo + hi) / 2
      if m * m ≤ n then isqrtFuel f n m hi else isqrtFuel f n lo m

/-- Integer square root. -/
def isqrt (n : Nat) : Nat := isqrtFuel 256 n 0 (n + 1)

/-! Sparse tables: association lists from a key to a value, keys strictly rising, no entry equal to the value an
unlisted key reads as. -/

/-- The value at a key; `d` where the key is unlisted. -/
def spGet {α : Type} (d : α) : List (Nat × α) → Nat → α
  | [], _ => d
  | (k, v) :: l, a => if k = a then v else spGet d l a

/-- Sets the value at a key: the entry is kept only where the value is not `d`. -/
def spPut {α : Type} [DecidableEq α] (d : α) (a : Nat) (x : α) : List (Nat × α) → List (Nat × α)
  | [] => if x = d then [] else [(a, x)]
  | (k, v) :: l =>
    if k = a then (if x = d then spPut d a x l else (a, x) :: l)
    else if a < k ∧ x ≠ d then (a, x) :: (k, v) :: l
    else (k, v) :: spPut d a x l

/-- The union of two sparse tables over disjoint keys. -/
def spMerge {α : Type} : Nat → List (Nat × α) → List (Nat × α) → List (Nat × α)
  | 0, xs, ys => xs ++ ys
  | _ + 1, [], ys => ys
  | _ + 1, xs, [] => xs
  | f + 1, (i, x) :: xs, (j, y) :: ys =>
    if i < j then (i, x) :: spMerge f xs ((j, y) :: ys) else (j, y) :: spMerge f ((i, x) :: xs) ys

/-- Keys strictly rising, all above a bound. -/
def spSorted {α : Type} : List (Nat × α) → Bool
  | [] => true
  | [_] => true
  | (i, _) :: (j, y) :: l => decide (i < j) && spSorted ((j, y) :: l)

/-- A strictly rising list of numbers with one more member. -/
def insNat (a : Nat) : List Nat → List Nat
  | [] => [a]
  | k :: l => if a < k then a :: k :: l else if a = k then k :: l else k :: insNat a l

/-- A list of numbers without one. -/
def delNat (a : Nat) (l : List Nat) : List Nat := l.filter (fun k => k != a)

end Sys2Proof.Machine
end

