-- ==== Sys2Proof/Machine/Crc.lean ====
section
/-!
DEFINITION. The check codes the device computes: the reflected CRCs of Table 97, CRC-8 of the service port (R493),
SHA-256 and HMAC-SHA-256 (R112, R443), and ECDSA over NIST P-256 (R444).
-/
namespace Sys2Proof.Machine

/-! CRCs -/

/-- One bit of a reflected CRC of `w` bits with reversed polynomial `poly`. -/
def crcBitR (poly c : Nat) : Nat := if c % 2 = 1 then (c / 2) ^^^ poly else c / 2

/-- One byte of a reflected CRC. -/
def crcByteR (poly c : Nat) (b : Byte) : Nat :=
  let c0 := c ^^^ b.toNat
  crcBitR poly (crcBitR poly (crcBitR poly (crcBitR poly
    (crcBitR poly (crcBitR poly (crcBitR poly (crcBitR poly c0)))))))

/-- A reflected CRC continued over bytes from register value `c`. -/
def crcRunR (poly c : Nat) (bs : Bytes) : Nat := bs.foldl (crcByteR poly) c

/-- The reversed CRC-32C (Castagnoli) polynomial. -/
def polyCrc32c : Nat := 0x82F63B78

/-- CRC-32C of a run of bytes: initial and final XOR all ones, reflected. -/
def crc32c (bs : Bytes) : Nat := (crcRunR polyCrc32c 0xFFFFFFFF bs) ^^^ 0xFFFFFFFF

/-- One bit of a CRC of width `w` taken most significant bit first. -/
def crcBitL (w poly c : Nat) : Nat := if c / 2 ^ (w - 1) % 2 = 1 then ((2 * c) % 2 ^ w) ^^^ poly else (2 * c) % 2 ^ w

/-- One byte of such a CRC. -/
def crcByteL (w poly c : Nat) (b : Byte) : Nat :=
  (List.range 8).foldl (fun a _ => crcBitL w poly a) (c ^^^ (b.toNat * 2 ^ (w - 8)))

/-- Such a CRC continued over bytes. -/
def crcRunL (w poly c : Nat) (bs : Bytes) : Nat := bs.foldl (crcByteL w poly) c

/-- CRC-16/CCITT-FALSE (Table 97). -/
def crc16 (bs : Bytes) : Nat := crcRunL 16 0x1021 0xFFFF bs

/-- One bit of the CRC-8 of R493. -/
def crc8Bit (c : Nat) : Nat := if c / 128 % 2 = 1 then ((2 * c) % 256) ^^^ 0x07 else (2 * c) % 256

/-- R493: CRC-8 with polynomial 0x07, initial value 0, no reflection. -/
def crc8 (bs : Bytes) : Nat :=
  bs.foldl (fun c b =>
    let c0 := c ^^^ b.toNat
    crc8Bit (crc8Bit (crc8Bit (crc8Bit (crc8Bit (crc8Bit (crc8Bit (crc8Bit c0)))))))) 0

/-! SHA-256 -/

/-- The round constants of SHA-256, first half. -/
def shaK0 : List Nat := [
  0x428a2f98, 0x71374491, 0xb5c0fbcf, 0xe9b5dba5, 0x3956c25b, 0x59f111f1, 0x923f82a4, 0xab1c5ed5,
  0xd807aa98, 0x12835b01, 0x243185be, 0x550c7dc3, 0x72be5d74, 0x80deb1fe, 0x9bdc06a7, 0xc19bf174,
  0xe49b69c1, 0xefbe4786, 0x0fc19dc6, 0x240ca1cc, 0x2de92c6f, 0x4a7484aa, 0x5cb0a9dc, 0x76f988da,
  0x983e5152, 0xa831c66d, 0xb00327c8, 0xbf597fc7, 0xc6e00bf3, 0xd5a79147, 0x06ca6351, 0x14292967]

/-- The round constants of SHA-256, second half. -/
def shaK1 : List Nat := [
  0x27b70a85, 0x2e1b2138, 0x4d2c6dfc, 0x53380d13, 0x650a7354, 0x766a0abb, 0x81c2c92e, 0x92722c85,
  0xa2bfe8a1, 0xa81a664b, 0xc24b8b70, 0xc76c51a3, 0xd192e819, 0xd6990624, 0xf40e3585, 0x106aa070,
  0x19a4c116, 0x1e376c08, 0x2748774c, 0x34b0bcb5, 0x391c0cb3, 0x4ed8aa4a, 0x5b9cca4f, 0x682e6ff3,
  0x748f82ee, 0x78a5636f, 0x84c87814, 0x8cc70208, 0x90befffa, 0xa4506ceb, 0xbef9a3f7, 0xc67178f2]

/-- 32-bit addition. -/
def add32 (a b : Nat) : Nat := (a + b) % 2 ^ 32

/-- 32-bit rotation to the right. -/
def rotr32 (n x : Nat) : Nat := (x >>> n) ||| ((x <<< (32 - n)) % 2 ^ 32)

/-- The SHA-256 working state. -/
structure ShaState where
  a : Nat
  b : Nat
  c : Nat
  d : Nat
  e : Nat
  f : Nat
  g : Nat
  h : Nat
  deriving DecidableEq, Repr

/-- The SHA-256 initial hash value. -/
def shaInit : ShaState :=
  ⟨0x6a09e667, 0xbb67ae85, 0x3c6ef372, 0xa54ff53a, 0x510e527f, 0x9b05688c, 0x1f83d9ab, 0x5be0cd19⟩

/-- The message schedule, newest word first: `n` further words from the 16 or more already there. -/
def shaSchedule : Nat → List Nat → List Nat
  | 0, ws => ws
  | n + 1, ws =>
    let w2 := ws.getD 1 0
    let w7 := ws.getD 6 0
    let w15 := ws.getD 14 0
    let w16 := ws.getD 15 0
    let s0 := (rotr32 7 w15) ^^^ (rotr32 18 w15) ^^^ (w15 >>> 3)
    let s1 := (rotr32 17 w2) ^^^ (rotr32 19 w2) ^^^ (w2 >>> 10)
    shaSchedule n (add32 (add32 w16 s0) (add32 w7 s1) :: ws)

/-- One SHA-256 round. -/
def shaRound (s : ShaState) (kw : Nat) : ShaState :=
  let s1 := (rotr32 6 s.e) ^^^ (rotr32 11 s.e) ^^^ (rotr32 25 s.e)
  let ch := (s.e &&& s.f) ^^^ ((0xFFFFFFFF ^^^ s.e) &&& s.g)
  let t1 := add32 (add32 s.h s1) (add32 ch kw)
  let s0 := (rotr32 2 s.a) ^^^ (rotr32 13 s.a) ^^^ (rotr32 22 s.a)
  let maj := (s.a &&& s.b) ^^^ (s.a &&& s.c) ^^^ (s.b &&& s.c)
  ⟨add32 t1 (add32 s0 maj), s.a, s.b, s.c, add32 s.d t1, s.e, s.f, s.g⟩

/-- The words of a block, most significant byte first. -/
def beWords : Nat → Bytes → List Nat
  | 0, _ => []
  | n + 1, bs => beNat (bs.take 4) :: beWords n (bs.drop 4)

/-- One 64-byte block of SHA-256. -/
def shaBlock (s : ShaState) (block : Bytes) : ShaState :=
  let ws := (shaSchedule 48 (beWords 16 block).reverse).reverse
  let kws := List.zipWith add32 (shaK0 ++ shaK1) ws
  let r := kws.foldl shaRound s
  ⟨add32 s.a r.a, add32 s.b r.b, add32 s.c r.c, add32 s.d r.d,
   add32 s.e r.e, add32 s.f r.f, add32 s.g r.g, add32 s.h r.h⟩

/-- `n` blocks of a padded message. -/
def shaBlocks : Nat → ShaState → Bytes → ShaState
  | 0, s, _ => s
  | n + 1, s, bs => shaBlocks n (shaBlock s (bs.take 64)) (bs.drop 64)

/-- SHA-256 of a run of bytes: 32 bytes. -/
def sha256 (bs : Bytes) : Bytes :=
  let padded := bs ++ [0x80#8] ++ List.replicate ((119 - bs.length % 64) % 64) 0#8 ++ natBE 8 (8 * bs.length)
  let r := shaBlocks (padded.length / 64) shaInit padded
  natBE 4 r.a ++ natBE 4 r.b ++ natBE 4 r.c ++ natBE 4 r.d ++
    natBE 4 r.e ++ natBE 4 r.f ++ natBE 4 r.g ++ natBE 4 r.h

/-- HMAC-SHA-256 with a key of at most 64 bytes (R112). -/
def hmacSha256 (key msg : Bytes) : Bytes :=
  let k := padTo 64 key
  sha256 (k.map (fun b => b ^^^ 0x5c#8) ++ sha256 (k.map (fun b => b ^^^ 0x36#8) ++ msg))

/-! ECDSA over NIST P-256 -/

/-- The field prime of P-256. -/
def p256P : Nat := 0xFFFFFFFF00000001000000000000000000000000FFFFFFFFFFFFFFFFFFFFFFFF
/-- The curve order of P-256. -/
def p256N : Nat := 0xFFFFFFFF00000000FFFFFFFFFFFFFFFFBCE6FAADA7179E84F3B9CAC2FC632551
/-- The curve coefficient b of P-256. -/
def p256B : Nat := 0x5AC635D8AA3A93E7B3EBBD55769886BC651D06B0CC53B0F63BCE3C3E27D2604B
/-- The base point of P-256. -/
def p256G : Nat × Nat :=
  (0x6B17D1F2E12C4247F8BCE6E563A440F277037D812DEB33A0F4A13945D898C296,
   0x4FE342E2FE1A7F9B8EE7EB4A7C0F9E162BCE33576B315ECECBB6406837BF51F5)

/-- `b ^ e mod m` for an exponent of at most `fuel` bits. -/
def powMod : Nat → Nat → Nat → Nat → Nat
  | 0, _, _, m => 1 % m
  | f + 1, b, e, m =>
    let r := powMod f (b * b % m) (e / 2) m
    if e % 2 = 1 then r * b % m else r

/-- The inverse of `a` modulo a 256-bit prime. -/
def invMod (a m : Nat) : Nat := powMod 256 (a % m) (m - 2) m

/-- Point addition on P-256; `none` is the point at infinity. -/
def p256Add : Option (Nat × Nat) → Option (Nat × Nat) → Option (Nat × Nat)
  | none, q => q
  | p, none => p
  | some (x1, y1), some (x2, y2) =>
    if x1 = x2 ∧ (y1 + y2) % p256P = 0 then none
    else
      let l :=
        if x1 = x2 ∧ y1 = y2 then
          (3 * x1 * x1 + (p256P - 3)) % p256P * invMod (2 * y1) p256P % p256P
        else (y2 + p256P - y1) % p256P * invMod (x2 + p256P - x1) p256P % p256P
      let x3 := (l * l + 2 * p256P - x1 - x2) % p256P
      let y3 := (l * (x1 + p256P - x3) + p256P - y1) % p256P
      some (x3, y3)

/-- Scalar multiplication on P-256 by a scalar of at most `fuel` bits. -/
def p256Mul : Nat → Nat → Option (Nat × Nat) → Option (Nat × Nat)
  | 0, _, _ => none
  | f + 1, k, p =>
    let r := p256Mul f (k / 2) (p256Add p p)
    if k % 2 = 1 then p256Add r p else r

/-- R444: the signature (r, s) verifies over the SHA-256 of `msg` with public key (x, y). A signature with r or s 0,
or not below the curve order, fails, and so does a key that is no point of the curve. -/
def ecdsaVerify (x y r s : Nat) (msg : Bytes) : Bool :=
  if r = 0 ∨ s = 0 ∨ p256N ≤ r ∨ p256N ≤ s ∨ p256P ≤ x ∨ p256P ≤ y then false
  else if (y * y) % p256P ≠ (x * x * x + (p256P - 3) * x + p256B) % p256P then false
  else
    let z := beNat (sha256 msg)
    let w := invMod s p256N
    let q := p256Add (p256Mul 256 (z * w % p256N) (some p256G)) (p256Mul 256 (r * w % p256N) (some (x, y)))
    match q with
    | none => false
    | some (qx, _) => decide (qx % p256N = r)

end Sys2Proof.Machine
end

