-- ==== Sys2Proof/Machine/RegMap.lean ====
section
/-!
DEFINITION. The register window of Table 3, as the register tables of every chapter lay it out: each register's
address, its fields with their access type (Table 4), reset value and legal range, and the shadow set it belongs to
(Table 109).  `Adr.<name>` is a register's window address and `Fld.<register>.<field>` names one of its fields.
-/
namespace Sys2Proof.Machine

/-- R17, Table 4: the access type of a register field. -/
inductive Access | ro | rw | wo | w1c | rws
  deriving DecidableEq, Repr

/-- R451, Table 109: the shadow set a register belongs to (`none`: it acts as written, R449). -/
inductive ShadowSet | none | geometry | scale | codeWidth | port | correction | halftone | strobe
  deriving DecidableEq, Repr

/-- One field of a register table: its bits, its type, its reset value, and its legal range where the table gives one. -/
structure FieldSpec where
  hi : Nat
  lo : Nat
  acc : Access
  rst : Nat
  lim : Option (Nat × Nat)
  deriving DecidableEq, Repr

/-- One row of a register table: `n1` instances `s1` bytes apart, each of `n2` words `s2` bytes apart. -/
structure RegSpec where
  name : String
  base : Nat
  n1 : Nat
  s1 : Nat
  n2 : Nat
  s2 : Nat
  set : ShadowSet
  flds : List FieldSpec
  deriving DecidableEq, Repr

/-- A field of the register at window address `addr`. -/
structure FieldRef where
  addr : Nat
  hi : Nat
  lo : Nat
  deriving DecidableEq, Repr

/-- The GLB block's registers. -/
def regsGLB : List RegSpec := [
  ⟨"GLB_ID", 0x00000000, 1, 0x0, 1, 0x0, .none, [⟨31, 0, .ro, 0, none⟩]⟩,
  ⟨"GLB_REV", 0x00000004, 1, 0x0, 1, 0x0, .none, [⟨7, 0, .ro, 178, none⟩]⟩,
  ⟨"GLB_STATUS", 0x00000008, 1, 0x0, 1, 0x0, .none, [⟨3, 3, .ro, 0, none⟩, ⟨2, 2, .ro, 0, none⟩, ⟨1, 1, .ro, 0, none⟩, ⟨0, 0, .ro, 0, none⟩]⟩,
  ⟨"GLB_SCRATCH", 0x0000000C, 1, 0x0, 1, 0x0, .none, [⟨31, 0, .rw, 0, none⟩]⟩]

/-- The CFG block's registers. -/
def regsCFG : List RegSpec := [
  ⟨"CFG_BOOTSTAT", 0x00010000, 1, 0x0, 1, 0x0, .none, [⟨31, 28, .ro, 0, none⟩, ⟨27, 24, .ro, 0, none⟩, ⟨19, 16, .ro, 0, none⟩, ⟨8, 8, .ro, 0, none⟩, ⟨1, 1, .ro, 0, none⟩, ⟨0, 0, .ro, 0, none⟩]⟩,
  ⟨"CFG_FWVER", 0x00010004, 1, 0x0, 1, 0x0, .none, [⟨31, 0, .ro, 0, none⟩]⟩,
  ⟨"CFG_IMAGEGEN", 0x00010008, 1, 0x0, 1, 0x0, .none, [⟨31, 0, .ro, 0, none⟩]⟩,
  ⟨"CFG_CONFIGID", 0x0001000C, 1, 0x0, 1, 0x0, .none, [⟨31, 0, .ro, 0, none⟩]⟩,
  ⟨"CFG_DIEIDLO", 0x00010010, 1, 0x0, 1, 0x0, .none, [⟨31, 0, .ro, 0, none⟩]⟩,
  ⟨"CFG_DIEIDHI", 0x00010014, 1, 0x0, 1, 0x0, .none, [⟨31, 0, .ro, 0, none⟩]⟩,
  ⟨"CFG_COMMIT", 0x00010020, 1, 0x0, 1, 0x0, .none, [⟨4, 0, .wo, 0, none⟩]⟩,
  ⟨"CFG_COMMITSTAT", 0x00010024, 1, 0x0, 1, 0x0, .none, [⟨4, 0, .ro, 0, none⟩]⟩,
  ⟨"CFG_CLAMPCNT", 0x00010030, 1, 0x0, 1, 0x0, .none, [⟨16, 16, .ro, 0, none⟩, ⟨15, 0, .ro, 0, none⟩]⟩,
  ⟨"CFG_CLAMPCTRL", 0x00010034, 1, 0x0, 1, 0x0, .none, [⟨0, 0, .wo, 0, none⟩]⟩,
  ⟨"CFG_CLAMPIDX", 0x00010038, 1, 0x0, 1, 0x0, .none, [⟨7, 0, .rw, 0, none⟩]⟩,
  ⟨"CFG_CLAMPDATA", 0x00010040, 4, 0x4, 1, 0x0, .none, [⟨31, 0, .ro, 0, none⟩]⟩,
  ⟨"CFG_STOKER", 0x00010050, 1, 0x0, 1, 0x0, .none, [⟨15, 8, .ro, 0, none⟩, ⟨3, 3, .rws, 0, none⟩, ⟨2, 2, .ro, 0, none⟩, ⟨1, 0, .ro, 0, none⟩]⟩,
  ⟨"CFG_STKRST", 0x00010054, 1, 0x0, 1, 0x0, .none, [⟨31, 0, .ro, 0, none⟩]⟩,
  ⟨"CFG_ERR", 0x00010058, 1, 0x0, 1, 0x0, .none, [⟨2, 2, .rws, 0, none⟩, ⟨1, 1, .rws, 0, none⟩, ⟨0, 0, .rws, 0, none⟩]⟩]

/-- The TRB block's registers. -/
def regsTRB : List RegSpec := [
  ⟨"TRB_NQCFG", 0x00020800, 4, 0x80, 1, 0x0, .none, [⟨23, 16, .rw, 8, some (1, 32)⟩, ⟨15, 1, .rw, 2, some (1, 1000)⟩, ⟨0, 0, .rw, 1, none⟩]⟩,
  ⟨"TRB_NQSTAT", 0x00020804, 4, 0x80, 1, 0x0, .none, [⟨31, 16, .ro, 0, none⟩, ⟨7, 7, .rws, 0, none⟩, ⟨6, 6, .rws, 0, none⟩, ⟨5, 0, .ro, 0, none⟩]⟩,
  ⟨"TRB_NQDATA", 0x00020840, 4, 0x80, 12, 0x4, .none, [⟨31, 0, .ro, 0, none⟩]⟩,
  ⟨"TRB_SUMMARY", 0x00020000, 1, 0x0, 1, 0x0, .none, [⟨21, 0, .ro, 0, none⟩]⟩,
  ⟨"TRB_CLRADDR", 0x00020004, 1, 0x0, 1, 0x0, .none, [⟨31, 2, .rw, 0, none⟩]⟩,
  ⟨"TRB_CLRMASK", 0x00020008, 1, 0x0, 1, 0x0, .none, [⟨31, 0, .wo, 0, none⟩]⟩,
  ⟨"TRB_INTEN", 0x00020010, 1, 0x0, 1, 0x0, .none, [⟨31, 31, .ro, 1, none⟩, ⟨26, 0, .rw, 0, none⟩]⟩,
  ⟨"TRB_INTSRC", 0x00020014, 1, 0x0, 1, 0x0, .none, [⟨31, 31, .ro, 0, none⟩, ⟨26, 0, .ro, 0, none⟩]⟩,
  ⟨"TRB_RECSEQ", 0x00020020, 1, 0x0, 1, 0x0, .none, [⟨31, 0, .ro, 0, none⟩]⟩,
  ⟨"TRB_RECSEL", 0x00020024, 1, 0x0, 1, 0x0, .none, [⟨7, 0, .rw, 0, none⟩]⟩,
  ⟨"TRB_RECACK", 0x00020028, 1, 0x0, 1, 0x0, .none, [⟨31, 0, .rw, 0, none⟩]⟩,
  ⟨"TRB_RECDATA", 0x00020040, 8, 0x4, 1, 0x0, .none, [⟨31, 0, .ro, 0, none⟩]⟩]

/-- The PWR block's registers. -/
def regsPWR : List RegSpec := [
  ⟨"PWR_REQ", 0x00030000, 1, 0x0, 1, 0x0, .none, [⟨27, 0, .wo, 0, none⟩]⟩,
  ⟨"PWR_STATE", 0x00030004, 1, 0x0, 1, 0x0, .none, [⟨27, 0, .ro, 0, none⟩]⟩,
  ⟨"PWR_PEND", 0x00030008, 1, 0x0, 1, 0x0, .none, [⟨27, 0, .ro, 0, none⟩]⟩,
  ⟨"PWR_LASTWAKE", 0x0003000C, 1, 0x0, 1, 0x0, .none, [⟨11, 8, .ro, 0, none⟩, ⟨3, 0, .ro, 0, none⟩]⟩,
  ⟨"PWR_REFUSED", 0x00030010, 1, 0x0, 1, 0x0, .none, [⟨13, 0, .ro, 0, none⟩]⟩,
  ⟨"PWR_WAKECNT", 0x00030014, 1, 0x0, 1, 0x0, .none, [⟨31, 0, .ro, 0, none⟩]⟩,
  ⟨"PWR_ERR", 0x00030018, 1, 0x0, 1, 0x0, .none, [⟨2, 2, .rws, 0, none⟩, ⟨1, 1, .rws, 0, none⟩, ⟨0, 0, .rws, 0, none⟩]⟩]

/-- The NET block's registers. -/
def regsNET : List RegSpec := [
  ⟨"NET_OJPPORT", 0x00040400, 1, 0x0, 1, 0x0, .none, [⟨15, 0, .ro, 46210, none⟩]⟩,
  ⟨"NET_OJPCTRL", 0x00040404, 1, 0x0, 1, 0x0, .none, [⟨7, 4, .ro, 0, none⟩, ⟨0, 0, .rw, 0, none⟩]⟩,
  ⟨"NET_OJPIDLE", 0x00040408, 1, 0x0, 1, 0x0, .none, [⟨15, 0, .rw, 10000, some (100, 60000)⟩]⟩,
  ⟨"NET_OJPRTO", 0x0004040C, 1, 0x0, 1, 0x0, .none, [⟨31, 28, .rw, 8, some (1, 15)⟩, ⟨27, 16, .rw, 100, some (10, 1000)⟩, ⟨15, 0, .rw, 1000, some (100, 10000)⟩]⟩,
  ⟨"NET_OJPSESS", 0x00040410, 1, 0x0, 1, 0x0, .none, [⟨15, 0, .ro, 0, none⟩]⟩,
  ⟨"NET_OJPDROP", 0x00040414, 1, 0x0, 1, 0x0, .none, [⟨31, 0, .ro, 0, none⟩]⟩,
  ⟨"NET_OJPDUP", 0x00040418, 1, 0x0, 1, 0x0, .none, [⟨31, 0, .ro, 0, none⟩]⟩,
  ⟨"NET_OJPAUTHF", 0x0004041C, 1, 0x0, 1, 0x0, .none, [⟨31, 0, .ro, 0, none⟩]⟩,
  ⟨"NET_OJPRETX", 0x00040420, 1, 0x0, 1, 0x0, .none, [⟨31, 0, .ro, 0, none⟩]⟩,
  ⟨"NET_OJPNLOST", 0x00040424, 1, 0x0, 1, 0x0, .none, [⟨31, 0, .ro, 0, none⟩]⟩,
  ⟨"NET_OJPERR", 0x00040428, 1, 0x0, 1, 0x0, .none, [⟨3, 3, .rws, 0, none⟩, ⟨2, 2, .rws, 0, none⟩, ⟨1, 1, .rws, 0, none⟩, ⟨0, 0, .rws, 0, none⟩]⟩,
  ⟨"NET_PCTRL", 0x00040000, 4, 0x40, 1, 0x0, .none, [⟨27, 16, .rw, 0, none⟩, ⟨15, 10, .rw, 0, none⟩, ⟨9, 8, .rw, 0, none⟩, ⟨3, 3, .rw, 0, none⟩, ⟨2, 2, .rw, 0, none⟩, ⟨1, 0, .rw, 2, some (0, 2)⟩]⟩,
  ⟨"NET_PSTAT", 0x00040004, 4, 0x40, 1, 0x0, .none, [⟨3, 3, .ro, 0, none⟩, ⟨2, 2, .ro, 0, none⟩, ⟨1, 1, .ro, 0, none⟩, ⟨0, 0, .ro, 0, none⟩]⟩,
  ⟨"NET_RXFRM", 0x00040008, 4, 0x40, 1, 0x0, .none, [⟨31, 0, .ro, 0, none⟩]⟩,
  ⟨"NET_TXFRM", 0x0004000C, 4, 0x40, 1, 0x0, .none, [⟨31, 0, .ro, 0, none⟩]⟩,
  ⟨"NET_FCSERR", 0x00040010, 4, 0x40, 1, 0x0, .none, [⟨31, 0, .ro, 0, none⟩]⟩,
  ⟨"NET_PAUSE", 0x00040014, 4, 0x40, 1, 0x0, .none, [⟨31, 0, .ro, 0, none⟩]⟩,
  ⟨"NET_RXDROP", 0x00040018, 4, 0x40, 1, 0x0, .none, [⟨31, 0, .ro, 0, none⟩]⟩,
  ⟨"NET_MACLO", 0x00040200, 1, 0x0, 1, 0x0, .none, [⟨31, 0, .ro, 0, none⟩]⟩,
  ⟨"NET_MACHI", 0x00040204, 1, 0x0, 1, 0x0, .none, [⟨15, 0, .ro, 0, none⟩]⟩,
  ⟨"NET_PMACLO", 0x00040208, 1, 0x0, 1, 0x0, .none, [⟨31, 0, .ro, 0, none⟩]⟩,
  ⟨"NET_PMACHI", 0x0004020C, 1, 0x0, 1, 0x0, .none, [⟨15, 0, .ro, 0, none⟩]⟩,
  ⟨"NET_IP4", 0x00040210, 1, 0x0, 1, 0x0, .none, [⟨31, 0, .ro, 0, none⟩]⟩,
  ⟨"NET_PIP4", 0x00040214, 1, 0x0, 1, 0x0, .none, [⟨31, 0, .ro, 0, none⟩]⟩,
  ⟨"NET_IP6", 0x00040220, 4, 0x4, 1, 0x0, .none, [⟨31, 0, .ro, 0, none⟩]⟩,
  ⟨"NET_PIP6", 0x00040230, 4, 0x4, 1, 0x0, .none, [⟨31, 0, .ro, 0, none⟩]⟩]

/-- The LANE block's registers. -/
def regsLANE : List RegSpec := [
  ⟨"LANE_CTRL", 0x00050000, 12, 0x40, 1, 0x0, .none, [⟨1, 1, .wo, 0, none⟩, ⟨0, 0, .rw, 1, none⟩]⟩,
  ⟨"LANE_TX", 0x00050004, 12, 0x40, 1, 0x0, .none, [⟨21, 16, .ro, 0, none⟩, ⟨12, 8, .ro, 0, none⟩, ⟨3, 0, .ro, 0, none⟩]⟩,
  ⟨"LANE_STAT", 0x00050008, 12, 0x40, 1, 0x0, .none, [⟨31, 24, .ro, 0, none⟩, ⟨19, 8, .ro, 0, none⟩, ⟨2, 0, .ro, 0, none⟩]⟩,
  ⟨"LANE_ERRCNT", 0x0005000C, 12, 0x40, 1, 0x0, .none, [⟨31, 0, .ro, 0, none⟩]⟩,
  ⟨"LANE_FOM", 0x00050400, 1, 0x0, 1, 0x0, .none, [⟨15, 8, .rw, 120, none⟩, ⟨7, 0, .rw, 80, none⟩]⟩,
  ⟨"LANE_BUDGET", 0x00050404, 1, 0x0, 1, 0x0, .none, [⟨11, 0, .rw, 512, some (1, 4095)⟩]⟩,
  ⟨"LANE_ERR", 0x00050408, 1, 0x0, 1, 0x0, .none, [⟨2, 2, .rws, 0, none⟩, ⟨1, 1, .rws, 0, none⟩, ⟨0, 0, .rws, 0, none⟩]⟩,
  ⟨"LANE_REPLAYCNT", 0x0005040C, 1, 0x0, 1, 0x0, .none, [⟨31, 0, .ro, 0, none⟩]⟩]

/-- The TIME block's registers. -/
def regsTIME : List RegSpec := [
  ⟨"TIME_SECLO", 0x00060000, 1, 0x0, 1, 0x0, .none, [⟨31, 0, .ro, 0, none⟩]⟩,
  ⟨"TIME_SECHI", 0x00060004, 1, 0x0, 1, 0x0, .none, [⟨15, 0, .ro, 0, none⟩]⟩,
  ⟨"TIME_NS", 0x00060008, 1, 0x0, 1, 0x0, .none, [⟨29, 0, .ro, 0, none⟩]⟩,
  ⟨"TIME_FRAC", 0x0006000C, 1, 0x0, 1, 0x0, .none, [⟨31, 0, .ro, 0, none⟩]⟩,
  ⟨"TIME_INCRLO", 0x00060010, 1, 0x0, 1, 0x0, .none, [⟨31, 0, .rw, 0, none⟩]⟩,
  ⟨"TIME_INCRHI", 0x00060014, 1, 0x0, 1, 0x0, .none, [⟨2, 0, .rw, 4, none⟩]⟩,
  ⟨"TIME_STEPNS", 0x00060018, 1, 0x0, 1, 0x0, .none, [⟨31, 0, .rw, 0, none⟩]⟩,
  ⟨"TIME_STEPSEC", 0x0006001C, 1, 0x0, 1, 0x0, .none, [⟨31, 0, .wo, 0, none⟩]⟩,
  ⟨"TIME_PTPCTRL", 0x00060020, 1, 0x0, 1, 0x0, .none, [⟨31, 24, .rw, 0, none⟩, ⟨11, 8, .rw, 15, none⟩, ⟨5, 5, .rw, 1, none⟩, ⟨4, 4, .rw, 0, none⟩, ⟨3, 2, .rw, 0, none⟩, ⟨0, 0, .rw, 0, none⟩]⟩,
  ⟨"TIME_PTPSTAT", 0x00060024, 1, 0x0, 1, 0x0, .none, [⟨3, 2, .ro, 0, none⟩, ⟨1, 1, .ro, 0, none⟩, ⟨0, 0, .ro, 0, none⟩]⟩,
  ⟨"TIME_OFFSET", 0x00060028, 1, 0x0, 1, 0x0, .none, [⟨31, 0, .ro, 0, none⟩]⟩,
  ⟨"TIME_PATHDLY", 0x0006002C, 1, 0x0, 1, 0x0, .none, [⟨31, 0, .ro, 0, none⟩]⟩,
  ⟨"TIME_STEPCNT", 0x00060030, 1, 0x0, 1, 0x0, .none, [⟨31, 0, .ro, 0, none⟩]⟩,
  ⟨"TIME_ERR", 0x00060034, 1, 0x0, 1, 0x0, .none, [⟨1, 1, .rws, 0, none⟩, ⟨0, 0, .rws, 0, none⟩]⟩,
  ⟨"TIME_EXSEQ", 0x0006003C, 1, 0x0, 1, 0x0, .none, [⟨31, 0, .ro, 0, none⟩]⟩,
  ⟨"TIME_EXS", 0x00060040, 4, 0x10, 1, 0x0, .none, [⟨31, 0, .ro, 0, none⟩]⟩,
  ⟨"TIME_EXN", 0x00060044, 4, 0x10, 1, 0x0, .none, [⟨29, 0, .ro, 0, none⟩]⟩,
  ⟨"TIME_EXF", 0x00060048, 4, 0x10, 1, 0x0, .none, [⟨15, 0, .ro, 0, none⟩]⟩,
  ⟨"TIME_TOCTRL", 0x00060100, 8, 0x20, 1, 0x0, .none, [⟨5, 5, .rws, 0, none⟩, ⟨4, 4, .ro, 0, none⟩, ⟨3, 3, .rw, 0, none⟩, ⟨2, 2, .rw, 0, none⟩, ⟨1, 1, .wo, 0, none⟩, ⟨0, 0, .wo, 0, none⟩]⟩,
  ⟨"TIME_TOSECLO", 0x00060104, 8, 0x20, 1, 0x0, .none, [⟨31, 0, .rw, 0, none⟩]⟩,
  ⟨"TIME_TOSECHI", 0x00060108, 8, 0x20, 1, 0x0, .none, [⟨15, 0, .rw, 0, none⟩]⟩,
  ⟨"TIME_TONS", 0x0006010C, 8, 0x20, 1, 0x0, .none, [⟨29, 0, .rw, 0, some (0, 999999999)⟩]⟩,
  ⟨"TIME_TOPER", 0x00060110, 8, 0x20, 1, 0x0, .none, [⟨31, 0, .rw, 1000000000, some (40, 4294967295)⟩]⟩,
  ⟨"TIME_TOWID", 0x00060114, 8, 0x20, 1, 0x0, .none, [⟨23, 0, .rw, 1000, some (20, 16777215)⟩]⟩]

/-- The PAIR block's registers. -/
def regsPAIR : List RegSpec := [
  ⟨"PAIR_CFG", 0x00070000, 1, 0x0, 1, 0x0, .none, [⟨25, 16, .rw, 200, some (50, 1000)⟩, ⟨1, 1, .rw, 0, none⟩, ⟨0, 0, .ro, 0, none⟩]⟩,
  ⟨"PAIR_CTRL", 0x00070004, 1, 0x0, 1, 0x0, .none, [⟨1, 1, .wo, 0, none⟩, ⟨0, 0, .wo, 0, none⟩]⟩,
  ⟨"PAIR_STATUS", 0x00070008, 1, 0x0, 1, 0x0, .none, [⟨23, 20, .ro, 0, none⟩, ⟨19, 16, .ro, 0, none⟩, ⟨9, 9, .ro, 0, none⟩, ⟨8, 8, .ro, 0, none⟩, ⟨2, 2, .ro, 0, none⟩, ⟨1, 0, .ro, 0, none⟩]⟩,
  ⟨"PAIR_READY", 0x0007000C, 1, 0x0, 1, 0x0, .none, [⟨7, 0, .ro, 0, none⟩]⟩,
  ⟨"PAIR_RALLY", 0x00070010, 1, 0x0, 1, 0x0, .none, [⟨31, 24, .rw, 64, some (1, 255)⟩, ⟨16, 16, .rw, 1, none⟩, ⟨15, 0, .rw, 100, some (10, 10000)⟩]⟩,
  ⟨"PAIR_SUSPECT", 0x00070014, 1, 0x0, 1, 0x0, .none, [⟨31, 24, .rw, 16, some (1, 255)⟩, ⟨23, 0, .rw, 65536, some (1024, 16777215)⟩]⟩,
  ⟨"PAIR_RESYNC", 0x00070018, 1, 0x0, 1, 0x0, .none, [⟨4, 0, .rw, 8, some (1, 20)⟩]⟩,
  ⟨"PAIR_SYNCPROG", 0x0007001C, 1, 0x0, 1, 0x0, .none, [⟨31, 0, .ro, 0, none⟩]⟩,
  ⟨"PAIR_TIMEOFF", 0x00070020, 1, 0x0, 1, 0x0, .none, [⟨31, 0, .ro, 0, none⟩]⟩,
  ⟨"PAIR_MISFIRST", 0x00070024, 1, 0x0, 1, 0x0, .none, [⟨31, 29, .ro, 0, none⟩, ⟨24, 0, .ro, 0, none⟩]⟩,
  ⟨"PAIR_MISLAST", 0x00070028, 1, 0x0, 1, 0x0, .none, [⟨24, 0, .ro, 0, none⟩]⟩,
  ⟨"PAIR_MISCNT", 0x0007002C, 1, 0x0, 1, 0x0, .none, [⟨31, 0, .ro, 0, none⟩]⟩,
  ⟨"PAIR_MISSCNT", 0x00070030, 1, 0x0, 1, 0x0, .none, [⟨31, 0, .ro, 0, none⟩]⟩,
  ⟨"PAIR_HOCNT", 0x00070034, 1, 0x0, 1, 0x0, .none, [⟨31, 0, .ro, 0, none⟩]⟩,
  ⟨"PAIR_HBMISS", 0x00070038, 1, 0x0, 1, 0x0, .none, [⟨31, 0, .ro, 0, none⟩]⟩,
  ⟨"PAIR_RPROK", 0x0007003C, 1, 0x0, 1, 0x0, .none, [⟨31, 0, .ro, 0, none⟩]⟩,
  ⟨"PAIR_RPRFAIL", 0x00070040, 1, 0x0, 1, 0x0, .none, [⟨31, 0, .ro, 0, none⟩]⟩,
  ⟨"PAIR_MIRPEND", 0x00070044, 1, 0x0, 1, 0x0, .none, [⟨15, 0, .ro, 0, none⟩]⟩,
  ⟨"PAIR_ERR", 0x00070048, 1, 0x0, 1, 0x0, .none, [⟨12, 12, .rws, 0, none⟩, ⟨11, 11, .rws, 0, none⟩, ⟨10, 10, .rws, 0, none⟩, ⟨9, 9, .rws, 0, none⟩, ⟨8, 8, .rws, 0, none⟩, ⟨7, 7, .rws, 0, none⟩, ⟨6, 6, .rws, 0, none⟩, ⟨5, 5, .rws, 0, none⟩, ⟨4, 4, .rws, 0, none⟩, ⟨3, 3, .rws, 0, none⟩, ⟨2, 2, .rws, 0, none⟩, ⟨1, 1, .rws, 0, none⟩, ⟨0, 0, .rws, 0, none⟩]⟩]

/-- The MEM block's registers. -/
def regsMEM : List RegSpec := [
  ⟨"MEM_CTRL", 0x00080000, 1, 0x0, 1, 0x0, .none, [⟨2, 2, .rw, 1, none⟩, ⟨1, 1, .rw, 1, none⟩, ⟨0, 0, .rw, 0, none⟩]⟩,
  ⟨"MEM_CFG", 0x00080004, 1, 0x0, 1, 0x0, .none, [⟨11, 10, .ro, 0, none⟩, ⟨9, 9, .ro, 0, none⟩, ⟨8, 8, .ro, 0, none⟩, ⟨3, 0, .ro, 0, none⟩]⟩,
  ⟨"MEM_SIZE", 0x00080008, 1, 0x0, 1, 0x0, .none, [⟨7, 0, .ro, 0, none⟩]⟩,
  ⟨"MEM_STATUS", 0x0008000C, 1, 0x0, 1, 0x0, .none, [⟨11, 8, .ro, 0, none⟩, ⟨7, 4, .ro, 0, none⟩, ⟨2, 2, .ro, 0, none⟩, ⟨1, 1, .ro, 0, none⟩, ⟨0, 0, .ro, 0, none⟩]⟩,
  ⟨"MEM_KWMLO", 0x00080010, 1, 0x0, 1, 0x0, .none, [⟨31, 6, .ro, 0, none⟩]⟩,
  ⟨"MEM_KWMHI", 0x00080014, 1, 0x0, 1, 0x0, .none, [⟨7, 0, .ro, 0, none⟩]⟩,
  ⟨"MEM_SWEEP", 0x00080018, 1, 0x0, 1, 0x0, .none, [⟨10, 0, .rw, 480, some (15, 1440)⟩]⟩,
  ⟨"MEM_SWPROG", 0x0008001C, 1, 0x0, 1, 0x0, .none, [⟨31, 0, .ro, 0, none⟩]⟩,
  ⟨"MEM_SWPASS", 0x00080020, 1, 0x0, 1, 0x0, .none, [⟨31, 0, .ro, 0, none⟩]⟩,
  ⟨"MEM_SRAMPASS", 0x00080024, 1, 0x0, 1, 0x0, .none, [⟨31, 0, .ro, 0, none⟩]⟩,
  ⟨"MEM_CAPCNT", 0x00080028, 1, 0x0, 1, 0x0, .none, [⟨31, 0, .ro, 0, none⟩]⟩,
  ⟨"MEM_ERR", 0x0008002C, 1, 0x0, 1, 0x0, .none, [⟨6, 6, .rws, 0, none⟩, ⟨5, 5, .rws, 0, none⟩, ⟨4, 4, .rws, 0, none⟩, ⟨3, 3, .rws, 0, none⟩, ⟨2, 2, .rws, 0, none⟩, ⟨0, 0, .rws, 0, none⟩]⟩,
  ⟨"MEM_LASTLO", 0x00080030, 1, 0x0, 1, 0x0, .none, [⟨31, 0, .ro, 0, none⟩]⟩,
  ⟨"MEM_LASTHI", 0x00080034, 1, 0x0, 1, 0x0, .none, [⟨31, 28, .ro, 0, none⟩, ⟨7, 0, .ro, 0, none⟩]⟩,
  ⟨"MEM_CECNT", 0x00080040, 4, 0x4, 1, 0x0, .none, [⟨31, 0, .ro, 0, none⟩]⟩,
  ⟨"MEM_UECNT", 0x00080050, 4, 0x4, 1, 0x0, .none, [⟨31, 0, .ro, 0, none⟩]⟩,
  ⟨"MEM_TEMP", 0x00080060, 4, 0x4, 1, 0x0, .none, [⟨1, 0, .ro, 0, none⟩]⟩,
  ⟨"MEM_SRAMCE", 0x00080070, 1, 0x0, 1, 0x0, .none, [⟨31, 0, .ro, 0, none⟩]⟩,
  ⟨"MEM_SRAMUE", 0x00080074, 1, 0x0, 1, 0x0, .none, [⟨31, 0, .ro, 0, none⟩]⟩,
  ⟨"MEM_RMPOL", 0x00080080, 1, 0x0, 1, 0x0, .none, [⟨7, 0, .rw, 4, some (1, 255)⟩]⟩,
  ⟨"MEM_RMREQ", 0x00080084, 1, 0x0, 1, 0x0, .none, [⟨31, 31, .wo, 0, none⟩, ⟨29, 28, .rw, 0, none⟩, ⟨27, 27, .rw, 0, none⟩, ⟨26, 25, .rw, 0, none⟩, ⟨24, 23, .rw, 0, none⟩, ⟨16, 0, .rw, 0, none⟩]⟩,
  ⟨"MEM_RMCTRL", 0x00080088, 1, 0x0, 1, 0x0, .none, [⟨0, 0, .wo, 0, none⟩]⟩,
  ⟨"MEM_RMCNT", 0x0008008C, 1, 0x0, 1, 0x0, .none, [⟨4, 0, .ro, 0, none⟩]⟩,
  ⟨"MEM_REMAP", 0x00080100, 16, 0x4, 1, 0x0, .none, [⟨31, 31, .ro, 0, none⟩, ⟨29, 28, .ro, 0, none⟩, ⟨27, 27, .ro, 0, none⟩, ⟨26, 25, .ro, 0, none⟩, ⟨24, 23, .ro, 0, none⟩, ⟨18, 17, .ro, 0, none⟩, ⟨16, 0, .ro, 0, none⟩]⟩]

/-- The DMA block's registers. -/
def regsDMA : List RegSpec := [
  ⟨"DMA_CHCTRL", 0x00090000, 16, 0x40, 1, 0x0, .none, [⟨2, 2, .wo, 0, none⟩, ⟨1, 1, .wo, 0, none⟩, ⟨0, 0, .rw, 0, none⟩]⟩,
  ⟨"DMA_CHBASELO", 0x00090004, 16, 0x40, 1, 0x0, .none, [⟨31, 5, .rw, 0, none⟩]⟩,
  ⟨"DMA_CHBASEHI", 0x00090008, 16, 0x40, 1, 0x0, .none, [⟨7, 0, .rw, 0, none⟩]⟩,
  ⟨"DMA_CHSIZE", 0x0009000C, 16, 0x40, 1, 0x0, .none, [⟨16, 0, .rw, 1, some (1, 65536)⟩]⟩,
  ⟨"DMA_CHPROD", 0x00090010, 16, 0x40, 1, 0x0, .none, [⟨15, 0, .rw, 0, none⟩]⟩,
  ⟨"DMA_CHCONS", 0x00090014, 16, 0x40, 1, 0x0, .none, [⟨15, 0, .ro, 0, none⟩]⟩,
  ⟨"DMA_CHSTAT", 0x00090018, 16, 0x40, 1, 0x0, .none, [⟨7, 4, .ro, 0, none⟩, ⟨2, 2, .ro, 0, none⟩, ⟨1, 1, .ro, 0, none⟩, ⟨0, 0, .ro, 0, none⟩]⟩,
  ⟨"DMA_CHBYTES", 0x0009001C, 16, 0x40, 1, 0x0, .none, [⟨31, 0, .ro, 0, none⟩]⟩,
  ⟨"DMA_CQBASELO", 0x00090400, 1, 0x0, 1, 0x0, .none, [⟨31, 6, .rw, 0, none⟩]⟩,
  ⟨"DMA_CQBASEHI", 0x00090404, 1, 0x0, 1, 0x0, .none, [⟨7, 0, .rw, 0, none⟩]⟩,
  ⟨"DMA_CQSIZE", 0x00090408, 1, 0x0, 1, 0x0, .none, [⟨16, 0, .rw, 256, some (4, 65536)⟩]⟩,
  ⟨"DMA_CQPROD", 0x0009040C, 1, 0x0, 1, 0x0, .none, [⟨15, 0, .ro, 0, none⟩]⟩,
  ⟨"DMA_CQCONS", 0x00090410, 1, 0x0, 1, 0x0, .none, [⟨15, 0, .rw, 0, none⟩]⟩,
  ⟨"DMA_RATE", 0x00090414, 1, 0x0, 1, 0x0, .none, [⟨4, 0, .rw, 8, some (1, 24)⟩]⟩,
  ⟨"DMA_ERR", 0x00090418, 1, 0x0, 1, 0x0, .none, [⟨2, 2, .rws, 0, none⟩, ⟨1, 1, .rws, 0, none⟩, ⟨0, 0, .rws, 0, none⟩]⟩,
  ⟨"DMA_TIMER", 0x00090440, 8, 0x4, 1, 0x0, .none, [⟨31, 31, .rw, 0, none⟩, ⟨19, 0, .rw, 1000, some (1, 1000000)⟩]⟩]

/-- The CRC block's registers. -/
def regsCRC : List RegSpec := [
  ⟨"CRC_CTRL", 0x000A0000, 4, 0x40, 1, 0x0, .none, [⟨3, 3, .wo, 0, none⟩, ⟨2, 2, .rw, 1, none⟩, ⟨1, 0, .rw, 1, none⟩]⟩,
  ⟨"CRC_EXPLO", 0x000A0004, 4, 0x40, 1, 0x0, .none, [⟨31, 0, .rw, 0, none⟩]⟩,
  ⟨"CRC_EXPHI", 0x000A0008, 4, 0x40, 1, 0x0, .none, [⟨31, 0, .rw, 0, none⟩]⟩,
  ⟨"CRC_RESLO", 0x000A000C, 4, 0x40, 1, 0x0, .none, [⟨31, 0, .ro, 0, none⟩]⟩,
  ⟨"CRC_RESHI", 0x000A0010, 4, 0x40, 1, 0x0, .none, [⟨31, 0, .ro, 0, none⟩]⟩,
  ⟨"CRC_LENLO", 0x000A0014, 4, 0x40, 1, 0x0, .none, [⟨31, 0, .ro, 0, none⟩]⟩,
  ⟨"CRC_LENHI", 0x000A0018, 4, 0x40, 1, 0x0, .none, [⟨7, 0, .ro, 0, none⟩]⟩,
  ⟨"CRC_STAT", 0x000A001C, 4, 0x40, 1, 0x0, .none, [⟨7, 4, .ro, 0, none⟩, ⟨3, 3, .ro, 0, none⟩, ⟨2, 2, .ro, 0, none⟩, ⟨1, 0, .ro, 0, none⟩]⟩,
  ⟨"CRC_ERR", 0x000A0100, 1, 0x0, 1, 0x0, .none, [⟨2, 2, .rws, 0, none⟩, ⟨1, 1, .rws, 0, none⟩, ⟨0, 0, .rws, 0, none⟩]⟩]

/-- The JOB block's registers. -/
def regsJOB : List RegSpec := [
  ⟨"JOB_CTRL", 0x000B0000, 1, 0x0, 1, 0x0, .none, [⟨2, 2, .wo, 0, none⟩, ⟨1, 1, .wo, 0, none⟩, ⟨0, 0, .wo, 0, none⟩]⟩,
  ⟨"JOB_HEADLO", 0x000B0004, 1, 0x0, 1, 0x0, .none, [⟨31, 7, .rw, 0, none⟩]⟩,
  ⟨"JOB_HEADHI", 0x000B0008, 1, 0x0, 1, 0x0, .none, [⟨7, 0, .rw, 0, none⟩]⟩,
  ⟨"JOB_DOORBELL", 0x000B000C, 1, 0x0, 1, 0x0, .none, [⟨0, 0, .wo, 0, none⟩]⟩,
  ⟨"JOB_LOOKAHEAD", 0x000B0010, 1, 0x0, 1, 0x0, .none, [⟨19, 0, .rw, 131072, some (4096, 1048575)⟩]⟩,
  ⟨"JOB_STATUS", 0x000B0014, 1, 0x0, 1, 0x0, .none, [⟨18, 16, .ro, 0, none⟩, ⟨11, 8, .ro, 0, none⟩, ⟨1, 1, .ro, 0, none⟩, ⟨0, 0, .ro, 0, none⟩]⟩,
  ⟨"JOB_TAILLO", 0x000B0018, 1, 0x0, 1, 0x0, .none, [⟨31, 7, .ro, 0, none⟩]⟩,
  ⟨"JOB_TAILHI", 0x000B001C, 1, 0x0, 1, 0x0, .none, [⟨7, 0, .ro, 0, none⟩]⟩,
  ⟨"JOB_CURPAGE", 0x000B0020, 1, 0x0, 1, 0x0, .none, [⟨31, 0, .ro, 0, none⟩]⟩,
  ⟨"JOB_RETPAGE", 0x000B0024, 1, 0x0, 1, 0x0, .none, [⟨31, 0, .ro, 0, none⟩]⟩,
  ⟨"JOB_RETGEN", 0x000B0028, 1, 0x0, 1, 0x0, .none, [⟨31, 0, .ro, 0, none⟩]⟩,
  ⟨"JOB_RETSTAT", 0x000B002C, 1, 0x0, 1, 0x0, .none, [⟨15, 0, .ro, 0, none⟩]⟩,
  ⟨"JOB_LIMITLO", 0x000B0030, 1, 0x0, 1, 0x0, .none, [⟨31, 20, .ro, 0, none⟩]⟩,
  ⟨"JOB_LIMITHI", 0x000B0034, 1, 0x0, 1, 0x0, .none, [⟨7, 0, .ro, 0, none⟩]⟩,
  ⟨"JOB_PAGECNT", 0x000B0038, 1, 0x0, 1, 0x0, .none, [⟨31, 0, .ro, 0, none⟩]⟩,
  ⟨"JOB_FLAGCNT", 0x000B003C, 1, 0x0, 1, 0x0, .none, [⟨31, 0, .ro, 0, none⟩]⟩,
  ⟨"JOB_MISSCNT", 0x000B0040, 1, 0x0, 1, 0x0, .none, [⟨31, 0, .ro, 0, none⟩]⟩,
  ⟨"JOB_BELLCNT", 0x000B0044, 1, 0x0, 1, 0x0, .none, [⟨31, 0, .ro, 0, none⟩]⟩,
  ⟨"JOB_ERR", 0x000B0048, 1, 0x0, 1, 0x0, .none, [⟨6, 6, .rws, 0, none⟩, ⟨5, 5, .rws, 0, none⟩, ⟨4, 4, .rws, 0, none⟩, ⟨3, 3, .rws, 0, none⟩, ⟨2, 2, .rws, 0, none⟩, ⟨1, 1, .rws, 0, none⟩, ⟨0, 0, .rws, 0, none⟩]⟩]

/-- The DEC block's registers. -/
def regsDEC : List RegSpec := [
  ⟨"DEC_PLANPER", 0x000C0000, 1, 0x0, 1, 0x0, .none, [⟨19, 0, .rw, 6250, some (6250, 1000000)⟩]⟩,
  ⟨"DEC_MEMBUDGET", 0x000C0004, 1, 0x0, 1, 0x0, .none, [⟨7, 0, .rw, 72, some (16, 96)⟩]⟩,
  ⟨"DEC_POOL", 0x000C0008, 1, 0x0, 1, 0x0, .none, [⟨6, 0, .ro, 0, none⟩]⟩,
  ⟨"DEC_POOLUSED", 0x000C000C, 1, 0x0, 1, 0x0, .none, [⟨16, 0, .ro, 0, none⟩]⟩,
  ⟨"DEC_LIMITPER", 0x000C0010, 1, 0x0, 1, 0x0, .none, [⟨31, 0, .ro, 0, none⟩]⟩,
  ⟨"DEC_STATUS", 0x000C0014, 1, 0x0, 1, 0x0, .none, [⟨31, 16, .ro, 0, none⟩, ⟨2, 2, .ro, 0, none⟩, ⟨1, 1, .ro, 0, none⟩, ⟨0, 0, .ro, 0, none⟩]⟩,
  ⟨"DEC_EXPCNT", 0x000C0018, 1, 0x0, 1, 0x0, .none, [⟨31, 0, .ro, 0, none⟩]⟩,
  ⟨"DEC_SYMXCNT", 0x000C001C, 1, 0x0, 1, 0x0, .none, [⟨31, 0, .ro, 0, none⟩]⟩,
  ⟨"DEC_CMPCTRL", 0x000C0020, 1, 0x0, 1, 0x0, .none, [⟨8, 8, .rw, 1, none⟩, ⟨5, 0, .rw, 16, some (1, 63)⟩]⟩,
  ⟨"DEC_RECUSED", 0x000C0024, 1, 0x0, 1, 0x0, .none, [⟨9, 0, .ro, 0, none⟩]⟩,
  ⟨"DEC_ERR", 0x000C0028, 1, 0x0, 1, 0x0, .none, [⟨8, 8, .rws, 0, none⟩, ⟨7, 7, .rws, 0, none⟩, ⟨6, 6, .rws, 0, none⟩, ⟨5, 5, .rws, 0, none⟩, ⟨4, 4, .rws, 0, none⟩, ⟨3, 3, .rws, 0, none⟩, ⟨2, 2, .rws, 0, none⟩, ⟨1, 1, .rws, 0, none⟩, ⟨0, 0, .rws, 0, none⟩]⟩]

/-- The RAS block's registers. -/
def regsRAS : List RegSpec := [
  ⟨"RAS_SCALE", 0x000D0000, 8, 0x4, 1, 0x0, .scale, [⟨3, 3, .rw, 0, none⟩, ⟨2, 2, .rw, 0, none⟩, ⟨1, 1, .rw, 0, none⟩, ⟨0, 0, .rw, 0, none⟩]⟩,
  ⟨"RAS_REG", 0x000D0020, 8, 0x4, 1, 0x0, .correction, [⟨15, 0, .rw, 0, none⟩]⟩,
  ⟨"RAS_STCTRL", 0x000D0040, 8, 0x4, 1, 0x0, .correction, [⟨1, 1, .rw, 1, none⟩, ⟨0, 0, .rw, 0, none⟩]⟩,
  ⟨"RAS_COMMITSTAT", 0x000D0060, 1, 0x0, 1, 0x0, .none, [⟨8, 8, .ro, 0, none⟩, ⟨7, 0, .ro, 0, none⟩]⟩,
  ⟨"RAS_ERR", 0x000D0064, 1, 0x0, 1, 0x0, .none, [⟨1, 1, .rws, 0, none⟩, ⟨0, 0, .rws, 0, none⟩]⟩,
  ⟨"RAS_PEEKIDX", 0x000D0068, 1, 0x0, 1, 0x0, .none, [⟨17, 0, .rw, 0, none⟩]⟩,
  ⟨"RAS_PEEKVAL", 0x000D006C, 1, 0x0, 1, 0x0, .none, [⟨31, 0, .ro, 0, none⟩]⟩,
  ⟨"RAS_MASK", 0x000D3000, 8, 0x100, 64, 0x4, .correction, [⟨31, 24, .rw, 0, none⟩, ⟨23, 16, .rw, 0, none⟩, ⟨15, 8, .rw, 0, none⟩, ⟨7, 0, .rw, 0, none⟩]⟩,
  ⟨"RAS_CURVE", 0x000D4000, 64, 0x100, 64, 0x4, .correction, [⟨31, 24, .rw, 0, none⟩, ⟨23, 16, .rw, 0, none⟩, ⟨15, 8, .rw, 0, none⟩, ⟨7, 0, .rw, 0, none⟩]⟩,
  ⟨"RAS_STWT", 0x000D8000, 64, 0x200, 128, 0x4, .correction, [⟨24, 16, .rw, 0, some (0, 256)⟩, ⟨8, 0, .rw, 0, some (0, 256)⟩]⟩]

/-- The HT block's registers. -/
def regsHT : List RegSpec := [
  ⟨"HT_CTRL", 0x000E0000, 8, 0x4, 1, 0x0, .halftone, [⟨11, 11, .rw, 1, none⟩, ⟨10, 8, .rw, 7, some (1, 7)⟩, ⟨6, 4, .rw, 7, some (1, 7)⟩, ⟨0, 0, .rw, 0, none⟩]⟩,
  ⟨"HT_CODE", 0x000E0020, 8, 0x4, 1, 0x0, .codeWidth, [⟨1, 0, .rw, 3, some (1, 3)⟩]⟩,
  ⟨"HT_HIDE", 0x000E0040, 8, 0x4, 1, 0x0, .halftone, [⟨23, 16, .rw, 128, none⟩, ⟨15, 8, .rw, 32, none⟩, ⟨7, 0, .rw, 96, none⟩]⟩,
  ⟨"HT_HGAIN", 0x000E0060, 8, 0x4, 1, 0x0, .halftone, [⟨24, 16, .rw, 192, some (0, 256)⟩, ⟨8, 0, .rw, 256, some (0, 384)⟩]⟩,
  ⟨"HT_DIFF", 0x000E0080, 8, 0x4, 1, 0x0, .halftone, [⟨28, 24, .rw, 1, some (0, 16)⟩, ⟨20, 16, .rw, 5, some (0, 16)⟩, ⟨12, 8, .rw, 3, some (0, 16)⟩, ⟨4, 0, .rw, 7, some (0, 16)⟩]⟩,
  ⟨"HT_LOFF", 0x000E0100, 8, 0x10, 4, 0x4, .halftone, [⟨31, 24, .rw, 0, none⟩, ⟨23, 16, .rw, 0, none⟩, ⟨15, 8, .rw, 0, none⟩, ⟨7, 0, .rw, 0, none⟩]⟩,
  ⟨"HT_COMMITSTAT", 0x000E0200, 1, 0x0, 1, 0x0, .none, [⟨8, 8, .ro, 0, none⟩, ⟨7, 0, .ro, 0, none⟩]⟩,
  ⟨"HT_STATEPEND", 0x000E0204, 1, 0x0, 1, 0x0, .none, [⟨7, 0, .ro, 0, none⟩]⟩,
  ⟨"HT_ERR", 0x000E0208, 1, 0x0, 1, 0x0, .none, [⟨4, 4, .rws, 0, none⟩, ⟨3, 3, .rws, 0, none⟩, ⟨2, 2, .rws, 0, none⟩, ⟨1, 1, .rws, 0, none⟩, ⟨0, 0, .rws, 0, none⟩]⟩,
  ⟨"HT_BAD", 0x000E0220, 8, 0x4, 1, 0x0, .none, [⟨18, 0, .ro, 0, none⟩]⟩,
  ⟨"HT_UNCOV", 0x000E0240, 8, 0x4, 1, 0x0, .none, [⟨18, 0, .ro, 0, none⟩]⟩,
  ⟨"HT_DROP", 0x000E1000, 64, 0x10, 4, 0x4, .halftone, [⟨24, 16, .rw, 0, none⟩, ⟨8, 0, .rw, 0, none⟩]⟩]

/-- The LT block's registers. -/
def regsLT : List RegSpec := [
  ⟨"LT_CHCFG", 0x000F0000, 4, 0x40, 1, 0x0, .none, [⟨15, 12, .rw, 4, some (1, 15)⟩, ⟨9, 9, .rw, 0, none⟩, ⟨8, 8, .rw, 0, none⟩, ⟨5, 5, .rw, 0, none⟩, ⟨4, 4, .rw, 0, none⟩, ⟨1, 0, .rw, 0, none⟩]⟩,
  ⟨"LT_CHCTRL", 0x000F0004, 4, 0x40, 1, 0x0, .none, [⟨2, 2, .wo, 0, none⟩, ⟨1, 1, .wo, 0, none⟩, ⟨0, 0, .wo, 0, none⟩]⟩,
  ⟨"LT_POSLO", 0x000F0008, 4, 0x40, 1, 0x0, .none, [⟨31, 0, .ro, 0, none⟩]⟩,
  ⟨"LT_POSHI", 0x000F000C, 4, 0x40, 1, 0x0, .none, [⟨15, 0, .ro, 0, none⟩]⟩,
  ⟨"LT_HWMLO", 0x000F0010, 4, 0x40, 1, 0x0, .none, [⟨31, 0, .ro, 0, none⟩]⟩,
  ⟨"LT_HWMHI", 0x000F0014, 4, 0x40, 1, 0x0, .none, [⟨15, 0, .ro, 0, none⟩]⟩,
  ⟨"LT_IDXLO", 0x000F0018, 4, 0x40, 1, 0x0, .none, [⟨31, 0, .ro, 0, none⟩]⟩,
  ⟨"LT_IDXHI", 0x000F001C, 4, 0x40, 1, 0x0, .none, [⟨15, 0, .ro, 0, none⟩]⟩,
  ⟨"LT_CPR", 0x000F0020, 4, 0x40, 1, 0x0, .none, [⟨31, 24, .rw, 2, none⟩, ⟨23, 0, .rw, 0, none⟩]⟩,
  ⟨"LT_DT", 0x000F0024, 4, 0x40, 1, 0x0, .none, [⟨31, 16, .rw, 100, some (1, 65535)⟩, ⟨15, 0, .rw, 16, none⟩]⟩,
  ⟨"LT_SPDCFG", 0x000F0028, 4, 0x40, 1, 0x0, .none, [⟨31, 24, .rw, 4, none⟩, ⟨13, 0, .rw, 100, some (10, 10000)⟩]⟩,
  ⟨"LT_STILL", 0x000F002C, 4, 0x40, 1, 0x0, .none, [⟨19, 0, .rw, 10000, some (10, 1000000)⟩]⟩,
  ⟨"LT_SPEED", 0x000F0030, 4, 0x40, 1, 0x0, .none, [⟨31, 31, .ro, 1, none⟩, ⟨30, 30, .ro, 0, none⟩, ⟨23, 0, .ro, 0, none⟩]⟩,
  ⟨"LT_SSI", 0x000F0034, 4, 0x40, 1, 0x0, .none, [⟨29, 16, .rw, 1000, some (100, 10000)⟩, ⟨15, 8, .rw, 0, none⟩, ⟨6, 6, .rw, 0, none⟩, ⟨5, 0, .rw, 24, some (8, 48)⟩]⟩,
  ⟨"LT_SSIPOLL", 0x000F0038, 4, 0x40, 1, 0x0, .none, [⟨25, 16, .rw, 200, some (1, 1000)⟩, ⟨13, 0, .rw, 10000, some (100, 10000)⟩]⟩,
  ⟨"LT_CHSTAT", 0x000F003C, 4, 0x40, 1, 0x0, .none, [⟨7, 7, .rws, 0, none⟩, ⟨6, 6, .rws, 0, none⟩, ⟨5, 5, .rws, 0, none⟩, ⟨4, 4, .rws, 0, none⟩, ⟨3, 3, .ro, 0, none⟩, ⟨2, 2, .ro, 0, none⟩, ⟨1, 1, .ro, 1, none⟩, ⟨0, 0, .ro, 0, none⟩]⟩,
  ⟨"LT_MINPER", 0x000F0140, 8, 0x4, 1, 0x0, .none, [⟨27, 24, .rw, 1, none⟩, ⟨19, 0, .rw, 6250, some (6250, 1000000)⟩]⟩,
  ⟨"LT_PSTATE", 0x000F0160, 8, 0x4, 1, 0x0, .none, [⟨7, 4, .ro, 0, none⟩, ⟨2, 0, .ro, 0, none⟩]⟩,
  ⟨"LT_IVAL", 0x000F0180, 8, 0x4, 1, 0x0, .none, [⟨31, 0, .ro, 0, none⟩]⟩,
  ⟨"LT_RESUME", 0x000F01A0, 8, 0x4, 1, 0x0, .none, [⟨24, 0, .ro, 0, none⟩]⟩,
  ⟨"LT_NEXT", 0x000F01C0, 8, 0x4, 1, 0x0, .none, [⟨24, 0, .ro, 0, none⟩]⟩,
  ⟨"LT_BACKUP", 0x000F0200, 4, 0x4, 1, 0x0, .none, [⟨23, 0, .rw, 0, none⟩]⟩,
  ⟨"LT_DTCNT", 0x000F0210, 4, 0x4, 1, 0x0, .none, [⟨31, 0, .ro, 0, none⟩]⟩,
  ⟨"LT_BTGTLO", 0x000F0220, 4, 0x8, 1, 0x0, .none, [⟨31, 0, .ro, 0, none⟩]⟩,
  ⟨"LT_BTGTHI", 0x000F0224, 4, 0x8, 1, 0x0, .none, [⟨15, 0, .ro, 0, none⟩]⟩,
  ⟨"LT_POSSETLO", 0x000F0240, 4, 0x8, 1, 0x0, .none, [⟨31, 0, .rw, 0, none⟩]⟩,
  ⟨"LT_POSSETHI", 0x000F0244, 4, 0x8, 1, 0x0, .none, [⟨15, 0, .rw, 0, none⟩]⟩,
  ⟨"LT_IDXDIST", 0x000F0260, 4, 0x4, 1, 0x0, .none, [⟨31, 0, .ro, 0, none⟩]⟩,
  ⟨"LT_PRBCFG", 0x000F0280, 4, 0x20, 1, 0x0, .none, [⟨15, 12, .rw, 4, some (1, 15)⟩, ⟨8, 8, .rw, 0, none⟩, ⟨5, 4, .rw, 0, none⟩, ⟨1, 0, .rw, 0, none⟩]⟩,
  ⟨"LT_PRBOFF", 0x000F0284, 4, 0x20, 1, 0x0, .none, [⟨31, 0, .rw, 0, none⟩]⟩,
  ⟨"LT_PRBGAP", 0x000F0288, 4, 0x20, 1, 0x0, .none, [⟨31, 0, .rw, 0, none⟩]⟩,
  ⟨"LT_PRBLATLO", 0x000F028C, 4, 0x20, 1, 0x0, .none, [⟨31, 0, .ro, 0, none⟩]⟩,
  ⟨"LT_PRBLATHI", 0x000F0290, 4, 0x20, 1, 0x0, .none, [⟨15, 0, .ro, 0, none⟩]⟩,
  ⟨"LT_PRBCNT", 0x000F0294, 4, 0x20, 1, 0x0, .none, [⟨31, 0, .ro, 0, none⟩]⟩,
  ⟨"LT_PRBREJ", 0x000F0298, 4, 0x20, 1, 0x0, .none, [⟨31, 0, .ro, 0, none⟩]⟩,
  ⟨"LT_DLCTRL", 0x000F0300, 1, 0x0, 1, 0x0, .none, [⟨15, 0, .rw, 64, some (2, 65535)⟩]⟩,
  ⟨"LT_WARN", 0x000F0304, 1, 0x0, 1, 0x0, .none, [⟨6, 0, .rw, 95, some (50, 100)⟩]⟩,
  ⟨"LT_STATUS", 0x000F0308, 1, 0x0, 1, 0x0, .none, [⟨3, 3, .ro, 0, none⟩, ⟨2, 2, .ro, 0, none⟩, ⟨1, 1, .ro, 0, none⟩, ⟨0, 0, .ro, 0, none⟩]⟩,
  ⟨"LT_ERR", 0x000F030C, 1, 0x0, 1, 0x0, .none, [⟨6, 6, .rws, 0, none⟩, ⟨5, 5, .rws, 0, none⟩, ⟨4, 4, .rws, 0, none⟩, ⟨3, 3, .rws, 0, none⟩, ⟨2, 2, .rws, 0, none⟩, ⟨1, 1, .rws, 0, none⟩, ⟨0, 0, .rws, 0, none⟩]⟩,
  ⟨"LT_LATECNT", 0x000F0310, 1, 0x0, 1, 0x0, .none, [⟨31, 0, .ro, 0, none⟩]⟩,
  ⟨"LT_EARLYCNT", 0x000F0314, 1, 0x0, 1, 0x0, .none, [⟨31, 0, .ro, 0, none⟩]⟩,
  ⟨"LT_CLIPCNT", 0x000F0318, 1, 0x0, 1, 0x0, .none, [⟨31, 0, .ro, 0, none⟩]⟩,
  ⟨"LT_PITCH", 0x000F0100, 8, 0x4, 1, 0x0, .geometry, [⟨31, 0, .rw, 65536, some (65536, 4294967295)⟩]⟩,
  ⟨"LT_POFF", 0x000F0120, 8, 0x4, 1, 0x0, .geometry, [⟨19, 0, .rw, 0, none⟩]⟩]

/-- The HP block's registers. -/
def regsHP : List RegSpec := [
  ⟨"HP_CLK", 0x00100000, 1, 0x0, 1, 0x0, .port, [⟨2, 0, .rw, 5, some (0, 6)⟩]⟩,
  ⟨"HP_LATW", 0x00100004, 1, 0x0, 1, 0x0, .port, [⟨8, 0, .rw, 100, some (20, 500)⟩]⟩,
  ⟨"HP_COMMITSTAT", 0x00100008, 1, 0x0, 1, 0x0, .none, [⟨8, 8, .ro, 0, none⟩, ⟨7, 0, .ro, 0, none⟩]⟩,
  ⟨"HP_ERR", 0x0010000C, 1, 0x0, 1, 0x0, .none, [⟨3, 3, .rws, 0, none⟩, ⟨2, 2, .rws, 0, none⟩, ⟨1, 1, .rws, 0, none⟩, ⟨0, 0, .rws, 0, none⟩]⟩,
  ⟨"HP_ECHOERRLO", 0x00100010, 1, 0x0, 1, 0x0, .none, [⟨31, 0, .rws, 0, none⟩]⟩,
  ⟨"HP_ECHOERRHI", 0x00100014, 1, 0x0, 1, 0x0, .none, [⟨31, 0, .rws, 0, none⟩]⟩,
  ⟨"HP_DSKCTRL", 0x00100018, 1, 0x0, 1, 0x0, .none, [⟨7, 7, .wo, 0, none⟩, ⟨6, 6, .rw, 0, none⟩, ⟨5, 0, .rw, 0, none⟩]⟩,
  ⟨"HP_DSKSTAT", 0x0010001C, 1, 0x0, 1, 0x0, .none, [⟨2, 2, .ro, 0, none⟩, ⟨1, 1, .ro, 0, none⟩, ⟨0, 0, .ro, 0, none⟩]⟩,
  ⟨"HP_DSKDONELO", 0x00100020, 1, 0x0, 1, 0x0, .none, [⟨31, 0, .ro, 0, none⟩]⟩,
  ⟨"HP_DSKDONEHI", 0x00100024, 1, 0x0, 1, 0x0, .none, [⟨31, 0, .ro, 0, none⟩]⟩,
  ⟨"HP_DSKPASSLO", 0x00100028, 1, 0x0, 1, 0x0, .none, [⟨31, 0, .ro, 0, none⟩]⟩,
  ⟨"HP_DSKPASSHI", 0x0010002C, 1, 0x0, 1, 0x0, .none, [⟨31, 0, .ro, 0, none⟩]⟩,
  ⟨"HP_PORTCFG", 0x00100040, 8, 0x4, 1, 0x0, .port, [⟨31, 8, .rw, 16434824, none⟩, ⟨1, 1, .rw, 0, none⟩, ⟨0, 0, .rw, 0, none⟩]⟩,
  ⟨"HP_SHIFT", 0x00100060, 8, 0x4, 1, 0x0, .none, [⟨19, 0, .ro, 0, none⟩]⟩,
  ⟨"HP_CYCLE", 0x00100080, 8, 0x4, 1, 0x0, .none, [⟨19, 0, .ro, 0, none⟩]⟩,
  ⟨"HP_STROBE", 0x00100300, 64, 0x4, 1, 0x0, .strobe, [⟨7, 0, .rw, 0, none⟩]⟩,
  ⟨"HP_ECHO", 0x00100400, 64, 0x4, 1, 0x0, .none, [⟨12, 12, .ro, 0, none⟩, ⟨11, 11, .rws, 0, none⟩, ⟨10, 10, .wo, 0, none⟩, ⟨9, 9, .rw, 1, none⟩, ⟨8, 8, .rw, 0, none⟩, ⟨7, 0, .rw, 0, none⟩]⟩,
  ⟨"HP_LCV", 0x00100500, 64, 0x4, 1, 0x0, .none, [⟨31, 0, .ro, 0, none⟩]⟩,
  ⟨"HP_ECHOCNT", 0x00100600, 64, 0x4, 1, 0x0, .none, [⟨31, 0, .ro, 0, none⟩]⟩,
  ⟨"HP_PSTAT", 0x00100700, 64, 0x4, 1, 0x0, .none, [⟨5, 5, .ro, 0, none⟩, ⟨4, 4, .ro, 0, none⟩, ⟨2, 0, .ro, 0, none⟩]⟩,
  ⟨"HP_PLANE", 0x00100100, 8, 0x4, 1, 0x0, .geometry, [⟨29, 28, .rw, 0, none⟩, ⟨27, 24, .rw, 8, some (1, 8)⟩, ⟨23, 20, .rw, 1, some (1, 8)⟩, ⟨14, 8, .rw, 0, some (0, 64)⟩, ⟨5, 0, .rw, 0, none⟩]⟩,
  ⟨"HP_STAGLO", 0x00100120, 8, 0x8, 1, 0x0, .geometry, [⟨30, 24, .rw, 0, none⟩, ⟨22, 16, .rw, 0, none⟩, ⟨14, 8, .rw, 0, none⟩, ⟨6, 0, .rw, 0, none⟩]⟩,
  ⟨"HP_STAGHI", 0x00100124, 8, 0x8, 1, 0x0, .geometry, [⟨30, 24, .rw, 0, none⟩, ⟨22, 16, .rw, 0, none⟩, ⟨14, 8, .rw, 0, none⟩, ⟨6, 0, .rw, 0, none⟩]⟩,
  ⟨"HP_PWID", 0x00100160, 8, 0x4, 1, 0x0, .none, [⟨18, 0, .ro, 0, none⟩]⟩,
  ⟨"HP_OVL", 0x00100200, 64, 0x4, 1, 0x0, .geometry, [⟨8, 0, .rw, 0, some (0, 256)⟩]⟩]

/-- The DD block's registers. -/
def regsDD : List RegSpec := [
  ⟨"DD_CTRL", 0x00110000, 1, 0x0, 1, 0x0, .none, [⟨11, 8, .rw, 0, none⟩, ⟨1, 1, .wo, 0, none⟩, ⟨0, 0, .wo, 0, none⟩]⟩,
  ⟨"DD_STATUS", 0x00110004, 1, 0x0, 1, 0x0, .none, [⟨2, 0, .ro, 0, none⟩]⟩,
  ⟨"DD_ERR", 0x00110008, 1, 0x0, 1, 0x0, .none, [⟨4, 4, .rws, 0, none⟩, ⟨3, 3, .rws, 0, none⟩, ⟨2, 2, .rws, 0, none⟩, ⟨1, 1, .rws, 0, none⟩, ⟨0, 0, .rws, 0, none⟩]⟩,
  ⟨"DD_PACER", 0x0011000C, 1, 0x0, 1, 0x0, .none, [⟨26, 24, .rw, 3, some (1, 7)⟩, ⟨19, 16, .rw, 4, some (1, 15)⟩, ⟨15, 0, .rw, 300, some (100, 65535)⟩]⟩,
  ⟨"DD_VERDICT", 0x00110010, 1, 0x0, 1, 0x0, .none, [⟨31, 16, .rw, 0, none⟩, ⟨7, 4, .rw, 2, none⟩, ⟨3, 0, .rw, 4, none⟩]⟩,
  ⟨"DD_FIELD", 0x00110014, 1, 0x0, 1, 0x0, .none, [⟨8, 0, .rw, 128, some (1, 256)⟩]⟩,
  ⟨"DD_SETTLE", 0x00110018, 1, 0x0, 1, 0x0, .none, [⟨15, 0, .rw, 10, none⟩]⟩,
  ⟨"DD_SCHED", 0x0011001C, 1, 0x0, 1, 0x0, .none, [⟨15, 0, .rw, 0, none⟩]⟩,
  ⟨"DD_PSREJ", 0x00110020, 1, 0x0, 1, 0x0, .none, [⟨31, 0, .ro, 0, none⟩]⟩,
  ⟨"DD_TESTED", 0x00110024, 1, 0x0, 1, 0x0, .none, [⟨31, 0, .ro, 0, none⟩]⟩,
  ⟨"DD_CHANGED", 0x00110028, 1, 0x0, 1, 0x0, .none, [⟨31, 0, .ro, 0, none⟩]⟩,
  ⟨"DD_GATECFG", 0x00110100, 4, 0x20, 1, 0x0, .none, [⟨19, 19, .rw, 0, none⟩, ⟨18, 16, .rw, 0, none⟩, ⟨14, 12, .rw, 0, none⟩, ⟨8, 8, .rw, 0, none⟩, ⟨7, 4, .rw, 2, some (1, 15)⟩, ⟨2, 0, .rw, 0, none⟩]⟩,
  ⟨"DD_WIN", 0x00110104, 4, 0x20, 1, 0x0, .none, [⟨31, 16, .rw, 260, some (1, 65535)⟩, ⟨15, 0, .rw, 150, none⟩]⟩,
  ⟨"DD_FIRST", 0x00110108, 4, 0x20, 1, 0x0, .none, [⟨17, 0, .rw, 0, none⟩]⟩,
  ⟨"DD_LAST", 0x0011010C, 4, 0x20, 1, 0x0, .none, [⟨17, 0, .rw, 262143, none⟩]⟩,
  ⟨"DD_ORIGIN", 0x00110110, 4, 0x20, 1, 0x0, .none, [⟨31, 0, .rw, 0, none⟩]⟩,
  ⟨"DD_SPC", 0x00110114, 4, 0x20, 1, 0x0, .none, [⟨31, 0, .rw, 0, none⟩]⟩,
  ⟨"DD_PROG", 0x00110118, 4, 0x20, 1, 0x0, .none, [⟨31, 31, .ro, 0, none⟩, ⟨17, 0, .ro, 0, none⟩]⟩,
  ⟨"DD_STRAY", 0x0011011C, 4, 0x20, 1, 0x0, .none, [⟨31, 0, .ro, 0, none⟩]⟩]

/-- The MOT block's registers. -/
def regsMOT : List RegSpec := [
  ⟨"MOT_AXCFG", 0x00120000, 8, 0x80, 1, 0x0, .none, [⟨23, 23, .rw, 0, none⟩, ⟨22, 22, .rw, 0, none⟩, ⟨21, 19, .rw, 0, none⟩, ⟨18, 18, .rw, 0, none⟩, ⟨17, 17, .rw, 0, none⟩, ⟨12, 8, .rw, 31, none⟩, ⟨4, 0, .rw, 31, none⟩]⟩,
  ⟨"MOT_CUR", 0x00120004, 8, 0x80, 1, 0x0, .none, [⟨31, 16, .rw, 0, none⟩, ⟨15, 0, .rw, 0, none⟩]⟩,
  ⟨"MOT_SENSE", 0x00120008, 8, 0x80, 1, 0x0, .none, [⟨31, 16, .rw, 1, none⟩, ⟨15, 0, .rw, 1, none⟩]⟩,
  ⟨"MOT_PWM", 0x0012000C, 8, 0x80, 1, 0x0, .none, [⟨8, 8, .rw, 0, none⟩, ⟨6, 0, .rw, 40, some (20, 100)⟩]⟩,
  ⟨"MOT_PI", 0x00120010, 8, 0x80, 1, 0x0, .none, [⟨31, 16, .rw, 64, none⟩, ⟨15, 0, .rw, 256, none⟩]⟩,
  ⟨"MOT_MOTOR", 0x00120014, 8, 0x80, 1, 0x0, .none, [⟨31, 16, .rw, 0, none⟩, ⟨15, 0, .rw, 0, none⟩]⟩,
  ⟨"MOT_VMAX", 0x00120018, 8, 0x80, 1, 0x0, .none, [⟨23, 0, .rw, 102400, some (1, 16777215)⟩]⟩,
  ⟨"MOT_AMAX", 0x0012001C, 8, 0x80, 1, 0x0, .none, [⟨31, 0, .rw, 10240000, some (1, 4294967295)⟩]⟩,
  ⟨"MOT_JMAX", 0x00120020, 8, 0x80, 1, 0x0, .none, [⟨31, 0, .rw, 10240000, some (1, 4294967295)⟩]⟩,
  ⟨"MOT_PROF", 0x00120024, 8, 0x80, 1, 0x0, .none, [⟨0, 0, .rw, 1, none⟩]⟩,
  ⟨"MOT_STALL", 0x00120028, 8, 0x80, 1, 0x0, .none, [⟨31, 24, .rw, 8, some (1, 255)⟩, ⟨23, 16, .rw, 4, some (1, 64)⟩, ⟨8, 0, .rw, 0, none⟩]⟩,
  ⟨"MOT_STALLV", 0x0012002C, 8, 0x80, 1, 0x0, .none, [⟨23, 0, .rw, 51200, none⟩]⟩,
  ⟨"MOT_HOME", 0x00120030, 8, 0x80, 1, 0x0, .none, [⟨31, 16, .rw, 0, none⟩, ⟨1, 1, .rw, 0, none⟩, ⟨0, 0, .rw, 0, none⟩]⟩,
  ⟨"MOT_HOMEV", 0x00120034, 8, 0x80, 1, 0x0, .none, [⟨23, 0, .rw, 51200, none⟩]⟩,
  ⟨"MOT_HOMER", 0x00120038, 8, 0x80, 1, 0x0, .none, [⟨31, 0, .rw, 4294967295, none⟩]⟩,
  ⟨"MOT_HOMEB", 0x0012003C, 8, 0x80, 1, 0x0, .none, [⟨15, 0, .rw, 256, none⟩]⟩,
  ⟨"MOT_HOMEP", 0x00120040, 8, 0x80, 1, 0x0, .none, [⟨31, 0, .rw, 0, none⟩]⟩,
  ⟨"MOT_LIFTP", 0x00120044, 8, 0x80, 1, 0x0, .none, [⟨31, 0, .rw, 0, none⟩]⟩,
  ⟨"MOT_LIFTS", 0x00120048, 8, 0x80, 1, 0x0, .none, [⟨31, 0, .rw, 0, none⟩]⟩,
  ⟨"MOT_STAND", 0x0012004C, 8, 0x80, 1, 0x0, .none, [⟨17, 16, .rw, 0, some (0, 2)⟩, ⟨15, 0, .rw, 500, none⟩]⟩,
  ⟨"MOT_TGT", 0x00120050, 8, 0x80, 1, 0x0, .none, [⟨31, 0, .rw, 0, none⟩]⟩,
  ⟨"MOT_CMD", 0x00120054, 8, 0x80, 1, 0x0, .none, [⟨2, 0, .wo, 0, none⟩]⟩,
  ⟨"MOT_POS", 0x00120058, 8, 0x80, 1, 0x0, .none, [⟨31, 0, .ro, 0, none⟩]⟩,
  ⟨"MOT_VEL", 0x0012005C, 8, 0x80, 1, 0x0, .none, [⟨31, 0, .ro, 0, none⟩]⟩,
  ⟨"MOT_LOAD", 0x00120060, 8, 0x80, 1, 0x0, .none, [⟨15, 0, .ro, 0, none⟩]⟩,
  ⟨"MOT_STAT", 0x00120064, 8, 0x80, 1, 0x0, .none, [⟨9, 9, .ro, 0, none⟩, ⟨8, 8, .ro, 0, none⟩, ⟨7, 7, .rws, 0, none⟩, ⟨6, 6, .rws, 0, none⟩, ⟨5, 5, .rws, 0, none⟩, ⟨2, 0, .ro, 0, none⟩]⟩,
  ⟨"MOT_LIMPOL", 0x00120400, 1, 0x0, 1, 0x0, .none, [⟨15, 0, .rw, 0, none⟩]⟩,
  ⟨"MOT_LIMFILT", 0x00120404, 1, 0x0, 1, 0x0, .none, [⟨7, 0, .rw, 10, none⟩]⟩,
  ⟨"MOT_LIMSTAT", 0x00120408, 1, 0x0, 1, 0x0, .none, [⟨15, 0, .ro, 0, none⟩]⟩,
  ⟨"MOT_ERR", 0x0012040C, 1, 0x0, 1, 0x0, .none, [⟨7, 7, .rws, 0, none⟩, ⟨6, 6, .rws, 0, none⟩, ⟨5, 5, .rws, 0, none⟩, ⟨4, 4, .rws, 0, none⟩, ⟨3, 3, .rws, 0, none⟩, ⟨2, 2, .rws, 0, none⟩, ⟨1, 1, .rws, 0, none⟩, ⟨0, 0, .rws, 0, none⟩]⟩,
  ⟨"MOT_USTEP", 0x00121000, 8, 0x200, 128, 0x4, .none, [⟨27, 16, .rw, 0, none⟩, ⟨11, 0, .rw, 0, none⟩]⟩]

/-- The CAL block's registers. -/
def regsCAL : List RegSpec := [
  ⟨"CAL_ADCCTRL", 0x00130000, 1, 0x0, 1, 0x0, .none, [⟨8, 8, .wo, 0, none⟩, ⟨7, 0, .rw, 0, none⟩]⟩,
  ⟨"CAL_ADCSTAT", 0x00130004, 1, 0x0, 1, 0x0, .none, [⟨2, 2, .ro, 0, none⟩, ⟨1, 1, .ro, 0, none⟩, ⟨0, 0, .ro, 0, none⟩]⟩,
  ⟨"CAL_ADCDONE", 0x00130008, 1, 0x0, 1, 0x0, .none, [⟨7, 0, .ro, 0, none⟩]⟩,
  ⟨"CAL_ADCPASS", 0x0013000C, 1, 0x0, 1, 0x0, .none, [⟨7, 0, .ro, 0, none⟩]⟩]

/-- The JNL block's registers. -/
def regsJNL : List RegSpec := [
  ⟨"JNL_STATUS", 0x00140000, 1, 0x0, 1, 0x0, .none, [⟨15, 8, .ro, 0, none⟩, ⟨1, 1, .ro, 0, none⟩, ⟨0, 0, .ro, 0, none⟩]⟩,
  ⟨"JNL_CTRL", 0x00140004, 1, 0x0, 1, 0x0, .none, [⟨4, 4, .wo, 0, none⟩, ⟨3, 3, .wo, 0, none⟩, ⟨2, 2, .wo, 0, none⟩, ⟨1, 1, .wo, 0, none⟩, ⟨0, 0, .wo, 0, none⟩]⟩,
  ⟨"JNL_FCPER", 0x00140008, 1, 0x0, 1, 0x0, .none, [⟨10, 0, .rw, 60, some (10, 1440)⟩]⟩,
  ⟨"JNL_RDAREA", 0x00140010, 1, 0x0, 1, 0x0, .none, [⟨2, 0, .rw, 0, none⟩]⟩,
  ⟨"JNL_RDOFF", 0x00140014, 1, 0x0, 1, 0x0, .none, [⟨19, 2, .rw, 0, none⟩]⟩,
  ⟨"JNL_RDDATA", 0x00140018, 1, 0x0, 1, 0x0, .none, [⟨31, 0, .ro, 0, none⟩]⟩,
  ⟨"JNL_RDSIZE", 0x0014001C, 1, 0x0, 1, 0x0, .none, [⟨19, 0, .ro, 0, none⟩]⟩,
  ⟨"JNL_MAXWR", 0x00140020, 1, 0x0, 1, 0x0, .none, [⟨31, 0, .ro, 0, none⟩]⟩,
  ⟨"JNL_SPARES", 0x00140024, 1, 0x0, 1, 0x0, .none, [⟨7, 0, .ro, 204, none⟩]⟩,
  ⟨"JNL_ERR", 0x00140028, 1, 0x0, 1, 0x0, .none, [⟨2, 2, .rws, 0, none⟩, ⟨1, 1, .rws, 0, none⟩, ⟨0, 0, .rws, 0, none⟩]⟩]

/-- The TEL block's registers. -/
def regsTEL : List RegSpec := [
  ⟨"TEL_QSTAT", 0x00150800, 1, 0x0, 1, 0x0, .none, [⟨31, 16, .ro, 0, none⟩, ⟨7, 7, .rws, 0, none⟩, ⟨5, 0, .ro, 0, none⟩]⟩,
  ⟨"TEL_QDATA", 0x00150840, 8, 0x4, 1, 0x0, .none, [⟨31, 0, .ro, 0, none⟩]⟩,
  ⟨"TEL_TJ", 0x00150000, 1, 0x0, 1, 0x0, .none, [⟨15, 0, .ro, 0, none⟩]⟩,
  ⟨"TEL_QCFG", 0x00150004, 1, 0x0, 1, 0x0, .none, [⟨20, 16, .rw, 31, none⟩, ⟨15, 0, .rw, 100, none⟩]⟩,
  ⟨"TEL_PUSHSEL", 0x00150008, 1, 0x0, 1, 0x0, .none, [⟨4, 0, .rw, 31, none⟩]⟩,
  ⟨"TEL_FCIDX", 0x00150010, 1, 0x0, 1, 0x0, .none, [⟨17, 0, .rw, 0, none⟩]⟩,
  ⟨"TEL_FCLO", 0x00150014, 1, 0x0, 1, 0x0, .none, [⟨31, 0, .ro, 0, none⟩]⟩,
  ⟨"TEL_FCHI", 0x00150018, 1, 0x0, 1, 0x0, .none, [⟨15, 0, .ro, 0, none⟩]⟩]

/-- The register tables in block order (Table 3). -/
def blockRegs : List (List RegSpec) := [
  regsGLB, regsCFG, regsTRB, regsPWR, regsNET, regsLANE, regsTIME, regsPAIR, regsMEM, regsDMA, regsCRC, regsJOB, regsDEC, regsRAS, regsHT, regsLT, regsHP, regsDD, regsMOT, regsCAL, regsJNL, regsTEL]

end Sys2Proof.Machine
end

