-- ==== Sys2Proof/Machine/RegNames.lean ====
section
/-!
DEFINITION. The names of the register window: `Adr.<register>` (a window address) and `Fld.<register>.<field>` (the
bits of a field), with the manual's own names; an index argument is the plane, port, channel or word of the name.
-/
namespace Sys2Proof.Machine

def Adr.JOB_CTRL : Nat := 0x000B0000
def Adr.JOB_HEADLO : Nat := 0x000B0004
def Adr.JOB_HEADHI : Nat := 0x000B0008
def Adr.JOB_DOORBELL : Nat := 0x000B000C
def Adr.JOB_LOOKAHEAD : Nat := 0x000B0010
def Adr.JOB_STATUS : Nat := 0x000B0014
def Adr.JOB_TAILLO : Nat := 0x000B0018
def Adr.JOB_TAILHI : Nat := 0x000B001C
def Adr.JOB_CURPAGE : Nat := 0x000B0020
def Adr.JOB_RETPAGE : Nat := 0x000B0024
def Adr.JOB_RETGEN : Nat := 0x000B0028
def Adr.JOB_RETSTAT : Nat := 0x000B002C
def Adr.JOB_LIMITLO : Nat := 0x000B0030
def Adr.JOB_LIMITHI : Nat := 0x000B0034
def Adr.JOB_PAGECNT : Nat := 0x000B0038
def Adr.JOB_FLAGCNT : Nat := 0x000B003C
def Adr.JOB_MISSCNT : Nat := 0x000B0040
def Adr.JOB_BELLCNT : Nat := 0x000B0044
def Adr.JOB_ERR : Nat := 0x000B0048
def Adr.NET_OJPPORT : Nat := 0x00040400
def Adr.NET_OJPCTRL : Nat := 0x00040404
def Adr.NET_OJPIDLE : Nat := 0x00040408
def Adr.NET_OJPRTO : Nat := 0x0004040C
def Adr.NET_OJPSESS : Nat := 0x00040410
def Adr.NET_OJPDROP : Nat := 0x00040414
def Adr.NET_OJPDUP : Nat := 0x00040418
def Adr.NET_OJPAUTHF : Nat := 0x0004041C
def Adr.NET_OJPRETX : Nat := 0x00040420
def Adr.NET_OJPNLOST : Nat := 0x00040424
def Adr.NET_OJPERR : Nat := 0x00040428
def Adr.DEC_PLANPER : Nat := 0x000C0000
def Adr.DEC_MEMBUDGET : Nat := 0x000C0004
def Adr.DEC_POOL : Nat := 0x000C0008
def Adr.DEC_POOLUSED : Nat := 0x000C000C
def Adr.DEC_LIMITPER : Nat := 0x000C0010
def Adr.DEC_STATUS : Nat := 0x000C0014
def Adr.DEC_EXPCNT : Nat := 0x000C0018
def Adr.DEC_SYMXCNT : Nat := 0x000C001C
def Adr.DEC_CMPCTRL : Nat := 0x000C0020
def Adr.DEC_RECUSED : Nat := 0x000C0024
def Adr.DEC_ERR : Nat := 0x000C0028
def Adr.RAS_SCALE (n : Nat) : Nat := 0x000D0000 + 0x4 * n
def Adr.RAS_REG (n : Nat) : Nat := 0x000D0020 + 0x4 * n
def Adr.RAS_STCTRL (n : Nat) : Nat := 0x000D0040 + 0x4 * n
def Adr.RAS_COMMITSTAT : Nat := 0x000D0060
def Adr.RAS_ERR : Nat := 0x000D0064
def Adr.RAS_PEEKIDX : Nat := 0x000D0068
def Adr.RAS_PEEKVAL : Nat := 0x000D006C
def Adr.RAS_MASK (n w : Nat) : Nat := 0x000D3000 + 0x100 * n + 0x4 * w
def Adr.RAS_CURVE (p w : Nat) : Nat := 0x000D4000 + 0x100 * p + 0x4 * w
def Adr.RAS_STWT (p w : Nat) : Nat := 0x000D8000 + 0x200 * p + 0x4 * w
def Adr.HT_CTRL (n : Nat) : Nat := 0x000E0000 + 0x4 * n
def Adr.HT_CODE (n : Nat) : Nat := 0x000E0020 + 0x4 * n
def Adr.HT_HIDE (n : Nat) : Nat := 0x000E0040 + 0x4 * n
def Adr.HT_HGAIN (n : Nat) : Nat := 0x000E0060 + 0x4 * n
def Adr.HT_DIFF (n : Nat) : Nat := 0x000E0080 + 0x4 * n
def Adr.HT_LOFF (n w : Nat) : Nat := 0x000E0100 + 0x10 * n + 0x4 * w
def Adr.HT_COMMITSTAT : Nat := 0x000E0200
def Adr.HT_STATEPEND : Nat := 0x000E0204
def Adr.HT_ERR : Nat := 0x000E0208
def Adr.HT_BAD (n : Nat) : Nat := 0x000E0220 + 0x4 * n
def Adr.HT_UNCOV (n : Nat) : Nat := 0x000E0240 + 0x4 * n
def Adr.HT_DROP (p w : Nat) : Nat := 0x000E1000 + 0x10 * p + 0x4 * w
def Adr.LT_CHCFG (c : Nat) : Nat := 0x000F0000 + 0x40 * c
def Adr.LT_CHCTRL (c : Nat) : Nat := 0x000F0004 + 0x40 * c
def Adr.LT_POSLO (c : Nat) : Nat := 0x000F0008 + 0x40 * c
def Adr.LT_POSHI (c : Nat) : Nat := 0x000F000C + 0x40 * c
def Adr.LT_HWMLO (c : Nat) : Nat := 0x000F0010 + 0x40 * c
def Adr.LT_HWMHI (c : Nat) : Nat := 0x000F0014 + 0x40 * c
def Adr.LT_IDXLO (c : Nat) : Nat := 0x000F0018 + 0x40 * c
def Adr.LT_IDXHI (c : Nat) : Nat := 0x000F001C + 0x40 * c
def Adr.LT_CPR (c : Nat) : Nat := 0x000F0020 + 0x40 * c
def Adr.LT_DT (c : Nat) : Nat := 0x000F0024 + 0x40 * c
def Adr.LT_SPDCFG (c : Nat) : Nat := 0x000F0028 + 0x40 * c
def Adr.LT_STILL (c : Nat) : Nat := 0x000F002C + 0x40 * c
def Adr.LT_SPEED (c : Nat) : Nat := 0x000F0030 + 0x40 * c
def Adr.LT_SSI (c : Nat) : Nat := 0x000F0034 + 0x40 * c
def Adr.LT_SSIPOLL (c : Nat) : Nat := 0x000F0038 + 0x40 * c
def Adr.LT_CHSTAT (c : Nat) : Nat := 0x000F003C + 0x40 * c
def Adr.LT_MINPER (n : Nat) : Nat := 0x000F0140 + 0x4 * n
def Adr.LT_PSTATE (n : Nat) : Nat := 0x000F0160 + 0x4 * n
def Adr.LT_IVAL (n : Nat) : Nat := 0x000F0180 + 0x4 * n
def Adr.LT_RESUME (n : Nat) : Nat := 0x000F01A0 + 0x4 * n
def Adr.LT_NEXT (n : Nat) : Nat := 0x000F01C0 + 0x4 * n
def Adr.LT_BACKUP (c : Nat) : Nat := 0x000F0200 + 0x4 * c
def Adr.LT_DTCNT (c : Nat) : Nat := 0x000F0210 + 0x4 * c
def Adr.LT_BTGTLO (c : Nat) : Nat := 0x000F0220 + 0x8 * c
def Adr.LT_BTGTHI (c : Nat) : Nat := 0x000F0224 + 0x8 * c
def Adr.LT_POSSETLO (c : Nat) : Nat := 0x000F0240 + 0x8 * c
def Adr.LT_POSSETHI (c : Nat) : Nat := 0x000F0244 + 0x8 * c
def Adr.LT_IDXDIST (c : Nat) : Nat := 0x000F0260 + 0x4 * c
def Adr.LT_PRBCFG (k : Nat) : Nat := 0x000F0280 + 0x20 * k
def Adr.LT_PRBOFF (k : Nat) : Nat := 0x000F0284 + 0x20 * k
def Adr.LT_PRBGAP (k : Nat) : Nat := 0x000F0288 + 0x20 * k
def Adr.LT_PRBLATLO (k : Nat) : Nat := 0x000F028C + 0x20 * k
def Adr.LT_PRBLATHI (k : Nat) : Nat := 0x000F0290 + 0x20 * k
def Adr.LT_PRBCNT (k : Nat) : Nat := 0x000F0294 + 0x20 * k
def Adr.LT_PRBREJ (k : Nat) : Nat := 0x000F0298 + 0x20 * k
def Adr.LT_DLCTRL : Nat := 0x000F0300
def Adr.LT_WARN : Nat := 0x000F0304
def Adr.LT_STATUS : Nat := 0x000F0308
def Adr.LT_ERR : Nat := 0x000F030C
def Adr.LT_LATECNT : Nat := 0x000F0310
def Adr.LT_EARLYCNT : Nat := 0x000F0314
def Adr.LT_CLIPCNT : Nat := 0x000F0318
def Adr.HP_CLK : Nat := 0x00100000
def Adr.HP_LATW : Nat := 0x00100004
def Adr.HP_COMMITSTAT : Nat := 0x00100008
def Adr.HP_ERR : Nat := 0x0010000C
def Adr.HP_ECHOERRLO : Nat := 0x00100010
def Adr.HP_ECHOERRHI : Nat := 0x00100014
def Adr.HP_DSKCTRL : Nat := 0x00100018
def Adr.HP_DSKSTAT : Nat := 0x0010001C
def Adr.HP_DSKDONELO : Nat := 0x00100020
def Adr.HP_DSKDONEHI : Nat := 0x00100024
def Adr.HP_DSKPASSLO : Nat := 0x00100028
def Adr.HP_DSKPASSHI : Nat := 0x0010002C
def Adr.HP_PORTCFG (n : Nat) : Nat := 0x00100040 + 0x4 * n
def Adr.HP_SHIFT (n : Nat) : Nat := 0x00100060 + 0x4 * n
def Adr.HP_CYCLE (n : Nat) : Nat := 0x00100080 + 0x4 * n
def Adr.HP_STROBE (p : Nat) : Nat := 0x00100300 + 0x4 * p
def Adr.HP_ECHO (p : Nat) : Nat := 0x00100400 + 0x4 * p
def Adr.HP_LCV (p : Nat) : Nat := 0x00100500 + 0x4 * p
def Adr.HP_ECHOCNT (p : Nat) : Nat := 0x00100600 + 0x4 * p
def Adr.HP_PSTAT (p : Nat) : Nat := 0x00100700 + 0x4 * p
def Adr.DD_CTRL : Nat := 0x00110000
def Adr.DD_STATUS : Nat := 0x00110004
def Adr.DD_ERR : Nat := 0x00110008
def Adr.DD_PACER : Nat := 0x0011000C
def Adr.DD_VERDICT : Nat := 0x00110010
def Adr.DD_FIELD : Nat := 0x00110014
def Adr.DD_SETTLE : Nat := 0x00110018
def Adr.DD_SCHED : Nat := 0x0011001C
def Adr.DD_PSREJ : Nat := 0x00110020
def Adr.DD_TESTED : Nat := 0x00110024
def Adr.DD_CHANGED : Nat := 0x00110028
def Adr.DD_GATECFG (g : Nat) : Nat := 0x00110100 + 0x20 * g
def Adr.DD_WIN (g : Nat) : Nat := 0x00110104 + 0x20 * g
def Adr.DD_FIRST (g : Nat) : Nat := 0x00110108 + 0x20 * g
def Adr.DD_LAST (g : Nat) : Nat := 0x0011010C + 0x20 * g
def Adr.DD_ORIGIN (g : Nat) : Nat := 0x00110110 + 0x20 * g
def Adr.DD_SPC (g : Nat) : Nat := 0x00110114 + 0x20 * g
def Adr.DD_PROG (g : Nat) : Nat := 0x00110118 + 0x20 * g
def Adr.DD_STRAY (g : Nat) : Nat := 0x0011011C + 0x20 * g
def Adr.MOT_AXCFG (a : Nat) : Nat := 0x00120000 + 0x80 * a
def Adr.MOT_CUR (a : Nat) : Nat := 0x00120004 + 0x80 * a
def Adr.MOT_SENSE (a : Nat) : Nat := 0x00120008 + 0x80 * a
def Adr.MOT_PWM (a : Nat) : Nat := 0x0012000C + 0x80 * a
def Adr.MOT_PI (a : Nat) : Nat := 0x00120010 + 0x80 * a
def Adr.MOT_MOTOR (a : Nat) : Nat := 0x00120014 + 0x80 * a
def Adr.MOT_VMAX (a : Nat) : Nat := 0x00120018 + 0x80 * a
def Adr.MOT_AMAX (a : Nat) : Nat := 0x0012001C + 0x80 * a
def Adr.MOT_JMAX (a : Nat) : Nat := 0x00120020 + 0x80 * a
def Adr.MOT_PROF (a : Nat) : Nat := 0x00120024 + 0x80 * a
def Adr.MOT_STALL (a : Nat) : Nat := 0x00120028 + 0x80 * a
def Adr.MOT_STALLV (a : Nat) : Nat := 0x0012002C + 0x80 * a
def Adr.MOT_HOME (a : Nat) : Nat := 0x00120030 + 0x80 * a
def Adr.MOT_HOMEV (a : Nat) : Nat := 0x00120034 + 0x80 * a
def Adr.MOT_HOMER (a : Nat) : Nat := 0x00120038 + 0x80 * a
def Adr.MOT_HOMEB (a : Nat) : Nat := 0x0012003C + 0x80 * a
def Adr.MOT_HOMEP (a : Nat) : Nat := 0x00120040 + 0x80 * a
def Adr.MOT_LIFTP (a : Nat) : Nat := 0x00120044 + 0x80 * a
def Adr.MOT_LIFTS (a : Nat) : Nat := 0x00120048 + 0x80 * a
def Adr.MOT_STAND (a : Nat) : Nat := 0x0012004C + 0x80 * a
def Adr.MOT_TGT (a : Nat) : Nat := 0x00120050 + 0x80 * a
def Adr.MOT_CMD (a : Nat) : Nat := 0x00120054 + 0x80 * a
def Adr.MOT_POS (a : Nat) : Nat := 0x00120058 + 0x80 * a
def Adr.MOT_VEL (a : Nat) : Nat := 0x0012005C + 0x80 * a
def Adr.MOT_LOAD (a : Nat) : Nat := 0x00120060 + 0x80 * a
def Adr.MOT_STAT (a : Nat) : Nat := 0x00120064 + 0x80 * a
def Adr.MOT_LIMPOL : Nat := 0x00120400
def Adr.MOT_LIMFILT : Nat := 0x00120404
def Adr.MOT_LIMSTAT : Nat := 0x00120408
def Adr.MOT_ERR : Nat := 0x0012040C
def Adr.MOT_USTEP (a w : Nat) : Nat := 0x00121000 + 0x200 * a + 0x4 * w
def Adr.CAL_ADCCTRL : Nat := 0x00130000
def Adr.CAL_ADCSTAT : Nat := 0x00130004
def Adr.CAL_ADCDONE : Nat := 0x00130008
def Adr.CAL_ADCPASS : Nat := 0x0013000C
def Adr.PAIR_CFG : Nat := 0x00070000
def Adr.PAIR_CTRL : Nat := 0x00070004
def Adr.PAIR_STATUS : Nat := 0x00070008
def Adr.PAIR_READY : Nat := 0x0007000C
def Adr.PAIR_RALLY : Nat := 0x00070010
def Adr.PAIR_SUSPECT : Nat := 0x00070014
def Adr.PAIR_RESYNC : Nat := 0x00070018
def Adr.PAIR_SYNCPROG : Nat := 0x0007001C
def Adr.PAIR_TIMEOFF : Nat := 0x00070020
def Adr.PAIR_MISFIRST : Nat := 0x00070024
def Adr.PAIR_MISLAST : Nat := 0x00070028
def Adr.PAIR_MISCNT : Nat := 0x0007002C
def Adr.PAIR_MISSCNT : Nat := 0x00070030
def Adr.PAIR_HOCNT : Nat := 0x00070034
def Adr.PAIR_HBMISS : Nat := 0x00070038
def Adr.PAIR_RPROK : Nat := 0x0007003C
def Adr.PAIR_RPRFAIL : Nat := 0x00070040
def Adr.PAIR_MIRPEND : Nat := 0x00070044
def Adr.PAIR_ERR : Nat := 0x00070048
def Adr.NET_PCTRL (p : Nat) : Nat := 0x00040000 + 0x40 * p
def Adr.NET_PSTAT (p : Nat) : Nat := 0x00040004 + 0x40 * p
def Adr.NET_RXFRM (p : Nat) : Nat := 0x00040008 + 0x40 * p
def Adr.NET_TXFRM (p : Nat) : Nat := 0x0004000C + 0x40 * p
def Adr.NET_FCSERR (p : Nat) : Nat := 0x00040010 + 0x40 * p
def Adr.NET_PAUSE (p : Nat) : Nat := 0x00040014 + 0x40 * p
def Adr.NET_RXDROP (p : Nat) : Nat := 0x00040018 + 0x40 * p
def Adr.NET_MACLO : Nat := 0x00040200
def Adr.NET_MACHI : Nat := 0x00040204
def Adr.NET_PMACLO : Nat := 0x00040208
def Adr.NET_PMACHI : Nat := 0x0004020C
def Adr.NET_IP4 : Nat := 0x00040210
def Adr.NET_PIP4 : Nat := 0x00040214
def Adr.NET_IP6 (w : Nat) : Nat := 0x00040220 + 0x4 * w
def Adr.NET_PIP6 (w : Nat) : Nat := 0x00040230 + 0x4 * w
def Adr.LANE_CTRL (l : Nat) : Nat := 0x00050000 + 0x40 * l
def Adr.LANE_TX (l : Nat) : Nat := 0x00050004 + 0x40 * l
def Adr.LANE_STAT (l : Nat) : Nat := 0x00050008 + 0x40 * l
def Adr.LANE_ERRCNT (l : Nat) : Nat := 0x0005000C + 0x40 * l
def Adr.LANE_FOM : Nat := 0x00050400
def Adr.LANE_BUDGET : Nat := 0x00050404
def Adr.LANE_ERR : Nat := 0x00050408
def Adr.LANE_REPLAYCNT : Nat := 0x0005040C
def Adr.TIME_SECLO : Nat := 0x00060000
def Adr.TIME_SECHI : Nat := 0x00060004
def Adr.TIME_NS : Nat := 0x00060008
def Adr.TIME_FRAC : Nat := 0x0006000C
def Adr.TIME_INCRLO : Nat := 0x00060010
def Adr.TIME_INCRHI : Nat := 0x00060014
def Adr.TIME_STEPNS : Nat := 0x00060018
def Adr.TIME_STEPSEC : Nat := 0x0006001C
def Adr.TIME_PTPCTRL : Nat := 0x00060020
def Adr.TIME_PTPSTAT : Nat := 0x00060024
def Adr.TIME_OFFSET : Nat := 0x00060028
def Adr.TIME_PATHDLY : Nat := 0x0006002C
def Adr.TIME_STEPCNT : Nat := 0x00060030
def Adr.TIME_ERR : Nat := 0x00060034
def Adr.TIME_EXSEQ : Nat := 0x0006003C
def Adr.TIME_EXS (k : Nat) : Nat := 0x00060040 + 0x10 * k
def Adr.TIME_EXN (k : Nat) : Nat := 0x00060044 + 0x10 * k
def Adr.TIME_EXF (k : Nat) : Nat := 0x00060048 + 0x10 * k
def Adr.TIME_TOCTRL (k : Nat) : Nat := 0x00060100 + 0x20 * k
def Adr.TIME_TOSECLO (k : Nat) : Nat := 0x00060104 + 0x20 * k
def Adr.TIME_TOSECHI (k : Nat) : Nat := 0x00060108 + 0x20 * k
def Adr.TIME_TONS (k : Nat) : Nat := 0x0006010C + 0x20 * k
def Adr.TIME_TOPER (k : Nat) : Nat := 0x00060110 + 0x20 * k
def Adr.TIME_TOWID (k : Nat) : Nat := 0x00060114 + 0x20 * k
def Adr.MEM_CTRL : Nat := 0x00080000
def Adr.MEM_CFG : Nat := 0x00080004
def Adr.MEM_SIZE : Nat := 0x00080008
def Adr.MEM_STATUS : Nat := 0x0008000C
def Adr.MEM_KWMLO : Nat := 0x00080010
def Adr.MEM_KWMHI : Nat := 0x00080014
def Adr.MEM_SWEEP : Nat := 0x00080018
def Adr.MEM_SWPROG : Nat := 0x0008001C
def Adr.MEM_SWPASS : Nat := 0x00080020
def Adr.MEM_SRAMPASS : Nat := 0x00080024
def Adr.MEM_CAPCNT : Nat := 0x00080028
def Adr.MEM_ERR : Nat := 0x0008002C
def Adr.MEM_LASTLO : Nat := 0x00080030
def Adr.MEM_LASTHI : Nat := 0x00080034
def Adr.MEM_CECNT (c : Nat) : Nat := 0x00080040 + 0x4 * c
def Adr.MEM_UECNT (c : Nat) : Nat := 0x00080050 + 0x4 * c
def Adr.MEM_TEMP (c : Nat) : Nat := 0x00080060 + 0x4 * c
def Adr.MEM_SRAMCE : Nat := 0x00080070
def Adr.MEM_SRAMUE : Nat := 0x00080074
def Adr.MEM_RMPOL : Nat := 0x00080080
def Adr.MEM_RMREQ : Nat := 0x00080084
def Adr.MEM_RMCTRL : Nat := 0x00080088
def Adr.MEM_RMCNT : Nat := 0x0008008C
def Adr.MEM_REMAP (i : Nat) : Nat := 0x00080100 + 0x4 * i
def Adr.DMA_CHCTRL (c : Nat) : Nat := 0x00090000 + 0x40 * c
def Adr.DMA_CHBASELO (c : Nat) : Nat := 0x00090004 + 0x40 * c
def Adr.DMA_CHBASEHI (c : Nat) : Nat := 0x00090008 + 0x40 * c
def Adr.DMA_CHSIZE (c : Nat) : Nat := 0x0009000C + 0x40 * c
def Adr.DMA_CHPROD (c : Nat) : Nat := 0x00090010 + 0x40 * c
def Adr.DMA_CHCONS (c : Nat) : Nat := 0x00090014 + 0x40 * c
def Adr.DMA_CHSTAT (c : Nat) : Nat := 0x00090018 + 0x40 * c
def Adr.DMA_CHBYTES (c : Nat) : Nat := 0x0009001C + 0x40 * c
def Adr.DMA_CQBASELO : Nat := 0x00090400
def Adr.DMA_CQBASEHI : Nat := 0x00090404
def Adr.DMA_CQSIZE : Nat := 0x00090408
def Adr.DMA_CQPROD : Nat := 0x0009040C
def Adr.DMA_CQCONS : Nat := 0x00090410
def Adr.DMA_RATE : Nat := 0x00090414
def Adr.DMA_ERR : Nat := 0x00090418
def Adr.DMA_TIMER (t : Nat) : Nat := 0x00090440 + 0x4 * t
def Adr.CRC_CTRL (u : Nat) : Nat := 0x000A0000 + 0x40 * u
def Adr.CRC_EXPLO (u : Nat) : Nat := 0x000A0004 + 0x40 * u
def Adr.CRC_EXPHI (u : Nat) : Nat := 0x000A0008 + 0x40 * u
def Adr.CRC_RESLO (u : Nat) : Nat := 0x000A000C + 0x40 * u
def Adr.CRC_RESHI (u : Nat) : Nat := 0x000A0010 + 0x40 * u
def Adr.CRC_LENLO (u : Nat) : Nat := 0x000A0014 + 0x40 * u
def Adr.CRC_LENHI (u : Nat) : Nat := 0x000A0018 + 0x40 * u
def Adr.CRC_STAT (u : Nat) : Nat := 0x000A001C + 0x40 * u
def Adr.CRC_ERR : Nat := 0x000A0100
def Adr.TRB_NQCFG (q : Nat) : Nat := 0x00020800 + 0x80 * q
def Adr.TRB_NQSTAT (q : Nat) : Nat := 0x00020804 + 0x80 * q
def Adr.TRB_NQDATA (q w : Nat) : Nat := 0x00020840 + 0x80 * q + 0x4 * w
def Adr.TEL_QSTAT : Nat := 0x00150800
def Adr.TEL_QDATA (w : Nat) : Nat := 0x00150840 + 0x4 * w
def Adr.CFG_BOOTSTAT : Nat := 0x00010000
def Adr.CFG_FWVER : Nat := 0x00010004
def Adr.CFG_IMAGEGEN : Nat := 0x00010008
def Adr.CFG_CONFIGID : Nat := 0x0001000C
def Adr.CFG_DIEIDLO : Nat := 0x00010010
def Adr.CFG_DIEIDHI : Nat := 0x00010014
def Adr.CFG_COMMIT : Nat := 0x00010020
def Adr.CFG_COMMITSTAT : Nat := 0x00010024
def Adr.CFG_CLAMPCNT : Nat := 0x00010030
def Adr.CFG_CLAMPCTRL : Nat := 0x00010034
def Adr.CFG_CLAMPIDX : Nat := 0x00010038
def Adr.CFG_CLAMPDATA (w : Nat) : Nat := 0x00010040 + 0x4 * w
def Adr.CFG_STOKER : Nat := 0x00010050
def Adr.CFG_STKRST : Nat := 0x00010054
def Adr.CFG_ERR : Nat := 0x00010058
def Adr.JNL_STATUS : Nat := 0x00140000
def Adr.JNL_CTRL : Nat := 0x00140004
def Adr.JNL_FCPER : Nat := 0x00140008
def Adr.JNL_RDAREA : Nat := 0x00140010
def Adr.JNL_RDOFF : Nat := 0x00140014
def Adr.JNL_RDDATA : Nat := 0x00140018
def Adr.JNL_RDSIZE : Nat := 0x0014001C
def Adr.JNL_MAXWR : Nat := 0x00140020
def Adr.JNL_SPARES : Nat := 0x00140024
def Adr.JNL_ERR : Nat := 0x00140028
def Adr.PWR_REQ : Nat := 0x00030000
def Adr.PWR_STATE : Nat := 0x00030004
def Adr.PWR_PEND : Nat := 0x00030008
def Adr.PWR_LASTWAKE : Nat := 0x0003000C
def Adr.PWR_REFUSED : Nat := 0x00030010
def Adr.PWR_WAKECNT : Nat := 0x00030014
def Adr.PWR_ERR : Nat := 0x00030018
def Adr.GLB_ID : Nat := 0x00000000
def Adr.GLB_REV : Nat := 0x00000004
def Adr.GLB_STATUS : Nat := 0x00000008
def Adr.GLB_SCRATCH : Nat := 0x0000000C
def Adr.TRB_SUMMARY : Nat := 0x00020000
def Adr.TRB_CLRADDR : Nat := 0x00020004
def Adr.TRB_CLRMASK : Nat := 0x00020008
def Adr.TRB_INTEN : Nat := 0x00020010
def Adr.TRB_INTSRC : Nat := 0x00020014
def Adr.TRB_RECSEQ : Nat := 0x00020020
def Adr.TRB_RECSEL : Nat := 0x00020024
def Adr.TRB_RECACK : Nat := 0x00020028
def Adr.TRB_RECDATA (w : Nat) : Nat := 0x00020040 + 0x4 * w
def Adr.TEL_TJ : Nat := 0x00150000
def Adr.TEL_QCFG : Nat := 0x00150004
def Adr.TEL_PUSHSEL : Nat := 0x00150008
def Adr.TEL_FCIDX : Nat := 0x00150010
def Adr.TEL_FCLO : Nat := 0x00150014
def Adr.TEL_FCHI : Nat := 0x00150018
def Adr.HP_PLANE (n : Nat) : Nat := 0x00100100 + 0x4 * n
def Adr.HP_STAGLO (n : Nat) : Nat := 0x00100120 + 0x8 * n
def Adr.HP_STAGHI (n : Nat) : Nat := 0x00100124 + 0x8 * n
def Adr.HP_PWID (n : Nat) : Nat := 0x00100160 + 0x4 * n
def Adr.HP_OVL (p : Nat) : Nat := 0x00100200 + 0x4 * p
def Adr.LT_PITCH (n : Nat) : Nat := 0x000F0100 + 0x4 * n
def Adr.LT_POFF (n : Nat) : Nat := 0x000F0120 + 0x4 * n

def Fld.JOB_CTRL.Abort : FieldRef := ⟨0x000B0000, 2, 2⟩
def Fld.JOB_CTRL.Stop : FieldRef := ⟨0x000B0000, 1, 1⟩
def Fld.JOB_CTRL.Start : FieldRef := ⟨0x000B0000, 0, 0⟩
def Fld.JOB_HEADLO.HeadLo : FieldRef := ⟨0x000B0004, 31, 7⟩
def Fld.JOB_HEADHI.HeadHi : FieldRef := ⟨0x000B0008, 7, 0⟩
def Fld.JOB_DOORBELL.Ring : FieldRef := ⟨0x000B000C, 0, 0⟩
def Fld.JOB_LOOKAHEAD.Lines : FieldRef := ⟨0x000B0010, 19, 0⟩
def Fld.JOB_STATUS.SeqState : FieldRef := ⟨0x000B0014, 18, 16⟩
def Fld.JOB_STATUS.Held : FieldRef := ⟨0x000B0014, 11, 8⟩
def Fld.JOB_STATUS.Dry : FieldRef := ⟨0x000B0014, 1, 1⟩
def Fld.JOB_STATUS.Printing : FieldRef := ⟨0x000B0014, 0, 0⟩
def Fld.JOB_TAILLO.TailLo : FieldRef := ⟨0x000B0018, 31, 7⟩
def Fld.JOB_TAILHI.TailHi : FieldRef := ⟨0x000B001C, 7, 0⟩
def Fld.JOB_CURPAGE.PageId : FieldRef := ⟨0x000B0020, 31, 0⟩
def Fld.JOB_RETPAGE.PageId : FieldRef := ⟨0x000B0024, 31, 0⟩
def Fld.JOB_RETGEN.Generation : FieldRef := ⟨0x000B0028, 31, 0⟩
def Fld.JOB_RETSTAT.Status : FieldRef := ⟨0x000B002C, 15, 0⟩
def Fld.JOB_LIMITLO.LimitLo : FieldRef := ⟨0x000B0030, 31, 20⟩
def Fld.JOB_LIMITHI.LimitHi : FieldRef := ⟨0x000B0034, 7, 0⟩
def Fld.JOB_PAGECNT.Count : FieldRef := ⟨0x000B0038, 31, 0⟩
def Fld.JOB_FLAGCNT.Count : FieldRef := ⟨0x000B003C, 31, 0⟩
def Fld.JOB_MISSCNT.Count : FieldRef := ⟨0x000B0040, 31, 0⟩
def Fld.JOB_BELLCNT.Count : FieldRef := ⟨0x000B0044, 31, 0⟩
def Fld.JOB_ERR.StartIgnored : FieldRef := ⟨0x000B0048, 6, 6⟩
def Fld.JOB_ERR.EmptyLoop : FieldRef := ⟨0x000B0048, 5, 5⟩
def Fld.JOB_ERR.DataCrc : FieldRef := ⟨0x000B0048, 4, 4⟩
def Fld.JOB_ERR.ChainDry : FieldRef := ⟨0x000B0048, 3, 3⟩
def Fld.JOB_ERR.LateAppend : FieldRef := ⟨0x000B0048, 2, 2⟩
def Fld.JOB_ERR.StripMalformed : FieldRef := ⟨0x000B0048, 1, 1⟩
def Fld.JOB_ERR.DescMalformed : FieldRef := ⟨0x000B0048, 0, 0⟩
def Fld.NET_OJPPORT.Port : FieldRef := ⟨0x00040400, 15, 0⟩
def Fld.NET_OJPCTRL.KeyValid : FieldRef := ⟨0x00040404, 7, 4⟩
def Fld.NET_OJPCTRL.AuthRequired : FieldRef := ⟨0x00040404, 0, 0⟩
def Fld.NET_OJPIDLE.Timeout : FieldRef := ⟨0x00040408, 15, 0⟩
def Fld.NET_OJPRTO.MaxTries : FieldRef := ⟨0x0004040C, 31, 28⟩
def Fld.NET_OJPRTO.AckDelay : FieldRef := ⟨0x0004040C, 27, 16⟩
def Fld.NET_OJPRTO.InitialRto : FieldRef := ⟨0x0004040C, 15, 0⟩
def Fld.NET_OJPSESS.Open : FieldRef := ⟨0x00040410, 15, 0⟩
def Fld.NET_OJPDROP.Count : FieldRef := ⟨0x00040414, 31, 0⟩
def Fld.NET_OJPDUP.Count : FieldRef := ⟨0x00040418, 31, 0⟩
def Fld.NET_OJPAUTHF.Count : FieldRef := ⟨0x0004041C, 31, 0⟩
def Fld.NET_OJPRETX.Count : FieldRef := ⟨0x00040420, 31, 0⟩
def Fld.NET_OJPNLOST.Count : FieldRef := ⟨0x00040424, 31, 0⟩
def Fld.NET_OJPERR.PathShrink : FieldRef := ⟨0x00040428, 3, 3⟩
def Fld.NET_OJPERR.RetryLimit : FieldRef := ⟨0x00040428, 2, 2⟩
def Fld.NET_OJPERR.IdleClose : FieldRef := ⟨0x00040428, 1, 1⟩
def Fld.NET_OJPERR.SessionFull : FieldRef := ⟨0x00040428, 0, 0⟩
def Fld.DEC_PLANPER.Period : FieldRef := ⟨0x000C0000, 19, 0⟩
def Fld.DEC_MEMBUDGET.Rate : FieldRef := ⟨0x000C0004, 7, 0⟩
def Fld.DEC_POOL.SizeGiB : FieldRef := ⟨0x000C0008, 6, 0⟩
def Fld.DEC_POOLUSED.UsedMiB : FieldRef := ⟨0x000C000C, 16, 0⟩
def Fld.DEC_LIMITPER.Period : FieldRef := ⟨0x000C0010, 31, 0⟩
def Fld.DEC_STATUS.Busy : FieldRef := ⟨0x000C0014, 31, 16⟩
def Fld.DEC_STATUS.ScanPending : FieldRef := ⟨0x000C0014, 2, 2⟩
def Fld.DEC_STATUS.Expanding : FieldRef := ⟨0x000C0014, 1, 1⟩
def Fld.DEC_STATUS.BudgetLimit : FieldRef := ⟨0x000C0014, 0, 0⟩
def Fld.DEC_EXPCNT.Count : FieldRef := ⟨0x000C0018, 31, 0⟩
def Fld.DEC_SYMXCNT.Count : FieldRef := ⟨0x000C001C, 31, 0⟩
def Fld.DEC_CMPCTRL.Lazy : FieldRef := ⟨0x000C0020, 8, 8⟩
def Fld.DEC_CMPCTRL.Depth : FieldRef := ⟨0x000C0020, 5, 0⟩
def Fld.DEC_RECUSED.UsedMiB : FieldRef := ⟨0x000C0024, 9, 0⟩
def Fld.DEC_ERR.DataLoss : FieldRef := ⟨0x000C0028, 8, 8⟩
def Fld.DEC_ERR.RecordOverflow : FieldRef := ⟨0x000C0028, 7, 7⟩
def Fld.DEC_ERR.PoolFull : FieldRef := ⟨0x000C0028, 6, 6⟩
def Fld.DEC_ERR.ExpandLate : FieldRef := ⟨0x000C0028, 5, 5⟩
def Fld.DEC_ERR.BudgetShort : FieldRef := ⟨0x000C0028, 4, 4⟩
def Fld.DEC_ERR.SymbolExcess : FieldRef := ⟨0x000C0028, 3, 3⟩
def Fld.DEC_ERR.TrailingData : FieldRef := ⟨0x000C0028, 2, 2⟩
def Fld.DEC_ERR.StreamOrder : FieldRef := ⟨0x000C0028, 1, 1⟩
def Fld.DEC_ERR.StreamError : FieldRef := ⟨0x000C0028, 0, 0⟩
def Fld.RAS_SCALE.YMode (n : Nat) : FieldRef := ⟨0x000D0000 + 0x4 * n, 3, 3⟩
def Fld.RAS_SCALE.YFactor (n : Nat) : FieldRef := ⟨0x000D0000 + 0x4 * n, 2, 2⟩
def Fld.RAS_SCALE.XMode (n : Nat) : FieldRef := ⟨0x000D0000 + 0x4 * n, 1, 1⟩
def Fld.RAS_SCALE.XFactor (n : Nat) : FieldRef := ⟨0x000D0000 + 0x4 * n, 0, 0⟩
def Fld.RAS_REG.Shift (n : Nat) : FieldRef := ⟨0x000D0020 + 0x4 * n, 15, 0⟩
def Fld.RAS_STCTRL.ZeroHold (n : Nat) : FieldRef := ⟨0x000D0040 + 0x4 * n, 1, 1⟩
def Fld.RAS_STCTRL.StitchMode (n : Nat) : FieldRef := ⟨0x000D0040 + 0x4 * n, 0, 0⟩
def Fld.RAS_COMMITSTAT.ScalePending : FieldRef := ⟨0x000D0060, 8, 8⟩
def Fld.RAS_COMMITSTAT.CorrPending : FieldRef := ⟨0x000D0060, 7, 0⟩
def Fld.RAS_ERR.WriteWhilePending : FieldRef := ⟨0x000D0064, 1, 1⟩
def Fld.RAS_ERR.WidthMismatch : FieldRef := ⟨0x000D0064, 0, 0⟩
def Fld.RAS_PEEKIDX.Nozzle : FieldRef := ⟨0x000D0068, 17, 0⟩
def Fld.RAS_PEEKVAL.Word : FieldRef := ⟨0x000D006C, 31, 0⟩
def Fld.RAS_MASK.Mask3 (n w : Nat) : FieldRef := ⟨0x000D3000 + 0x100 * n + 0x4 * w, 31, 24⟩
def Fld.RAS_MASK.Mask2 (n w : Nat) : FieldRef := ⟨0x000D3000 + 0x100 * n + 0x4 * w, 23, 16⟩
def Fld.RAS_MASK.Mask1 (n w : Nat) : FieldRef := ⟨0x000D3000 + 0x100 * n + 0x4 * w, 15, 8⟩
def Fld.RAS_MASK.Mask0 (n w : Nat) : FieldRef := ⟨0x000D3000 + 0x100 * n + 0x4 * w, 7, 0⟩
def Fld.RAS_CURVE.Curve3 (p w : Nat) : FieldRef := ⟨0x000D4000 + 0x100 * p + 0x4 * w, 31, 24⟩
def Fld.RAS_CURVE.Curve2 (p w : Nat) : FieldRef := ⟨0x000D4000 + 0x100 * p + 0x4 * w, 23, 16⟩
def Fld.RAS_CURVE.Curve1 (p w : Nat) : FieldRef := ⟨0x000D4000 + 0x100 * p + 0x4 * w, 15, 8⟩
def Fld.RAS_CURVE.Curve0 (p w : Nat) : FieldRef := ⟨0x000D4000 + 0x100 * p + 0x4 * w, 7, 0⟩
def Fld.RAS_STWT.WeightOdd (p w : Nat) : FieldRef := ⟨0x000D8000 + 0x200 * p + 0x4 * w, 24, 16⟩
def Fld.RAS_STWT.WeightEven (p w : Nat) : FieldRef := ⟨0x000D8000 + 0x200 * p + 0x4 * w, 8, 0⟩
def Fld.HT_CTRL.BlankHold (n : Nat) : FieldRef := ⟨0x000E0000 + 0x4 * n, 11, 11⟩
def Fld.HT_CTRL.PromoteCap (n : Nat) : FieldRef := ⟨0x000E0000 + 0x4 * n, 10, 8⟩
def Fld.HT_CTRL.LevelCap (n : Nat) : FieldRef := ⟨0x000E0000 + 0x4 * n, 6, 4⟩
def Fld.HT_CTRL.Method (n : Nat) : FieldRef := ⟨0x000E0000 + 0x4 * n, 0, 0⟩
def Fld.HT_CODE.CodeBits (n : Nat) : FieldRef := ⟨0x000E0020 + 0x4 * n, 1, 0⟩
def Fld.HT_HIDE.TwinWeight (n : Nat) : FieldRef := ⟨0x000E0040 + 0x4 * n, 23, 16⟩
def Fld.HT_HIDE.Weight2 (n : Nat) : FieldRef := ⟨0x000E0040 + 0x4 * n, 15, 8⟩
def Fld.HT_HIDE.Weight1 (n : Nat) : FieldRef := ⟨0x000E0040 + 0x4 * n, 7, 0⟩
def Fld.HT_HGAIN.WeakKeep (n : Nat) : FieldRef := ⟨0x000E0060 + 0x4 * n, 24, 16⟩
def Fld.HT_HGAIN.HideGain (n : Nat) : FieldRef := ⟨0x000E0060 + 0x4 * n, 8, 0⟩
def Fld.HT_DIFF.TapDownRight (n : Nat) : FieldRef := ⟨0x000E0080 + 0x4 * n, 28, 24⟩
def Fld.HT_DIFF.TapDown (n : Nat) : FieldRef := ⟨0x000E0080 + 0x4 * n, 20, 16⟩
def Fld.HT_DIFF.TapDownLeft (n : Nat) : FieldRef := ⟨0x000E0080 + 0x4 * n, 12, 8⟩
def Fld.HT_DIFF.TapRight (n : Nat) : FieldRef := ⟨0x000E0080 + 0x4 * n, 4, 0⟩
def Fld.HT_LOFF.OffYHi (n w : Nat) : FieldRef := ⟨0x000E0100 + 0x10 * n + 0x4 * w, 31, 24⟩
def Fld.HT_LOFF.OffXHi (n w : Nat) : FieldRef := ⟨0x000E0100 + 0x10 * n + 0x4 * w, 23, 16⟩
def Fld.HT_LOFF.OffYLo (n w : Nat) : FieldRef := ⟨0x000E0100 + 0x10 * n + 0x4 * w, 15, 8⟩
def Fld.HT_LOFF.OffXLo (n w : Nat) : FieldRef := ⟨0x000E0100 + 0x10 * n + 0x4 * w, 7, 0⟩
def Fld.HT_COMMITSTAT.CodePending : FieldRef := ⟨0x000E0200, 8, 8⟩
def Fld.HT_COMMITSTAT.HtPending : FieldRef := ⟨0x000E0200, 7, 0⟩
def Fld.HT_STATEPEND.StatePending : FieldRef := ⟨0x000E0204, 7, 0⟩
def Fld.HT_ERR.NoLevels : FieldRef := ⟨0x000E0208, 4, 4⟩
def Fld.HT_ERR.StateDiscard : FieldRef := ⟨0x000E0208, 3, 3⟩
def Fld.HT_ERR.Uncovered : FieldRef := ⟨0x000E0208, 2, 2⟩
def Fld.HT_ERR.TapClamp : FieldRef := ⟨0x000E0208, 1, 1⟩
def Fld.HT_ERR.WriteWhilePending : FieldRef := ⟨0x000E0208, 0, 0⟩
def Fld.HT_BAD.Bad (n : Nat) : FieldRef := ⟨0x000E0220 + 0x4 * n, 18, 0⟩
def Fld.HT_UNCOV.Uncovered (n : Nat) : FieldRef := ⟨0x000E0240 + 0x4 * n, 18, 0⟩
def Fld.HT_DROP.DropHi (p w : Nat) : FieldRef := ⟨0x000E1000 + 0x10 * p + 0x4 * w, 24, 16⟩
def Fld.HT_DROP.DropLo (p w : Nat) : FieldRef := ⟨0x000E1000 + 0x10 * p + 0x4 * w, 8, 0⟩
def Fld.LT_CHCFG.Filter (c : Nat) : FieldRef := ⟨0x000F0000 + 0x40 * c, 15, 12⟩
def Fld.LT_CHCFG.ZPol (c : Nat) : FieldRef := ⟨0x000F0000 + 0x40 * c, 9, 9⟩
def Fld.LT_CHCFG.StepEdge (c : Nat) : FieldRef := ⟨0x000F0000 + 0x40 * c, 8, 8⟩
def Fld.LT_CHCFG.Swap (c : Nat) : FieldRef := ⟨0x000F0000 + 0x40 * c, 5, 5⟩
def Fld.LT_CHCFG.Invert (c : Nat) : FieldRef := ⟨0x000F0000 + 0x40 * c, 4, 4⟩
def Fld.LT_CHCFG.Mode (c : Nat) : FieldRef := ⟨0x000F0000 + 0x40 * c, 1, 0⟩
def Fld.LT_CHCTRL.PageStart (c : Nat) : FieldRef := ⟨0x000F0004 + 0x40 * c, 2, 2⟩
def Fld.LT_CHCTRL.SetPos (c : Nat) : FieldRef := ⟨0x000F0004 + 0x40 * c, 1, 1⟩
def Fld.LT_CHCTRL.ClearFault (c : Nat) : FieldRef := ⟨0x000F0004 + 0x40 * c, 0, 0⟩
def Fld.LT_POSLO.PosLo (c : Nat) : FieldRef := ⟨0x000F0008 + 0x40 * c, 31, 0⟩
def Fld.LT_POSHI.PosHi (c : Nat) : FieldRef := ⟨0x000F000C + 0x40 * c, 15, 0⟩
def Fld.LT_HWMLO.HwmLo (c : Nat) : FieldRef := ⟨0x000F0010 + 0x40 * c, 31, 0⟩
def Fld.LT_HWMHI.HwmHi (c : Nat) : FieldRef := ⟨0x000F0014 + 0x40 * c, 15, 0⟩
def Fld.LT_IDXLO.IdxLo (c : Nat) : FieldRef := ⟨0x000F0018 + 0x40 * c, 31, 0⟩
def Fld.LT_IDXHI.IdxHi (c : Nat) : FieldRef := ⟨0x000F001C + 0x40 * c, 15, 0⟩
def Fld.LT_CPR.Tolerance (c : Nat) : FieldRef := ⟨0x000F0020 + 0x40 * c, 31, 24⟩
def Fld.LT_CPR.Cpr (c : Nat) : FieldRef := ⟨0x000F0020 + 0x40 * c, 23, 0⟩
def Fld.LT_DT.Window (c : Nat) : FieldRef := ⟨0x000F0024 + 0x40 * c, 31, 16⟩
def Fld.LT_DT.Limit (c : Nat) : FieldRef := ⟨0x000F0024 + 0x40 * c, 15, 0⟩
def Fld.LT_SPDCFG.Hyst (c : Nat) : FieldRef := ⟨0x000F0028 + 0x40 * c, 31, 24⟩
def Fld.LT_SPDCFG.Window (c : Nat) : FieldRef := ⟨0x000F0028 + 0x40 * c, 13, 0⟩
def Fld.LT_STILL.Timeout (c : Nat) : FieldRef := ⟨0x000F002C + 0x40 * c, 19, 0⟩
def Fld.LT_SPEED.Still (c : Nat) : FieldRef := ⟨0x000F0030 + 0x40 * c, 31, 31⟩
def Fld.LT_SPEED.Settling (c : Nat) : FieldRef := ⟨0x000F0030 + 0x40 * c, 30, 30⟩
def Fld.LT_SPEED.Count (c : Nat) : FieldRef := ⟨0x000F0030 + 0x40 * c, 23, 0⟩
def Fld.LT_SSI.Clock (c : Nat) : FieldRef := ⟨0x000F0034 + 0x40 * c, 29, 16⟩
def Fld.LT_SSI.SampleDelay (c : Nat) : FieldRef := ⟨0x000F0034 + 0x40 * c, 15, 8⟩
def Fld.LT_SSI.Gray (c : Nat) : FieldRef := ⟨0x000F0034 + 0x40 * c, 6, 6⟩
def Fld.LT_SSI.Bits (c : Nat) : FieldRef := ⟨0x000F0034 + 0x40 * c, 5, 0⟩
def Fld.LT_SSIPOLL.Monoflop (c : Nat) : FieldRef := ⟨0x000F0038 + 0x40 * c, 25, 16⟩
def Fld.LT_SSIPOLL.Period (c : Nat) : FieldRef := ⟨0x000F0038 + 0x40 * c, 13, 0⟩
def Fld.LT_CHSTAT.FrameErr (c : Nat) : FieldRef := ⟨0x000F003C + 0x40 * c, 7, 7⟩
def Fld.LT_CHSTAT.Drift (c : Nat) : FieldRef := ⟨0x000F003C + 0x40 * c, 6, 6⟩
def Fld.LT_CHSTAT.Double (c : Nat) : FieldRef := ⟨0x000F003C + 0x40 * c, 5, 5⟩
def Fld.LT_CHSTAT.FaultSeen (c : Nat) : FieldRef := ⟨0x000F003C + 0x40 * c, 4, 4⟩
def Fld.LT_CHSTAT.Reverse (c : Nat) : FieldRef := ⟨0x000F003C + 0x40 * c, 3, 3⟩
def Fld.LT_CHSTAT.Settling (c : Nat) : FieldRef := ⟨0x000F003C + 0x40 * c, 2, 2⟩
def Fld.LT_CHSTAT.Still (c : Nat) : FieldRef := ⟨0x000F003C + 0x40 * c, 1, 1⟩
def Fld.LT_CHSTAT.Fault (c : Nat) : FieldRef := ⟨0x000F003C + 0x40 * c, 0, 0⟩
def Fld.LT_MINPER.LagLimit (n : Nat) : FieldRef := ⟨0x000F0140 + 0x4 * n, 27, 24⟩
def Fld.LT_MINPER.MinPer (n : Nat) : FieldRef := ⟨0x000F0140 + 0x4 * n, 19, 0⟩
def Fld.LT_PSTATE.Lag (n : Nat) : FieldRef := ⟨0x000F0160 + 0x4 * n, 7, 4⟩
def Fld.LT_PSTATE.State (n : Nat) : FieldRef := ⟨0x000F0160 + 0x4 * n, 2, 0⟩
def Fld.LT_IVAL.Interval (n : Nat) : FieldRef := ⟨0x000F0180 + 0x4 * n, 31, 0⟩
def Fld.LT_RESUME.Event (n : Nat) : FieldRef := ⟨0x000F01A0 + 0x4 * n, 24, 0⟩
def Fld.LT_NEXT.Event (n : Nat) : FieldRef := ⟨0x000F01C0 + 0x4 * n, 24, 0⟩
def Fld.LT_BACKUP.Counts (c : Nat) : FieldRef := ⟨0x000F0200 + 0x4 * c, 23, 0⟩
def Fld.LT_DTCNT.Count (c : Nat) : FieldRef := ⟨0x000F0210 + 0x4 * c, 31, 0⟩
def Fld.LT_BTGTLO.TgtLo (c : Nat) : FieldRef := ⟨0x000F0220 + 0x8 * c, 31, 0⟩
def Fld.LT_BTGTHI.TgtHi (c : Nat) : FieldRef := ⟨0x000F0224 + 0x8 * c, 15, 0⟩
def Fld.LT_POSSETLO.SetLo (c : Nat) : FieldRef := ⟨0x000F0240 + 0x8 * c, 31, 0⟩
def Fld.LT_POSSETHI.SetHi (c : Nat) : FieldRef := ⟨0x000F0244 + 0x8 * c, 15, 0⟩
def Fld.LT_IDXDIST.Distance (c : Nat) : FieldRef := ⟨0x000F0260 + 0x4 * c, 31, 0⟩
def Fld.LT_PRBCFG.Filter (k : Nat) : FieldRef := ⟨0x000F0280 + 0x20 * k, 15, 12⟩
def Fld.LT_PRBCFG.PageStart (k : Nat) : FieldRef := ⟨0x000F0280 + 0x20 * k, 8, 8⟩
def Fld.LT_PRBCFG.Channel (k : Nat) : FieldRef := ⟨0x000F0280 + 0x20 * k, 5, 4⟩
def Fld.LT_PRBCFG.Edge (k : Nat) : FieldRef := ⟨0x000F0280 + 0x20 * k, 1, 0⟩
def Fld.LT_PRBOFF.StartOffset (k : Nat) : FieldRef := ⟨0x000F0284 + 0x20 * k, 31, 0⟩
def Fld.LT_PRBGAP.MinGap (k : Nat) : FieldRef := ⟨0x000F0288 + 0x20 * k, 31, 0⟩
def Fld.LT_PRBLATLO.LatLo (k : Nat) : FieldRef := ⟨0x000F028C + 0x20 * k, 31, 0⟩
def Fld.LT_PRBLATHI.LatHi (k : Nat) : FieldRef := ⟨0x000F0290 + 0x20 * k, 15, 0⟩
def Fld.LT_PRBCNT.Count (k : Nat) : FieldRef := ⟨0x000F0294 + 0x20 * k, 31, 0⟩
def Fld.LT_PRBREJ.Count (k : Nat) : FieldRef := ⟨0x000F0298 + 0x20 * k, 31, 0⟩
def Fld.LT_DLCTRL.ReArm : FieldRef := ⟨0x000F0300, 15, 0⟩
def Fld.LT_WARN.WarnPct : FieldRef := ⟨0x000F0304, 6, 0⟩
def Fld.LT_STATUS.Stopped : FieldRef := ⟨0x000F0308, 3, 3⟩
def Fld.LT_STATUS.SpeedLimitOvr : FieldRef := ⟨0x000F0308, 2, 2⟩
def Fld.LT_STATUS.SpeedWarn : FieldRef := ⟨0x000F0308, 1, 1⟩
def Fld.LT_STATUS.HaltReq : FieldRef := ⟨0x000F0308, 0, 0⟩
def Fld.LT_ERR.CfgBusy : FieldRef := ⟨0x000F030C, 6, 6⟩
def Fld.LT_ERR.StrobeClip : FieldRef := ⟨0x000F030C, 5, 5⟩
def Fld.LT_ERR.EarlyStart : FieldRef := ⟨0x000F030C, 4, 4⟩
def Fld.LT_ERR.ChannelFault : FieldRef := ⟨0x000F030C, 3, 3⟩
def Fld.LT_ERR.WarnSeen : FieldRef := ⟨0x000F030C, 2, 2⟩
def Fld.LT_ERR.Abandoned : FieldRef := ⟨0x000F030C, 1, 1⟩
def Fld.LT_ERR.DataLate : FieldRef := ⟨0x000F030C, 0, 0⟩
def Fld.LT_LATECNT.Count : FieldRef := ⟨0x000F0310, 31, 0⟩
def Fld.LT_EARLYCNT.Count : FieldRef := ⟨0x000F0314, 31, 0⟩
def Fld.LT_CLIPCNT.Count : FieldRef := ⟨0x000F0318, 31, 0⟩
def Fld.HP_CLK.ClkSel : FieldRef := ⟨0x00100000, 2, 0⟩
def Fld.HP_LATW.Width : FieldRef := ⟨0x00100004, 8, 0⟩
def Fld.HP_COMMITSTAT.PortPending : FieldRef := ⟨0x00100008, 8, 8⟩
def Fld.HP_COMMITSTAT.StrobePending : FieldRef := ⟨0x00100008, 7, 0⟩
def Fld.HP_ERR.DeskewFail : FieldRef := ⟨0x0010000C, 3, 3⟩
def Fld.HP_ERR.EchoMismatch : FieldRef := ⟨0x0010000C, 2, 2⟩
def Fld.HP_ERR.ShiftOverrun : FieldRef := ⟨0x0010000C, 1, 1⟩
def Fld.HP_ERR.WriteWhilePending : FieldRef := ⟨0x0010000C, 0, 0⟩
def Fld.HP_ECHOERRLO.Ports : FieldRef := ⟨0x00100010, 31, 0⟩
def Fld.HP_ECHOERRHI.Ports : FieldRef := ⟨0x00100014, 31, 0⟩
def Fld.HP_DSKCTRL.Start : FieldRef := ⟨0x00100018, 7, 7⟩
def Fld.HP_DSKCTRL.All : FieldRef := ⟨0x00100018, 6, 6⟩
def Fld.HP_DSKCTRL.Port : FieldRef := ⟨0x00100018, 5, 0⟩
def Fld.HP_DSKSTAT.CalRefMissing : FieldRef := ⟨0x0010001C, 2, 2⟩
def Fld.HP_DSKSTAT.Refused : FieldRef := ⟨0x0010001C, 1, 1⟩
def Fld.HP_DSKSTAT.Busy : FieldRef := ⟨0x0010001C, 0, 0⟩
def Fld.HP_DSKDONELO.Ports : FieldRef := ⟨0x00100020, 31, 0⟩
def Fld.HP_DSKDONEHI.Ports : FieldRef := ⟨0x00100024, 31, 0⟩
def Fld.HP_DSKPASSLO.Ports : FieldRef := ⟨0x00100028, 31, 0⟩
def Fld.HP_DSKPASSHI.Ports : FieldRef := ⟨0x0010002C, 31, 0⟩
def Fld.HP_PORTCFG.ChainOrder (n : Nat) : FieldRef := ⟨0x00100040 + 0x4 * n, 31, 8⟩
def Fld.HP_PORTCFG.KOrder (n : Nat) : FieldRef := ⟨0x00100040 + 0x4 * n, 1, 1⟩
def Fld.HP_PORTCFG.LaneCount (n : Nat) : FieldRef := ⟨0x00100040 + 0x4 * n, 0, 0⟩
def Fld.HP_SHIFT.Shift (n : Nat) : FieldRef := ⟨0x00100060 + 0x4 * n, 19, 0⟩
def Fld.HP_CYCLE.Cycle (n : Nat) : FieldRef := ⟨0x00100080 + 0x4 * n, 19, 0⟩
def Fld.HP_STROBE.Offset (p : Nat) : FieldRef := ⟨0x00100300 + 0x4 * p, 7, 0⟩
def Fld.HP_ECHO.Finding (p : Nat) : FieldRef := ⟨0x00100400 + 0x4 * p, 12, 12⟩
def Fld.HP_ECHO.FindFail (p : Nat) : FieldRef := ⟨0x00100400 + 0x4 * p, 11, 11⟩
def Fld.HP_ECHO.Find (p : Nat) : FieldRef := ⟨0x00100400 + 0x4 * p, 10, 10⟩
def Fld.HP_ECHO.Term (p : Nat) : FieldRef := ⟨0x00100400 + 0x4 * p, 9, 9⟩
def Fld.HP_ECHO.Enable (p : Nat) : FieldRef := ⟨0x00100400 + 0x4 * p, 8, 8⟩
def Fld.HP_ECHO.Latency (p : Nat) : FieldRef := ⟨0x00100400 + 0x4 * p, 7, 0⟩
def Fld.HP_LCV.Value (p : Nat) : FieldRef := ⟨0x00100500 + 0x4 * p, 31, 0⟩
def Fld.HP_ECHOCNT.Count (p : Nat) : FieldRef := ⟨0x00100600 + 0x4 * p, 31, 0⟩
def Fld.HP_PSTAT.Driven (p : Nat) : FieldRef := ⟨0x00100700 + 0x4 * p, 5, 5⟩
def Fld.HP_PSTAT.Shifting (p : Nat) : FieldRef := ⟨0x00100700 + 0x4 * p, 4, 4⟩
def Fld.HP_PSTAT.Queue (p : Nat) : FieldRef := ⟨0x00100700 + 0x4 * p, 2, 0⟩
def Fld.DD_CTRL.GateMask : FieldRef := ⟨0x00110000, 11, 8⟩
def Fld.DD_CTRL.Stop : FieldRef := ⟨0x00110000, 1, 1⟩
def Fld.DD_CTRL.Start : FieldRef := ⟨0x00110000, 0, 0⟩
def Fld.DD_STATUS.State : FieldRef := ⟨0x00110004, 2, 0⟩
def Fld.DD_ERR.GateConflict : FieldRef := ⟨0x00110008, 4, 4⟩
def Fld.DD_ERR.PageStartRejected : FieldRef := ⟨0x00110008, 3, 3⟩
def Fld.DD_ERR.GateNoise : FieldRef := ⟨0x00110008, 2, 2⟩
def Fld.DD_ERR.CarriageFault : FieldRef := ⟨0x00110008, 1, 1⟩
def Fld.DD_ERR.Refused : FieldRef := ⟨0x00110008, 0, 0⟩
def Fld.DD_PACER.TestLevel : FieldRef := ⟨0x0011000C, 26, 24⟩
def Fld.DD_PACER.Shots : FieldRef := ⟨0x0011000C, 19, 16⟩
def Fld.DD_PACER.Period : FieldRef := ⟨0x0011000C, 15, 0⟩
def Fld.DD_VERDICT.LateLimit : FieldRef := ⟨0x00110010, 31, 16⟩
def Fld.DD_VERDICT.WeakMin : FieldRef := ⟨0x00110010, 7, 4⟩
def Fld.DD_VERDICT.HealthyMin : FieldRef := ⟨0x00110010, 3, 0⟩
def Fld.DD_FIELD.Columns : FieldRef := ⟨0x00110014, 8, 0⟩
def Fld.DD_SETTLE.Time : FieldRef := ⟨0x00110018, 15, 0⟩
def Fld.DD_SCHED.Interval : FieldRef := ⟨0x0011001C, 15, 0⟩
def Fld.DD_PSREJ.Count : FieldRef := ⟨0x00110020, 31, 0⟩
def Fld.DD_TESTED.Count : FieldRef := ⟨0x00110024, 31, 0⟩
def Fld.DD_CHANGED.Count : FieldRef := ⟨0x00110028, 31, 0⟩
def Fld.DD_GATECFG.LiftEn (g : Nat) : FieldRef := ⟨0x00110100 + 0x20 * g, 19, 19⟩
def Fld.DD_GATECFG.LiftAxis (g : Nat) : FieldRef := ⟨0x00110100 + 0x20 * g, 18, 16⟩
def Fld.DD_GATECFG.Axis (g : Nat) : FieldRef := ⟨0x00110100 + 0x20 * g, 14, 12⟩
def Fld.DD_GATECFG.Polarity (g : Nat) : FieldRef := ⟨0x00110100 + 0x20 * g, 8, 8⟩
def Fld.DD_GATECFG.Filter (g : Nat) : FieldRef := ⟨0x00110100 + 0x20 * g, 7, 4⟩
def Fld.DD_GATECFG.Plane (g : Nat) : FieldRef := ⟨0x00110100 + 0x20 * g, 2, 0⟩
def Fld.DD_WIN.WinEnd (g : Nat) : FieldRef := ⟨0x00110104 + 0x20 * g, 31, 16⟩
def Fld.DD_WIN.WinStart (g : Nat) : FieldRef := ⟨0x00110104 + 0x20 * g, 15, 0⟩
def Fld.DD_FIRST.Nozzle (g : Nat) : FieldRef := ⟨0x00110108 + 0x20 * g, 17, 0⟩
def Fld.DD_LAST.Nozzle (g : Nat) : FieldRef := ⟨0x0011010C + 0x20 * g, 17, 0⟩
def Fld.DD_ORIGIN.Origin (g : Nat) : FieldRef := ⟨0x00110110 + 0x20 * g, 31, 0⟩
def Fld.DD_SPC.StepsPerColumn (g : Nat) : FieldRef := ⟨0x00110114 + 0x20 * g, 31, 0⟩
def Fld.DD_PROG.Active (g : Nat) : FieldRef := ⟨0x00110118 + 0x20 * g, 31, 31⟩
def Fld.DD_PROG.Nozzle (g : Nat) : FieldRef := ⟨0x00110118 + 0x20 * g, 17, 0⟩
def Fld.DD_STRAY.Count (g : Nat) : FieldRef := ⟨0x0011011C + 0x20 * g, 31, 0⟩
def Fld.MOT_AXCFG.Owner (a : Nat) : FieldRef := ⟨0x00120000 + 0x80 * a, 23, 23⟩
def Fld.MOT_AXCFG.Interlock (a : Nat) : FieldRef := ⟨0x00120000 + 0x80 * a, 22, 22⟩
def Fld.MOT_AXCFG.LiftPlane (a : Nat) : FieldRef := ⟨0x00120000 + 0x80 * a, 21, 19⟩
def Fld.MOT_AXCFG.Role (a : Nat) : FieldRef := ⟨0x00120000 + 0x80 * a, 18, 18⟩
def Fld.MOT_AXCFG.Enable (a : Nat) : FieldRef := ⟨0x00120000 + 0x80 * a, 17, 17⟩
def Fld.MOT_AXCFG.LimHi (a : Nat) : FieldRef := ⟨0x00120000 + 0x80 * a, 12, 8⟩
def Fld.MOT_AXCFG.LimLo (a : Nat) : FieldRef := ⟨0x00120000 + 0x80 * a, 4, 0⟩
def Fld.MOT_CUR.HoldCurrent (a : Nat) : FieldRef := ⟨0x00120004 + 0x80 * a, 31, 16⟩
def Fld.MOT_CUR.RunCurrent (a : Nat) : FieldRef := ⟨0x00120004 + 0x80 * a, 15, 0⟩
def Fld.MOT_SENSE.VoltScale (a : Nat) : FieldRef := ⟨0x00120008 + 0x80 * a, 31, 16⟩
def Fld.MOT_SENSE.CurScale (a : Nat) : FieldRef := ⟨0x00120008 + 0x80 * a, 15, 0⟩
def Fld.MOT_PWM.Decay (a : Nat) : FieldRef := ⟨0x0012000C + 0x80 * a, 8, 8⟩
def Fld.MOT_PWM.PwmFreq (a : Nat) : FieldRef := ⟨0x0012000C + 0x80 * a, 6, 0⟩
def Fld.MOT_PI.Ki (a : Nat) : FieldRef := ⟨0x00120010 + 0x80 * a, 31, 16⟩
def Fld.MOT_PI.Kp (a : Nat) : FieldRef := ⟨0x00120010 + 0x80 * a, 15, 0⟩
def Fld.MOT_MOTOR.Inductance (a : Nat) : FieldRef := ⟨0x00120014 + 0x80 * a, 31, 16⟩
def Fld.MOT_MOTOR.Resistance (a : Nat) : FieldRef := ⟨0x00120014 + 0x80 * a, 15, 0⟩
def Fld.MOT_VMAX.Vmax (a : Nat) : FieldRef := ⟨0x00120018 + 0x80 * a, 23, 0⟩
def Fld.MOT_AMAX.Amax (a : Nat) : FieldRef := ⟨0x0012001C + 0x80 * a, 31, 0⟩
def Fld.MOT_JMAX.Jmax (a : Nat) : FieldRef := ⟨0x00120020 + 0x80 * a, 31, 0⟩
def Fld.MOT_PROF.Shape (a : Nat) : FieldRef := ⟨0x00120024 + 0x80 * a, 0, 0⟩
def Fld.MOT_STALL.StallCount (a : Nat) : FieldRef := ⟨0x00120028 + 0x80 * a, 31, 24⟩
def Fld.MOT_STALL.StallFilt (a : Nat) : FieldRef := ⟨0x00120028 + 0x80 * a, 23, 16⟩
def Fld.MOT_STALL.StallAngle (a : Nat) : FieldRef := ⟨0x00120028 + 0x80 * a, 8, 0⟩
def Fld.MOT_STALLV.StallMinVel (a : Nat) : FieldRef := ⟨0x0012002C + 0x80 * a, 23, 0⟩
def Fld.MOT_HOME.HomeCurrent (a : Nat) : FieldRef := ⟨0x00120030 + 0x80 * a, 31, 16⟩
def Fld.MOT_HOME.HomeDir (a : Nat) : FieldRef := ⟨0x00120030 + 0x80 * a, 1, 1⟩
def Fld.MOT_HOME.HomeMode (a : Nat) : FieldRef := ⟨0x00120030 + 0x80 * a, 0, 0⟩
def Fld.MOT_HOMEV.HomeVel (a : Nat) : FieldRef := ⟨0x00120034 + 0x80 * a, 23, 0⟩
def Fld.MOT_HOMER.HomeRange (a : Nat) : FieldRef := ⟨0x00120038 + 0x80 * a, 31, 0⟩
def Fld.MOT_HOMEB.HomeBackoff (a : Nat) : FieldRef := ⟨0x0012003C + 0x80 * a, 15, 0⟩
def Fld.MOT_HOMEP.HomePos (a : Nat) : FieldRef := ⟨0x00120040 + 0x80 * a, 31, 0⟩
def Fld.MOT_LIFTP.PrintPos (a : Nat) : FieldRef := ⟨0x00120044 + 0x80 * a, 31, 0⟩
def Fld.MOT_LIFTS.ServicePos (a : Nat) : FieldRef := ⟨0x00120048 + 0x80 * a, 31, 0⟩
def Fld.MOT_STAND.StandMode (a : Nat) : FieldRef := ⟨0x0012004C + 0x80 * a, 17, 16⟩
def Fld.MOT_STAND.StandTime (a : Nat) : FieldRef := ⟨0x0012004C + 0x80 * a, 15, 0⟩
def Fld.MOT_TGT.Target (a : Nat) : FieldRef := ⟨0x00120050 + 0x80 * a, 31, 0⟩
def Fld.MOT_CMD.Op (a : Nat) : FieldRef := ⟨0x00120054 + 0x80 * a, 2, 0⟩
def Fld.MOT_POS.Position (a : Nat) : FieldRef := ⟨0x00120058 + 0x80 * a, 31, 0⟩
def Fld.MOT_VEL.Velocity (a : Nat) : FieldRef := ⟨0x0012005C + 0x80 * a, 31, 0⟩
def Fld.MOT_LOAD.Delta (a : Nat) : FieldRef := ⟨0x00120060 + 0x80 * a, 15, 0⟩
def Fld.MOT_STAT.OwnerLost (a : Nat) : FieldRef := ⟨0x00120064 + 0x80 * a, 9, 9⟩
def Fld.MOT_STAT.Homed (a : Nat) : FieldRef := ⟨0x00120064 + 0x80 * a, 8, 8⟩
def Fld.MOT_STAT.HomeFail (a : Nat) : FieldRef := ⟨0x00120064 + 0x80 * a, 7, 7⟩
def Fld.MOT_STAT.LimitHit (a : Nat) : FieldRef := ⟨0x00120064 + 0x80 * a, 6, 6⟩
def Fld.MOT_STAT.Stall (a : Nat) : FieldRef := ⟨0x00120064 + 0x80 * a, 5, 5⟩
def Fld.MOT_STAT.State (a : Nat) : FieldRef := ⟨0x00120064 + 0x80 * a, 2, 0⟩
def Fld.MOT_LIMPOL.Polarity : FieldRef := ⟨0x00120400, 15, 0⟩
def Fld.MOT_LIMFILT.Filter : FieldRef := ⟨0x00120404, 7, 0⟩
def Fld.MOT_LIMSTAT.Active : FieldRef := ⟨0x00120408, 15, 0⟩
def Fld.MOT_ERR.Refused : FieldRef := ⟨0x0012040C, 7, 7⟩
def Fld.MOT_ERR.LimitHit : FieldRef := ⟨0x0012040C, 6, 6⟩
def Fld.MOT_ERR.LiftBusy : FieldRef := ⟨0x0012040C, 5, 5⟩
def Fld.MOT_ERR.NotHomed : FieldRef := ⟨0x0012040C, 4, 4⟩
def Fld.MOT_ERR.LimitRefused : FieldRef := ⟨0x0012040C, 3, 3⟩
def Fld.MOT_ERR.CfgBusy : FieldRef := ⟨0x0012040C, 2, 2⟩
def Fld.MOT_ERR.HomeFail : FieldRef := ⟨0x0012040C, 1, 1⟩
def Fld.MOT_ERR.Stall : FieldRef := ⟨0x0012040C, 0, 0⟩
def Fld.MOT_USTEP.EntryOdd (a w : Nat) : FieldRef := ⟨0x00121000 + 0x200 * a + 0x4 * w, 27, 16⟩
def Fld.MOT_USTEP.EntryEven (a w : Nat) : FieldRef := ⟨0x00121000 + 0x200 * a + 0x4 * w, 11, 0⟩
def Fld.CAL_ADCCTRL.Start : FieldRef := ⟨0x00130000, 8, 8⟩
def Fld.CAL_ADCCTRL.Mask : FieldRef := ⟨0x00130000, 7, 0⟩
def Fld.CAL_ADCSTAT.VcalMissing : FieldRef := ⟨0x00130004, 2, 2⟩
def Fld.CAL_ADCSTAT.Refused : FieldRef := ⟨0x00130004, 1, 1⟩
def Fld.CAL_ADCSTAT.Busy : FieldRef := ⟨0x00130004, 0, 0⟩
def Fld.CAL_ADCDONE.Done : FieldRef := ⟨0x00130008, 7, 0⟩
def Fld.CAL_ADCPASS.Pass : FieldRef := ⟨0x0013000C, 7, 0⟩
def Fld.PAIR_CFG.JoinWait : FieldRef := ⟨0x00070000, 25, 16⟩
def Fld.PAIR_CFG.Prefer : FieldRef := ⟨0x00070000, 1, 1⟩
def Fld.PAIR_CFG.PairMode : FieldRef := ⟨0x00070000, 0, 0⟩
def Fld.PAIR_CTRL.SelfTest : FieldRef := ⟨0x00070004, 1, 1⟩
def Fld.PAIR_CTRL.Handoff : FieldRef := ⟨0x00070004, 0, 0⟩
def Fld.PAIR_STATUS.PartnerState : FieldRef := ⟨0x00070008, 23, 20⟩
def Fld.PAIR_STATUS.State : FieldRef := ⟨0x00070008, 19, 16⟩
def Fld.PAIR_STATUS.StrkIn : FieldRef := ⟨0x00070008, 9, 9⟩
def Fld.PAIR_STATUS.StrkOut : FieldRef := ⟨0x00070008, 8, 8⟩
def Fld.PAIR_STATUS.DeviceNumber : FieldRef := ⟨0x00070008, 2, 2⟩
def Fld.PAIR_STATUS.Role : FieldRef := ⟨0x00070008, 1, 0⟩
def Fld.PAIR_READY.Ready : FieldRef := ⟨0x0007000C, 7, 0⟩
def Fld.PAIR_RALLY.CloseLines : FieldRef := ⟨0x00070010, 31, 24⟩
def Fld.PAIR_RALLY.Enable : FieldRef := ⟨0x00070010, 16, 16⟩
def Fld.PAIR_RALLY.Wait : FieldRef := ⟨0x00070010, 15, 0⟩
def Fld.PAIR_SUSPECT.Limit : FieldRef := ⟨0x00070014, 31, 24⟩
def Fld.PAIR_SUSPECT.Window : FieldRef := ⟨0x00070014, 23, 0⟩
def Fld.PAIR_RESYNC.Rate : FieldRef := ⟨0x00070018, 4, 0⟩
def Fld.PAIR_SYNCPROG.CopiedMiB : FieldRef := ⟨0x0007001C, 31, 0⟩
def Fld.PAIR_TIMEOFF.Offset : FieldRef := ⟨0x00070020, 31, 0⟩
def Fld.PAIR_MISFIRST.Plane : FieldRef := ⟨0x00070024, 31, 29⟩
def Fld.PAIR_MISFIRST.Event : FieldRef := ⟨0x00070024, 24, 0⟩
def Fld.PAIR_MISLAST.Event : FieldRef := ⟨0x00070028, 24, 0⟩
def Fld.PAIR_MISCNT.Count : FieldRef := ⟨0x0007002C, 31, 0⟩
def Fld.PAIR_MISSCNT.Count : FieldRef := ⟨0x00070030, 31, 0⟩
def Fld.PAIR_HOCNT.Count : FieldRef := ⟨0x00070034, 31, 0⟩
def Fld.PAIR_HBMISS.Count : FieldRef := ⟨0x00070038, 31, 0⟩
def Fld.PAIR_RPROK.Count : FieldRef := ⟨0x0007003C, 31, 0⟩
def Fld.PAIR_RPRFAIL.Count : FieldRef := ⟨0x00070040, 31, 0⟩
def Fld.PAIR_MIRPEND.Lines : FieldRef := ⟨0x00070044, 15, 0⟩
def Fld.PAIR_ERR.DevselConflict : FieldRef := ⟨0x00070048, 12, 12⟩
def Fld.PAIR_ERR.CfgMismatch : FieldRef := ⟨0x00070048, 11, 11⟩
def Fld.PAIR_ERR.HandoffRefused : FieldRef := ⟨0x00070048, 10, 10⟩
def Fld.PAIR_ERR.KeeperWrite : FieldRef := ⟨0x00070048, 9, 9⟩
def Fld.PAIR_ERR.ResyncAbort : FieldRef := ⟨0x00070048, 8, 8⟩
def Fld.PAIR_ERR.RepairFail : FieldRef := ⟨0x00070048, 7, 7⟩
def Fld.PAIR_ERR.SelfTestFail : FieldRef := ⟨0x00070048, 6, 6⟩
def Fld.PAIR_ERR.Suspect : FieldRef := ⟨0x00070048, 5, 5⟩
def Fld.PAIR_ERR.RallyMissing : FieldRef := ⟨0x00070048, 4, 4⟩
def Fld.PAIR_ERR.RallyMismatch : FieldRef := ⟨0x00070048, 3, 3⟩
def Fld.PAIR_ERR.StrkConflict : FieldRef := ⟨0x00070048, 2, 2⟩
def Fld.PAIR_ERR.Isolated : FieldRef := ⟨0x00070048, 1, 1⟩
def Fld.PAIR_ERR.PartnerLost : FieldRef := ⟨0x00070048, 0, 0⟩
def Fld.NET_PCTRL.Vid (p : Nat) : FieldRef := ⟨0x00040000 + 0x40 * p, 27, 16⟩
def Fld.NET_PCTRL.Dscp (p : Nat) : FieldRef := ⟨0x00040000 + 0x40 * p, 15, 10⟩
def Fld.NET_PCTRL.Vlan (p : Nat) : FieldRef := ⟨0x00040000 + 0x40 * p, 9, 8⟩
def Fld.NET_PCTRL.Fec (p : Nat) : FieldRef := ⟨0x00040000 + 0x40 * p, 3, 3⟩
def Fld.NET_PCTRL.Jumbo (p : Nat) : FieldRef := ⟨0x00040000 + 0x40 * p, 2, 2⟩
def Fld.NET_PCTRL.Speed (p : Nat) : FieldRef := ⟨0x00040000 + 0x40 * p, 1, 0⟩
def Fld.NET_PSTAT.HiBer (p : Nat) : FieldRef := ⟨0x00040004 + 0x40 * p, 3, 3⟩
def Fld.NET_PSTAT.BlockLock (p : Nat) : FieldRef := ⟨0x00040004 + 0x40 * p, 2, 2⟩
def Fld.NET_PSTAT.Rate10 (p : Nat) : FieldRef := ⟨0x00040004 + 0x40 * p, 1, 1⟩
def Fld.NET_PSTAT.LinkUp (p : Nat) : FieldRef := ⟨0x00040004 + 0x40 * p, 0, 0⟩
def Fld.NET_RXFRM.Count (p : Nat) : FieldRef := ⟨0x00040008 + 0x40 * p, 31, 0⟩
def Fld.NET_TXFRM.Count (p : Nat) : FieldRef := ⟨0x0004000C + 0x40 * p, 31, 0⟩
def Fld.NET_FCSERR.Count (p : Nat) : FieldRef := ⟨0x00040010 + 0x40 * p, 31, 0⟩
def Fld.NET_PAUSE.Count (p : Nat) : FieldRef := ⟨0x00040014 + 0x40 * p, 31, 0⟩
def Fld.NET_RXDROP.Count (p : Nat) : FieldRef := ⟨0x00040018 + 0x40 * p, 31, 0⟩
def Fld.NET_MACLO.MacLo : FieldRef := ⟨0x00040200, 31, 0⟩
def Fld.NET_MACHI.MacHi : FieldRef := ⟨0x00040204, 15, 0⟩
def Fld.NET_PMACLO.MacLo : FieldRef := ⟨0x00040208, 31, 0⟩
def Fld.NET_PMACHI.MacHi : FieldRef := ⟨0x0004020C, 15, 0⟩
def Fld.NET_IP4.Addr : FieldRef := ⟨0x00040210, 31, 0⟩
def Fld.NET_PIP4.Addr : FieldRef := ⟨0x00040214, 31, 0⟩
def Fld.NET_IP6.Addr (w : Nat) : FieldRef := ⟨0x00040220 + 0x4 * w, 31, 0⟩
def Fld.NET_PIP6.Addr (w : Nat) : FieldRef := ⟨0x00040230 + 0x4 * w, 31, 0⟩
def Fld.LANE_CTRL.Retrain (l : Nat) : FieldRef := ⟨0x00050000 + 0x40 * l, 1, 1⟩
def Fld.LANE_CTRL.Enable (l : Nat) : FieldRef := ⟨0x00050000 + 0x40 * l, 0, 0⟩
def Fld.LANE_TX.Main (l : Nat) : FieldRef := ⟨0x00050004 + 0x40 * l, 21, 16⟩
def Fld.LANE_TX.Post (l : Nat) : FieldRef := ⟨0x00050004 + 0x40 * l, 12, 8⟩
def Fld.LANE_TX.Pre (l : Nat) : FieldRef := ⟨0x00050004 + 0x40 * l, 3, 0⟩
def Fld.LANE_STAT.Fom (l : Nat) : FieldRef := ⟨0x00050008 + 0x40 * l, 31, 24⟩
def Fld.LANE_STAT.Steps (l : Nat) : FieldRef := ⟨0x00050008 + 0x40 * l, 19, 8⟩
def Fld.LANE_STAT.State (l : Nat) : FieldRef := ⟨0x00050008 + 0x40 * l, 2, 0⟩
def Fld.LANE_ERRCNT.Count (l : Nat) : FieldRef := ⟨0x0005000C + 0x40 * l, 31, 0⟩
def Fld.LANE_FOM.Target : FieldRef := ⟨0x00050400, 15, 8⟩
def Fld.LANE_FOM.Floor : FieldRef := ⟨0x00050400, 7, 0⟩
def Fld.LANE_BUDGET.Steps : FieldRef := ⟨0x00050404, 11, 0⟩
def Fld.LANE_ERR.RefClk : FieldRef := ⟨0x00050408, 2, 2⟩
def Fld.LANE_ERR.LinkDrop : FieldRef := ⟨0x00050408, 1, 1⟩
def Fld.LANE_ERR.TrainFail : FieldRef := ⟨0x00050408, 0, 0⟩
def Fld.LANE_REPLAYCNT.Count : FieldRef := ⟨0x0005040C, 31, 0⟩
def Fld.TIME_SECLO.SecLo : FieldRef := ⟨0x00060000, 31, 0⟩
def Fld.TIME_SECHI.SecHi : FieldRef := ⟨0x00060004, 15, 0⟩
def Fld.TIME_NS.Ns : FieldRef := ⟨0x00060008, 29, 0⟩
def Fld.TIME_FRAC.Frac : FieldRef := ⟨0x0006000C, 31, 0⟩
def Fld.TIME_INCRLO.Frac : FieldRef := ⟨0x00060010, 31, 0⟩
def Fld.TIME_INCRHI.Whole : FieldRef := ⟨0x00060014, 2, 0⟩
def Fld.TIME_STEPNS.Ns : FieldRef := ⟨0x00060018, 31, 0⟩
def Fld.TIME_STEPSEC.Sec : FieldRef := ⟨0x0006001C, 31, 0⟩
def Fld.TIME_PTPCTRL.Domain : FieldRef := ⟨0x00060020, 31, 24⟩
def Fld.TIME_PTPCTRL.PortMask : FieldRef := ⟨0x00060020, 11, 8⟩
def Fld.TIME_PTPCTRL.ApplyCorr : FieldRef := ⟨0x00060020, 5, 5⟩
def Fld.TIME_PTPCTRL.HostServo : FieldRef := ⟨0x00060020, 4, 4⟩
def Fld.TIME_PTPCTRL.Transport : FieldRef := ⟨0x00060020, 3, 2⟩
def Fld.TIME_PTPCTRL.Enable : FieldRef := ⟨0x00060020, 0, 0⟩
def Fld.TIME_PTPSTAT.Port : FieldRef := ⟨0x00060024, 3, 2⟩
def Fld.TIME_PTPSTAT.Holdover : FieldRef := ⟨0x00060024, 1, 1⟩
def Fld.TIME_PTPSTAT.Locked : FieldRef := ⟨0x00060024, 0, 0⟩
def Fld.TIME_OFFSET.Ns : FieldRef := ⟨0x00060028, 31, 0⟩
def Fld.TIME_PATHDLY.Ns : FieldRef := ⟨0x0006002C, 31, 0⟩
def Fld.TIME_STEPCNT.Count : FieldRef := ⟨0x00060030, 31, 0⟩
def Fld.TIME_ERR.MasterChange : FieldRef := ⟨0x00060034, 1, 1⟩
def Fld.TIME_ERR.IncrClamp : FieldRef := ⟨0x00060034, 0, 0⟩
def Fld.TIME_EXSEQ.Seq : FieldRef := ⟨0x0006003C, 31, 0⟩
def Fld.TIME_EXS.Sec (k : Nat) : FieldRef := ⟨0x00060040 + 0x10 * k, 31, 0⟩
def Fld.TIME_EXN.Ns (k : Nat) : FieldRef := ⟨0x00060044 + 0x10 * k, 29, 0⟩
def Fld.TIME_EXF.Frac (k : Nat) : FieldRef := ⟨0x00060048 + 0x10 * k, 15, 0⟩
def Fld.TIME_TOCTRL.Late (k : Nat) : FieldRef := ⟨0x00060100 + 0x20 * k, 5, 5⟩
def Fld.TIME_TOCTRL.Armed (k : Nat) : FieldRef := ⟨0x00060100 + 0x20 * k, 4, 4⟩
def Fld.TIME_TOCTRL.Polarity (k : Nat) : FieldRef := ⟨0x00060100 + 0x20 * k, 3, 3⟩
def Fld.TIME_TOCTRL.Periodic (k : Nat) : FieldRef := ⟨0x00060100 + 0x20 * k, 2, 2⟩
def Fld.TIME_TOCTRL.Disarm (k : Nat) : FieldRef := ⟨0x00060100 + 0x20 * k, 1, 1⟩
def Fld.TIME_TOCTRL.Arm (k : Nat) : FieldRef := ⟨0x00060100 + 0x20 * k, 0, 0⟩
def Fld.TIME_TOSECLO.SecLo (k : Nat) : FieldRef := ⟨0x00060104 + 0x20 * k, 31, 0⟩
def Fld.TIME_TOSECHI.SecHi (k : Nat) : FieldRef := ⟨0x00060108 + 0x20 * k, 15, 0⟩
def Fld.TIME_TONS.Ns (k : Nat) : FieldRef := ⟨0x0006010C + 0x20 * k, 29, 0⟩
def Fld.TIME_TOPER.Period (k : Nat) : FieldRef := ⟨0x00060110 + 0x20 * k, 31, 0⟩
def Fld.TIME_TOWID.Width (k : Nat) : FieldRef := ⟨0x00060114 + 0x20 * k, 23, 0⟩
def Fld.MEM_CTRL.SweepEn : FieldRef := ⟨0x00080000, 2, 2⟩
def Fld.MEM_CTRL.DemandScrub : FieldRef := ⟨0x00080000, 1, 1⟩
def Fld.MEM_CTRL.UncReport : FieldRef := ⟨0x00080000, 0, 0⟩
def Fld.MEM_CFG.Speed : FieldRef := ⟨0x00080004, 11, 10⟩
def Fld.MEM_CFG.Density : FieldRef := ⟨0x00080004, 9, 9⟩
def Fld.MEM_CFG.Ranks : FieldRef := ⟨0x00080004, 8, 8⟩
def Fld.MEM_CFG.Channels : FieldRef := ⟨0x00080004, 3, 0⟩
def Fld.MEM_SIZE.GiB : FieldRef := ⟨0x00080008, 7, 0⟩
def Fld.MEM_STATUS.Hot : FieldRef := ⟨0x0008000C, 11, 8⟩
def Fld.MEM_STATUS.TrainOk : FieldRef := ⟨0x0008000C, 7, 4⟩
def Fld.MEM_STATUS.SelfRefresh : FieldRef := ⟨0x0008000C, 2, 2⟩
def Fld.MEM_STATUS.ReservedKindled : FieldRef := ⟨0x0008000C, 1, 1⟩
def Fld.MEM_STATUS.Kindled : FieldRef := ⟨0x0008000C, 0, 0⟩
def Fld.MEM_KWMLO.WmLo : FieldRef := ⟨0x00080010, 31, 6⟩
def Fld.MEM_KWMHI.WmHi : FieldRef := ⟨0x00080014, 7, 0⟩
def Fld.MEM_SWEEP.Period : FieldRef := ⟨0x00080018, 10, 0⟩
def Fld.MEM_SWPROG.MiB : FieldRef := ⟨0x0008001C, 31, 0⟩
def Fld.MEM_SWPASS.Count : FieldRef := ⟨0x00080020, 31, 0⟩
def Fld.MEM_SRAMPASS.Count : FieldRef := ⟨0x00080024, 31, 0⟩
def Fld.MEM_CAPCNT.Count : FieldRef := ⟨0x00080028, 31, 0⟩
def Fld.MEM_ERR.RemapFull : FieldRef := ⟨0x0008002C, 6, 6⟩
def Fld.MEM_ERR.ComponentFail : FieldRef := ⟨0x0008002C, 5, 5⟩
def Fld.MEM_ERR.CaParityFail : FieldRef := ⟨0x0008002C, 4, 4⟩
def Fld.MEM_ERR.SramUnc : FieldRef := ⟨0x0008002C, 3, 3⟩
def Fld.MEM_ERR.DramUnc : FieldRef := ⟨0x0008002C, 2, 2⟩
def Fld.MEM_ERR.TrainFail : FieldRef := ⟨0x0008002C, 0, 0⟩
def Fld.MEM_LASTLO.AddrLo : FieldRef := ⟨0x00080030, 31, 0⟩
def Fld.MEM_LASTHI.Kind : FieldRef := ⟨0x00080034, 31, 28⟩
def Fld.MEM_LASTHI.AddrHi : FieldRef := ⟨0x00080034, 7, 0⟩
def Fld.MEM_CECNT.Count (c : Nat) : FieldRef := ⟨0x00080040 + 0x4 * c, 31, 0⟩
def Fld.MEM_UECNT.Count (c : Nat) : FieldRef := ⟨0x00080050 + 0x4 * c, 31, 0⟩
def Fld.MEM_TEMP.Range (c : Nat) : FieldRef := ⟨0x00080060 + 0x4 * c, 1, 0⟩
def Fld.MEM_SRAMCE.Count : FieldRef := ⟨0x00080070, 31, 0⟩
def Fld.MEM_SRAMUE.Count : FieldRef := ⟨0x00080074, 31, 0⟩
def Fld.MEM_RMPOL.RowCeLimit : FieldRef := ⟨0x00080080, 7, 0⟩
def Fld.MEM_RMREQ.Go : FieldRef := ⟨0x00080084, 31, 31⟩
def Fld.MEM_RMREQ.Channel : FieldRef := ⟨0x00080084, 29, 28⟩
def Fld.MEM_RMREQ.Rank : FieldRef := ⟨0x00080084, 27, 27⟩
def Fld.MEM_RMREQ.BankGroup : FieldRef := ⟨0x00080084, 26, 25⟩
def Fld.MEM_RMREQ.Bank : FieldRef := ⟨0x00080084, 24, 23⟩
def Fld.MEM_RMREQ.Row : FieldRef := ⟨0x00080084, 16, 0⟩
def Fld.MEM_RMCTRL.ClearAll : FieldRef := ⟨0x00080088, 0, 0⟩
def Fld.MEM_RMCNT.Used : FieldRef := ⟨0x0008008C, 4, 0⟩
def Fld.MEM_REMAP.Valid (i : Nat) : FieldRef := ⟨0x00080100 + 0x4 * i, 31, 31⟩
def Fld.MEM_REMAP.Channel (i : Nat) : FieldRef := ⟨0x00080100 + 0x4 * i, 29, 28⟩
def Fld.MEM_REMAP.Rank (i : Nat) : FieldRef := ⟨0x00080100 + 0x4 * i, 27, 27⟩
def Fld.MEM_REMAP.BankGroup (i : Nat) : FieldRef := ⟨0x00080100 + 0x4 * i, 26, 25⟩
def Fld.MEM_REMAP.Bank (i : Nat) : FieldRef := ⟨0x00080100 + 0x4 * i, 24, 23⟩
def Fld.MEM_REMAP.Spare (i : Nat) : FieldRef := ⟨0x00080100 + 0x4 * i, 18, 17⟩
def Fld.MEM_REMAP.Row (i : Nat) : FieldRef := ⟨0x00080100 + 0x4 * i, 16, 0⟩
def Fld.DMA_CHCTRL.Abort (c : Nat) : FieldRef := ⟨0x00090000 + 0x40 * c, 2, 2⟩
def Fld.DMA_CHCTRL.Resume (c : Nat) : FieldRef := ⟨0x00090000 + 0x40 * c, 1, 1⟩
def Fld.DMA_CHCTRL.Enable (c : Nat) : FieldRef := ⟨0x00090000 + 0x40 * c, 0, 0⟩
def Fld.DMA_CHBASELO.BaseLo (c : Nat) : FieldRef := ⟨0x00090004 + 0x40 * c, 31, 5⟩
def Fld.DMA_CHBASEHI.BaseHi (c : Nat) : FieldRef := ⟨0x00090008 + 0x40 * c, 7, 0⟩
def Fld.DMA_CHSIZE.Entries (c : Nat) : FieldRef := ⟨0x0009000C + 0x40 * c, 16, 0⟩
def Fld.DMA_CHPROD.Prod (c : Nat) : FieldRef := ⟨0x00090010 + 0x40 * c, 15, 0⟩
def Fld.DMA_CHCONS.Cons (c : Nat) : FieldRef := ⟨0x00090014 + 0x40 * c, 15, 0⟩
def Fld.DMA_CHSTAT.LastStatus (c : Nat) : FieldRef := ⟨0x00090018 + 0x40 * c, 7, 4⟩
def Fld.DMA_CHSTAT.Halted (c : Nat) : FieldRef := ⟨0x00090018 + 0x40 * c, 2, 2⟩
def Fld.DMA_CHSTAT.Moving (c : Nat) : FieldRef := ⟨0x00090018 + 0x40 * c, 1, 1⟩
def Fld.DMA_CHSTAT.Waiting (c : Nat) : FieldRef := ⟨0x00090018 + 0x40 * c, 0, 0⟩
def Fld.DMA_CHBYTES.Bytes (c : Nat) : FieldRef := ⟨0x0009001C + 0x40 * c, 31, 0⟩
def Fld.DMA_CQBASELO.BaseLo : FieldRef := ⟨0x00090400, 31, 6⟩
def Fld.DMA_CQBASEHI.BaseHi : FieldRef := ⟨0x00090404, 7, 0⟩
def Fld.DMA_CQSIZE.Entries : FieldRef := ⟨0x00090408, 16, 0⟩
def Fld.DMA_CQPROD.Prod : FieldRef := ⟨0x0009040C, 15, 0⟩
def Fld.DMA_CQCONS.Cons : FieldRef := ⟨0x00090410, 15, 0⟩
def Fld.DMA_RATE.Rate : FieldRef := ⟨0x00090414, 4, 0⟩
def Fld.DMA_ERR.CqFull : FieldRef := ⟨0x00090418, 2, 2⟩
def Fld.DMA_ERR.ChannelHalt : FieldRef := ⟨0x00090418, 1, 1⟩
def Fld.DMA_ERR.ProdRange : FieldRef := ⟨0x00090418, 0, 0⟩
def Fld.DMA_TIMER.Enable (t : Nat) : FieldRef := ⟨0x00090440 + 0x4 * t, 31, 31⟩
def Fld.DMA_TIMER.Period (t : Nat) : FieldRef := ⟨0x00090440 + 0x4 * t, 19, 0⟩
def Fld.CRC_CTRL.Reset (u : Nat) : FieldRef := ⟨0x000A0000 + 0x40 * u, 3, 3⟩
def Fld.CRC_CTRL.Compare (u : Nat) : FieldRef := ⟨0x000A0000 + 0x40 * u, 2, 2⟩
def Fld.CRC_CTRL.Algo (u : Nat) : FieldRef := ⟨0x000A0000 + 0x40 * u, 1, 0⟩
def Fld.CRC_EXPLO.ExpLo (u : Nat) : FieldRef := ⟨0x000A0004 + 0x40 * u, 31, 0⟩
def Fld.CRC_EXPHI.ExpHi (u : Nat) : FieldRef := ⟨0x000A0008 + 0x40 * u, 31, 0⟩
def Fld.CRC_RESLO.ResLo (u : Nat) : FieldRef := ⟨0x000A000C + 0x40 * u, 31, 0⟩
def Fld.CRC_RESHI.ResHi (u : Nat) : FieldRef := ⟨0x000A0010 + 0x40 * u, 31, 0⟩
def Fld.CRC_LENLO.LenLo (u : Nat) : FieldRef := ⟨0x000A0014 + 0x40 * u, 31, 0⟩
def Fld.CRC_LENHI.LenHi (u : Nat) : FieldRef := ⟨0x000A0018 + 0x40 * u, 7, 0⟩
def Fld.CRC_STAT.Owner (u : Nat) : FieldRef := ⟨0x000A001C + 0x40 * u, 7, 4⟩
def Fld.CRC_STAT.Invalid (u : Nat) : FieldRef := ⟨0x000A001C + 0x40 * u, 3, 3⟩
def Fld.CRC_STAT.Mismatch (u : Nat) : FieldRef := ⟨0x000A001C + 0x40 * u, 2, 2⟩
def Fld.CRC_STAT.State (u : Nat) : FieldRef := ⟨0x000A001C + 0x40 * u, 1, 0⟩
def Fld.CRC_ERR.WriteBusy : FieldRef := ⟨0x000A0100, 2, 2⟩
def Fld.CRC_ERR.Invalid : FieldRef := ⟨0x000A0100, 1, 1⟩
def Fld.CRC_ERR.Mismatch : FieldRef := ⟨0x000A0100, 0, 0⟩
def Fld.TRB_NQCFG.Trigger (q : Nat) : FieldRef := ⟨0x00020800 + 0x80 * q, 23, 16⟩
def Fld.TRB_NQCFG.Timeout (q : Nat) : FieldRef := ⟨0x00020800 + 0x80 * q, 15, 1⟩
def Fld.TRB_NQCFG.PushEn (q : Nat) : FieldRef := ⟨0x00020800 + 0x80 * q, 0, 0⟩
def Fld.TRB_NQSTAT.Lost (q : Nat) : FieldRef := ⟨0x00020804 + 0x80 * q, 31, 16⟩
def Fld.TRB_NQSTAT.Underrun (q : Nat) : FieldRef := ⟨0x00020804 + 0x80 * q, 7, 7⟩
def Fld.TRB_NQSTAT.Overflow (q : Nat) : FieldRef := ⟨0x00020804 + 0x80 * q, 6, 6⟩
def Fld.TRB_NQSTAT.Count (q : Nat) : FieldRef := ⟨0x00020804 + 0x80 * q, 5, 0⟩
def Fld.TRB_NQDATA.Data (q w : Nat) : FieldRef := ⟨0x00020840 + 0x80 * q + 0x4 * w, 31, 0⟩
def Fld.TEL_QSTAT.Lost : FieldRef := ⟨0x00150800, 31, 16⟩
def Fld.TEL_QSTAT.Underrun : FieldRef := ⟨0x00150800, 7, 7⟩
def Fld.TEL_QSTAT.Count : FieldRef := ⟨0x00150800, 5, 0⟩
def Fld.TEL_QDATA.Data (w : Nat) : FieldRef := ⟨0x00150840 + 0x4 * w, 31, 0⟩
def Fld.CFG_BOOTSTAT.FailB : FieldRef := ⟨0x00010000, 31, 28⟩
def Fld.CFG_BOOTSTAT.FailA : FieldRef := ⟨0x00010000, 27, 24⟩
def Fld.CFG_BOOTSTAT.Phase : FieldRef := ⟨0x00010000, 19, 16⟩
def Fld.CFG_BOOTSTAT.NvmReleased : FieldRef := ⟨0x00010000, 8, 8⟩
def Fld.CFG_BOOTSTAT.Image : FieldRef := ⟨0x00010000, 1, 1⟩
def Fld.CFG_BOOTSTAT.Ready : FieldRef := ⟨0x00010000, 0, 0⟩
def Fld.CFG_FWVER.Version : FieldRef := ⟨0x00010004, 31, 0⟩
def Fld.CFG_IMAGEGEN.Generation : FieldRef := ⟨0x00010008, 31, 0⟩
def Fld.CFG_CONFIGID.ConfigId : FieldRef := ⟨0x0001000C, 31, 0⟩
def Fld.CFG_DIEIDLO.IdLo : FieldRef := ⟨0x00010010, 31, 0⟩
def Fld.CFG_DIEIDHI.IdHi : FieldRef := ⟨0x00010014, 31, 0⟩
def Fld.CFG_COMMIT.Commit : FieldRef := ⟨0x00010020, 4, 0⟩
def Fld.CFG_COMMITSTAT.Pending : FieldRef := ⟨0x00010024, 4, 0⟩
def Fld.CFG_CLAMPCNT.Overflow : FieldRef := ⟨0x00010030, 16, 16⟩
def Fld.CFG_CLAMPCNT.Count : FieldRef := ⟨0x00010030, 15, 0⟩
def Fld.CFG_CLAMPCTRL.Clear : FieldRef := ⟨0x00010034, 0, 0⟩
def Fld.CFG_CLAMPIDX.Index : FieldRef := ⟨0x00010038, 7, 0⟩
def Fld.CFG_CLAMPDATA.Data (w : Nat) : FieldRef := ⟨0x00010040 + 0x4 * w, 31, 0⟩
def Fld.CFG_STOKER.Load : FieldRef := ⟨0x00010050, 15, 8⟩
def Fld.CFG_STOKER.OverloadSeen : FieldRef := ⟨0x00010050, 3, 3⟩
def Fld.CFG_STOKER.Overload : FieldRef := ⟨0x00010050, 2, 2⟩
def Fld.CFG_STOKER.Level : FieldRef := ⟨0x00010050, 1, 0⟩
def Fld.CFG_STKRST.Count : FieldRef := ⟨0x00010054, 31, 0⟩
def Fld.CFG_ERR.StokerFailed : FieldRef := ⟨0x00010058, 2, 2⟩
def Fld.CFG_ERR.StokerRestart : FieldRef := ⟨0x00010058, 1, 1⟩
def Fld.CFG_ERR.ImageB : FieldRef := ⟨0x00010058, 0, 0⟩
def Fld.JNL_STATUS.Lost : FieldRef := ⟨0x00140000, 15, 8⟩
def Fld.JNL_STATUS.Writing : FieldRef := ⟨0x00140000, 1, 1⟩
def Fld.JNL_STATUS.Loaded : FieldRef := ⟨0x00140000, 0, 0⟩
def Fld.JNL_CTRL.Checkpoint : FieldRef := ⟨0x00140004, 4, 4⟩
def Fld.JNL_CTRL.ClearCal : FieldRef := ⟨0x00140004, 3, 3⟩
def Fld.JNL_CTRL.ClearTrouble : FieldRef := ⟨0x00140004, 2, 2⟩
def Fld.JNL_CTRL.ClearCounts : FieldRef := ⟨0x00140004, 1, 1⟩
def Fld.JNL_CTRL.ClearStates : FieldRef := ⟨0x00140004, 0, 0⟩
def Fld.JNL_FCPER.Minutes : FieldRef := ⟨0x00140008, 10, 0⟩
def Fld.JNL_RDAREA.Area : FieldRef := ⟨0x00140010, 2, 0⟩
def Fld.JNL_RDOFF.Offset : FieldRef := ⟨0x00140014, 19, 2⟩
def Fld.JNL_RDDATA.Data : FieldRef := ⟨0x00140018, 31, 0⟩
def Fld.JNL_RDSIZE.Bytes : FieldRef := ⟨0x0014001C, 19, 0⟩
def Fld.JNL_MAXWR.Writes : FieldRef := ⟨0x00140020, 31, 0⟩
def Fld.JNL_SPARES.Free : FieldRef := ⟨0x00140024, 7, 0⟩
def Fld.JNL_ERR.WearLimit : FieldRef := ⟨0x00140028, 2, 2⟩
def Fld.JNL_ERR.WriteFail : FieldRef := ⟨0x00140028, 1, 1⟩
def Fld.JNL_ERR.AreaLost : FieldRef := ⟨0x00140028, 0, 0⟩
def Fld.PWR_REQ.Request : FieldRef := ⟨0x00030000, 27, 0⟩
def Fld.PWR_STATE.State : FieldRef := ⟨0x00030004, 27, 0⟩
def Fld.PWR_PEND.Pending : FieldRef := ⟨0x00030008, 27, 0⟩
def Fld.PWR_LASTWAKE.Source : FieldRef := ⟨0x0003000C, 11, 8⟩
def Fld.PWR_LASTWAKE.Domain : FieldRef := ⟨0x0003000C, 3, 0⟩
def Fld.PWR_REFUSED.Domains : FieldRef := ⟨0x00030010, 13, 0⟩
def Fld.PWR_WAKECNT.Count : FieldRef := ⟨0x00030014, 31, 0⟩
def Fld.PWR_ERR.DomainLost : FieldRef := ⟨0x00030018, 2, 2⟩
def Fld.PWR_ERR.ColdToEmber : FieldRef := ⟨0x00030018, 1, 1⟩
def Fld.PWR_ERR.Refused : FieldRef := ⟨0x00030018, 0, 0⟩
def Fld.GLB_ID.Id : FieldRef := ⟨0x00000000, 31, 0⟩
def Fld.GLB_REV.Stepping : FieldRef := ⟨0x00000004, 7, 0⟩
def Fld.GLB_STATUS.Failed : FieldRef := ⟨0x00000008, 3, 3⟩
def Fld.GLB_STATUS.StokerUp : FieldRef := ⟨0x00000008, 2, 2⟩
def Fld.GLB_STATUS.Ready : FieldRef := ⟨0x00000008, 1, 1⟩
def Fld.GLB_STATUS.Pair : FieldRef := ⟨0x00000008, 0, 0⟩
def Fld.GLB_SCRATCH.Value : FieldRef := ⟨0x0000000C, 31, 0⟩
def Fld.TRB_SUMMARY.Blocks : FieldRef := ⟨0x00020000, 21, 0⟩
def Fld.TRB_CLRADDR.Addr : FieldRef := ⟨0x00020004, 31, 2⟩
def Fld.TRB_CLRMASK.Mask : FieldRef := ⟨0x00020008, 31, 0⟩
def Fld.TRB_INTEN.Fatal : FieldRef := ⟨0x00020010, 31, 31⟩
def Fld.TRB_INTEN.Enable : FieldRef := ⟨0x00020010, 26, 0⟩
def Fld.TRB_INTSRC.Fatal : FieldRef := ⟨0x00020014, 31, 31⟩
def Fld.TRB_INTSRC.Sources : FieldRef := ⟨0x00020014, 26, 0⟩
def Fld.TRB_RECSEQ.Seq : FieldRef := ⟨0x00020020, 31, 0⟩
def Fld.TRB_RECSEL.Slot : FieldRef := ⟨0x00020024, 7, 0⟩
def Fld.TRB_RECACK.Seq : FieldRef := ⟨0x00020028, 31, 0⟩
def Fld.TRB_RECDATA.Data (w : Nat) : FieldRef := ⟨0x00020040 + 0x4 * w, 31, 0⟩
def Fld.TEL_TJ.Temp : FieldRef := ⟨0x00150000, 15, 0⟩
def Fld.TEL_QCFG.Types : FieldRef := ⟨0x00150004, 20, 16⟩
def Fld.TEL_QCFG.Period : FieldRef := ⟨0x00150004, 15, 0⟩
def Fld.TEL_PUSHSEL.Types : FieldRef := ⟨0x00150008, 4, 0⟩
def Fld.TEL_FCIDX.Nozzle : FieldRef := ⟨0x00150010, 17, 0⟩
def Fld.TEL_FCLO.CountLo : FieldRef := ⟨0x00150014, 31, 0⟩
def Fld.TEL_FCHI.CountHi : FieldRef := ⟨0x00150018, 15, 0⟩
def Fld.HP_PLANE.Channel (n : Nat) : FieldRef := ⟨0x00100100 + 0x4 * n, 29, 28⟩
def Fld.HP_PLANE.ChainLen (n : Nat) : FieldRef := ⟨0x00100100 + 0x4 * n, 27, 24⟩
def Fld.HP_PLANE.RowCount (n : Nat) : FieldRef := ⟨0x00100100 + 0x4 * n, 23, 20⟩
def Fld.HP_PLANE.PortCount (n : Nat) : FieldRef := ⟨0x00100100 + 0x4 * n, 14, 8⟩
def Fld.HP_PLANE.FirstPort (n : Nat) : FieldRef := ⟨0x00100100 + 0x4 * n, 5, 0⟩
def Fld.HP_STAGLO.Row3Stagger (n : Nat) : FieldRef := ⟨0x00100120 + 0x8 * n, 30, 24⟩
def Fld.HP_STAGLO.Row2Stagger (n : Nat) : FieldRef := ⟨0x00100120 + 0x8 * n, 22, 16⟩
def Fld.HP_STAGLO.Row1Stagger (n : Nat) : FieldRef := ⟨0x00100120 + 0x8 * n, 14, 8⟩
def Fld.HP_STAGLO.Row0Stagger (n : Nat) : FieldRef := ⟨0x00100120 + 0x8 * n, 6, 0⟩
def Fld.HP_STAGHI.Row7Stagger (n : Nat) : FieldRef := ⟨0x00100124 + 0x8 * n, 30, 24⟩
def Fld.HP_STAGHI.Row6Stagger (n : Nat) : FieldRef := ⟨0x00100124 + 0x8 * n, 22, 16⟩
def Fld.HP_STAGHI.Row5Stagger (n : Nat) : FieldRef := ⟨0x00100124 + 0x8 * n, 14, 8⟩
def Fld.HP_STAGHI.Row4Stagger (n : Nat) : FieldRef := ⟨0x00100124 + 0x8 * n, 6, 0⟩
def Fld.HP_PWID.Width (n : Nat) : FieldRef := ⟨0x00100160 + 0x4 * n, 18, 0⟩
def Fld.HP_OVL.Overlap (p : Nat) : FieldRef := ⟨0x00100200 + 0x4 * p, 8, 0⟩
def Fld.LT_PITCH.Pitch (n : Nat) : FieldRef := ⟨0x000F0100 + 0x4 * n, 31, 0⟩
def Fld.LT_POFF.PlaneOffset (n : Nat) : FieldRef := ⟨0x000F0120 + 0x4 * n, 19, 0⟩

end Sys2Proof.Machine
end

