-- ==== Sys2Proof/Machine/StatePrint.lean ====
section
/-!
DEFINITION. The state of the print path: reports and registers, the page sequencer and its pages, the decode engines,
the raster pipeline, the position channels, the planes' line timing and the head ports.  Plain data; the operations
are in the families' files.
-/
namespace Sys2Proof.Machine

/-- A register file: window address to stored word, in canonical sparse form over the reset values. -/
abbrev RegFile := List (Nat × Word)

/-- R1, R2: which of the two parts the die is. -/
inductive Part | sn262 | sn131
  deriving DecidableEq, Repr

/-! ### Reports -/

/-- Table 27: a notice, before it is laid out in network byte order. -/
structure Notice where
  code : Nat
  source : Nat
  severity : Nat
  sec : Nat
  ns : Nat
  detail : Bytes
  deriving DecidableEq, Repr

/-- R427, R430: one notice queue of 32 stages with its capture buffer. -/
structure NoticeQueue where
  entries : List Notice
  capture : Bytes
  deriving DecidableEq, Repr

/-- Table 126: an entry of the trouble record. -/
structure TroubleEntry where
  sec : Nat
  code : Nat
  ns : Nat
  source : Nat
  severity : Nat
  flags : Nat
  detail : Bytes
  seq : Nat
  deriving DecidableEq, Repr

/-- The reporting state: notice queues, telemetry queue, trouble ring with the capture of R484. -/
structure Reports where
  queues : Vector NoticeQueue 4
  telQueue : List Bytes
  telCapture : Bytes
  ring : List TroubleEntry
  nextSeq : Nat
  lastSeq : Nat
  recCapture : Bytes
  deriving DecidableEq, Repr

/-! ### The page sequencer -/

/-- JOB_STATUS.SeqState (Table 19). -/
inductive SeqState | idle | following | parkedEnd | parkedHold | parkedFault | stopping
  deriving DecidableEq, Repr

/-- What the sequencer reads next: the head descriptor (R64), or the link of the descriptor at an offset, with whether
its Hold is not yet released (R77). -/
inductive SeqTarget | none | head | link (offset : Nat) (hold : Bool)
  deriving DecidableEq, Repr

/-- R140: the charges of one budget window of 4,096 grid lines of a plane: lines, engine clocks, memory bytes, and the
engine clocks of each continued stream. -/
structure BudgetWindow where
  lines : Nat
  engine : Rat
  memory : Rat
  streams : List (Nat × Rat)
  deriving DecidableEq, Repr

/-- R138 to R143: what the budget knows of a held page. -/
structure Budget where
  scanPending : Bool
  windows : List (Nat × List BudgetWindow)
  tooSlow : Bool
  tmin : Nat
  deriving DecidableEq, Repr

/-- A page's print record on one plane (R118, R148, R149): the next page line, line records not yet compressed, the
position of the next data byte, whether the last line record is written and its data sent, and the sessions that receive it. -/
structure RecordSt where
  plane : Nat
  next : Nat
  lines : List Bytes
  sentOffset : Nat
  truncated : Bool
  finished : Bool
  ended : Bool
  waiting : List Nat
  deriving DecidableEq, Repr

/-- A held page: the on-chip copy of its descriptor (R61) and its progress. -/
structure Page where
  key : Nat
  offset : Nat
  planeMask : BitVec 8
  printRecord : Bool
  pageId : BitVec 32
  length : Nat
  generation : BitVec 32
  tables : Vector (Nat × Nat) 8
  status : BitVec 16
  endsDry : Bool
  started : Vector Bool 4
  startTime : Option TimeStamp
  done : Vector Bool 8
  cancelled : Bool
  errorEntries : List Nat
  echoPorts : List Nat
  widthPlanes : List Nat
  budget : Budget
  records : List RecordSt
  deriving DecidableEq, Repr

/-- The sequencer's state (R64 to R79). -/
structure JobSt where
  seq : SeqState
  target : SeqTarget
  pages : List Page
  nextKey : Nat
  skipRun : Nat
  faultAt : Option Nat
  dry : Bool
  deriving DecidableEq, Repr

/-! ### Decoding -/

/-- A decoded source line waiting in a plane's part of the decode ring (R125). `judged`: supplied by a strip and decoded
(R157); `fault`: printed blank for a fault. -/
structure SrcLine where
  page : Nat
  index : Nat
  data : Bytes
  judged : Bool
  fault : Bool
  deriving DecidableEq, Repr

/-- R52, R127, R128, R137: what a use reports when it ends. -/
structure UseEnd where
  stripId : Nat
  dataCrcBad : Bool
  error : Option (Nat × Int)
  trailing : Bool
  symbols : Nat
  excess : Bool
  declared : Nat
  deriving DecidableEq, Repr

/-- A strip use in progress: its engine (none for raw, fill and pre-expanded copies), its stream, its lines not yet in the ring, and
what its end will report. -/
structure Use where
  engine : Option Nat
  stream : Option Nat
  page : Nat
  lines : List SrcLine
  finish : UseEnd
  deriving DecidableEq, Repr

/-- Where a plane's reading of an index table stands (R56, R57): page, the next entry to read, the offset, strip and
Repeat of the present entry with its uses left, and the source lines supplied so far. -/
structure DecodeCursor where
  page : Nat
  entry : Nat
  entryOff : Nat
  strip : Nat
  rep : Nat
  left : Nat
  lines : Nat
  deriving DecidableEq, Repr

/-- One plane's decode: cursor, the last page whose reading ended, uses in progress, and the ring part's lines. -/
structure PlaneDecode where
  cursor : Option DecodeCursor
  lastKey : Nat
  uses : List Use
  ring : List SrcLine
  deriving DecidableEq, Repr

/-- R142: a pre-expanded copy with its key; `done`: kept, else its expansion is queued; `stamp`: the order of last use. -/
structure PoolCopy where
  offset : Nat
  headerCrc : Nat
  dataCrc : Nat
  size : Nat
  done : Bool
  data : Bytes
  stamp : Nat
  deriving DecidableEq, Repr

/-- The decode block's state; `heldStreams`: which continued engine holds which stream (R135); `waits`: lines whose repair
is waited for, 1 when the wait is over (R145). -/
structure DecSt where
  planes : Vector PlaneDecode 8
  streams : List StreamSt
  heldStreams : List (Nat × Nat)
  pool : List PoolCopy
  stamp : Nat
  recordNext : Bool
  waits : List (Nat × Nat)
  deriving DecidableEq, Repr

/-! ### The raster pipeline -/

/-- A computed grid line in the row-stagger buffer (R40): page, grid line, and each port's codes by local index. -/
structure StagLine where
  page : Nat
  line : Nat
  codes : List (List Nat)
  blank : Bool
  deriving DecidableEq, Repr

/-- One plane's raster state: the next grid line to compute, the row-stagger buffer, the row errors of each port
(R187), and the taps in force (R191). -/
structure PlaneRaster where
  page : Option Nat
  line : Nat
  stag : List StagLine
  rowErr : List (List Int)
  deriving DecidableEq, Repr

/-- The raster and halftone state: the pending and adopted nozzle state maps (R173), sparse over healthy, with what
the hosts wrote since a test firing began (R176), and the planes whose copies run (R168, R195). -/
structure RasSt where
  planes : Vector PlaneRaster 8
  pendingMap : List (Nat × BitVec 2)
  adoptedMap : List (Nat × BitVec 2)
  statePend : BitVec 8
  corrWait : BitVec 8
  corrCopy : BitVec 8
  htWait : BitVec 8
  htCopy : BitVec 8
  strobeWait : BitVec 8
  hostWrites : List Nat
  deriving DecidableEq, Repr

/-! ### Position channels -/

/-- The SSI side of a channel (R203, R204): whether a good frame has loaded the counter, the last good word, its latch
edge's time and the position it gave, the difference and time between the last two good frames, the start of the
present frame, whether the counter advances between frames, and whether the present frame is discarded because the head
lines changed hands within it (R309). -/
structure SsiSt where
  loaded : Bool
  word : Nat
  latchNs : Nat
  pos : Int
  step : Option (Int × Nat)
  startNs : Nat
  advancing : Bool
  dropped : Bool
  deriving DecidableEq, Repr

/-- One position channel. Positions are signed 48-bit counts (R207). `mark`: the highest count since the channel turned
forward, or the lowest since it turned backward (R209); `windowStart`: the count at the start of the speed window. -/
structure Channel where
  pos : Int
  hwm : Int
  mark : Int
  reverse : Bool
  a : Bool
  b : Bool
  still : Bool
  settling : Bool
  windowStart : Int
  windowAfterAbandon : Bool
  fault : Bool
  doubles : List Nat
  idx : Int
  idxSeen : Bool
  idxReversed : Bool
  idxDir : Bool
  ssi : SsiSt
  deriving DecidableEq, Repr

/-- One probe: its latch and the last latch that was a page-start event (R205, R214). -/
structure Probe where
  latch : Int
  lastStart : Option Int
  deriving DecidableEq, Repr

/-! ### The planes' line timing -/

/-- LT_PSTATEn.State (Table 43). -/
inductive PlaneState | idle | running | abandoned | stopped | armed
  deriving DecidableEq, Repr

/-- A page on a plane: its start count S, its length, its next event (R210), the next event the formatter forms, the last
forward crossing with its time (R211), and the first event not fired once it is abandoned
(R219). -/
structure Run where
  page : Nat
  start : Int
  length : Nat
  next : Nat
  formed : Nat
  cross : Option (Nat × Nat)
  abandoned : Option Nat
  deriving DecidableEq, Repr

/-- A line event due: the pages' events it serves (R40), its count, its crossing time, the interval measured to it, and
whether its crossing lies before it became due (Table 41). -/
structure LineEv where
  parts : List (Nat × Nat)
  count : Int
  ns : Nat
  measured : Option Nat
  overdue : Bool
  deriving DecidableEq, Repr

/-- An event fired and not yet strobed on every port. -/
structure OpenEv where
  parts : List (Nat × Nat)
  count : Int
  strobed : List Nat
  deriving DecidableEq, Repr

/-- One plane's line timing: the pages begun and not finished, events due and events fired and not yet strobed on every
port, the last fire time, the resume event of a stop with the ports that strobed it before (R222), whether the next
line record is the first after a resume, and the NextEvent that the plane's last page left. -/
structure PlaneLine where
  state : PlaneState
  runs : List Run
  due : List LineEv
  open_ : List OpenEv
  lastFire : Option Nat
  resume : Option (List (Nat × Nat) × Int)
  heldStrobed : List Nat
  resumed : Bool
  lastNext : Nat
  deriving DecidableEq, Repr

/-- The line timing of the device with the press controller's outputs (R220 to R225); `targets`: the back-up targets
(R223); `faultStop`: channels whose fault began a stop (R228); `ns`: the arrival time of the latest edge. -/
structure LineSt where
  channels : Vector Channel 4
  probes : Vector Probe 4
  planes : Vector PlaneLine 8
  targets : Vector Int 4
  faultStop : List Nat
  haltReq : Bool
  speedWarn : Bool
  overspeed : Bool
  ns : Nat
  deriving DecidableEq, Repr

/-! ### Head ports -/

/-- A line queue entry (R241): the event it serves, its count, the codes by local index, the shifted bits' check value,
and the nozzle of a test line (R268). -/
structure Entry where
  plane : Nat
  parts : List (Nat × Nat)
  count : Int
  codes : List Nat
  lcv : Nat
  test : Option Nat
  deriving DecidableEq, Repr

/-- Where a port's shift stands: none, running, complete with its data held, or running for an entry that has been
discarded and is never latched. -/
inductive ShiftState | none | busy | done | orphan
  deriving DecidableEq, Repr

/-- A strobe placed under R216, in 1/256 ns. -/
structure PlacedStrobe where
  parts : List (Nat × Nat)
  at256 : Nat
  deriving DecidableEq, Repr

/-- A latency search (R254): running, with the latency the last qualifying shift gave. -/
structure EchoFind where
  active : Bool
  last : Option Nat
  deriving DecidableEq, Repr

/-- One head port. `whole`: the present shift has run since its start driven and with the echo check enabled; `prev`: the
entry that the last LAT pulse latched, where its shift was whole; `compare`: the shift whose returned bits are to be
compared, with the entry they should repeat (R250, R251); `lastEv`: the event of the entry latched last (R335). -/
structure Port where
  queue : List Entry
  shift : ShiftState
  n : Nat
  latHigh : Bool
  strobes : List PlacedStrobe
  prev : Option Entry
  whole : Bool
  compare : Option (Nat × Entry)
  lastEv : Option Nat
  find : EchoFind
  granted : Bool
  deriving DecidableEq, Repr

/-- A deskew run (R256): ports still to calibrate. -/
structure DeskewSt where
  running : Bool
  ports : List Nat
  journalClk : Nat
  deriving DecidableEq, Repr

/-- The head block's state; `configured`: the configuration's port set has taken effect (Table 44). -/
structure HeadSt where
  ports : Vector Port 64
  deskew : DeskewSt
  configured : Bool
  deriving DecidableEq, Repr

end Sys2Proof.Machine
end

