-- ==== Sys2Proof/Machine/StateHost.lean ====
section
/-!
DEFINITION. The state towards the hosts and the board: OJP sessions, what the device has sent, power domains, start-up
and configuration, the journal, and the firing counts.  Plain data.
-/
namespace Sys2Proof.Machine

/-! ### The Oaxia job protocol -/

/-- A sequenced device message in the window of a session (R100): its type and body, how often it was sent, its present
retransmit time in µs, whether the host's AckMap shows it held, and whether it waits for a path that carries it (R362,
R363). -/
structure DevMsg where
  kind : Nat
  seq : Nat
  body : Bytes
  tries : Nat
  rto : Nat
  hostHeld : Bool
  parked : Bool
  page : Option (Nat × Nat)
  deriving DecidableEq, Repr

/-- A device message waiting for room in the window (R100); `page`: the page and plane of a RecordData (R118). -/
structure WaitMsg where
  kind : Nat
  body : Bytes
  page : Option (Nat × Nat)
  deriving DecidableEq, Repr

/-- A sequenced host message that waits its turn (R97), with its type code. -/
structure HeldMsg where
  kind : Nat
  msg : OjpMsg
  deriving DecidableEq, Repr

/-- R89 to R100: one open session. -/
structure Session where
  ep : Endpoint
  mac : BitVec 48
  port : Fin 4
  atPair : Bool
  hostNonce : Bytes
  devNonce : Bytes
  devWindow : Nat
  hostWindow : Nat
  subscribe : BitVec 4
  keyId : Nat
  telPeriod : Nat
  maxMessage : Nat
  openReply : Bytes
  ackSeq : Nat
  held : List HeldMsg
  ackPending : Bool
  txNext : Nat
  unacked : List DevMsg
  waiting : List WaitMsg
  shrunk : Bool
  deriving DecidableEq, Repr

/-- The protocol's state: sessions, the configured keys (R112), the endpoints of the journal's former sessions (R95), and
the commands whose
frames or messages wait for a domain to be ON or for a repair (R10, R320), and a keeper's copies of the pair address's
sessions (R120). -/
structure OjpSt where
  sessions : Vector (Option Session) 16
  keys : List (Nat × Bytes)
  former : List (Endpoint × Nat)
  arrived : List Instr
  copies : List (Nat × Session)
  deriving DecidableEq, Repr

/-! ### What the device sends -/

/-- R318: kinds of message over the Igmal link, as the device sends them. -/
inductive PairOut
  | hello (h : Hello)
  | heartbeat (h : Heartbeat)
  | fatal
  | mirror (lines : List (Nat × Bytes × Bool))
  | mirrorAck (n : Nat)
  | register (addr : Nat) (value : Word)
  | sequence (msg : SeqMsg)
  | verdict (nozzle : Nat) (state : BitVec 2)
  | session (number : Nat) (copy : Option SessionCopy)
  | time (t : TimeStamp)
  | handoff (events : List (Fin 8 × Nat))
  | repairRequest (line : Nat)
  | repairAnswer (line : Nat) (data : Option Bytes)
  | rally (r : RallyRec)
  | resync (item : ResyncItem)
  | axisCommand (axis : Nat) (op : Nat)
  | axisStatus (axis : Nat) (pos vel load stat : Word)
  | deskewRequest (port : Nat)
  | deskewGrant (port : Nat) (granted : Bool)
  deriving DecidableEq, Repr

/-- R359: how a sent frame is tagged: not, with an identifier at priority 0, or as the frame that it answers. -/
inductive FrameTag | untagged | vid (v : Nat) | asAnswered
  deriving DecidableEq, Repr

/-- Everything that leaves the device, in the order it was sent. `frame`: what leaves a host port goes in a frame, with its
VLAN tag and, where it is an IP datagram, its DSCP (R359, R362). -/
inductive Out
  | frame (tag : FrameTag) (dscp : Nat) (content : Out)
  | ojp (ep : Endpoint) (mac : BitVec 48) (port : Fin 4) (payload : Bytes)
  | arp (port : Fin 4) (mac : BitVec 48) (owner : BitVec 48) (ip target : Nat)
  | neighbour (port : Fin 4) (mac : BitVec 48) (owner : BitVec 48) (ip target : Nat)
  | echoReply (port : Fin 4) (ep : Endpoint) (source : Nat) (data : Bytes)
  | announceAddress (port : Fin 4) (owner : BitVec 48) (v6 : Bool) (ip : Nat)
  | delayReq (port : Fin 4) (transport : Nat) (seqId : Nat)
  | pair (msg : PairOut)
  | pairAgain (seq : Nat) (msg : PairOut)
  | flit (bytes : Bytes)
  | flitAck (seq : Nat) (good : Bool)
  | training (lane : Nat) (bytes : Bytes)
  | service (response : Bytes)
  | lat (port : Nat) (n : Nat) (sel : Nat) (lcv : Nat)
  | latTest (port : Nat) (n : Nat) (nozzle : Nat)
  | toutEdge (k : Nat) (level : Bool)
  | ssiClock (ch : Nat) (bits : Nat)
  | dramCommand (kind : Nat) (channel : Nat)
  deriving DecidableEq, Repr

/-! ### Power domains -/

/-- R466: where a domain stands. -/
inductive DomState | on | ember | cold | toEmber | toCold | fromEmber | fromCold
  deriving DecidableEq, Repr

/-- One domain: its state, whether a wake came during its entry (R472), and the request held during an exit. -/
structure Domain where
  state : DomState
  woken : Bool
  pend : Nat
  deriving DecidableEq, Repr

/-! ### Start-up and configuration -/

/-- Table 103: a configuration record: type and fields (Table 104). -/
structure CfgRecord where
  type : Nat
  fields : List (Nat × Bytes)
  deriving DecidableEq, Repr

/-- Table 108: an entry of the clamp report. -/
structure ClampEntry where
  fieldId : Nat
  source : Nat
  kind : Nat
  width : Nat
  lsb : Nat
  given : Nat
  used : Nat
  deriving DecidableEq, Repr

/-- The typed Device and Memory fields of Table 106 in force. -/
structure TypedCfg where
  pairMode : Bool
  poolSize : Nat
  watchdogMs : Nat
  nozzleStates : Nat
  baseMac : Option Nat
  ip4 : Option Nat
  ip6 : Option Nat
  pairMac : Option Nat
  pairIp4 : Option Nat
  pairIp6 : Option Nat
  speed : Option Nat
  channels : Option Nat
  ranks : Option Nat
  density : Option Nat
  delays : List (Nat × Bytes)
  deriving DecidableEq, Repr

/-- CFG_BOOTSTAT.Phase (Table 116). -/
inductive Phase
  | fuses | sramKindling | readingA | readingB | configuring | memory | lanes | roles | ready | noImage | stokerFailed
  deriving DecidableEq, Repr

/-- Start-up, the stoker and the clamp report. -/
structure BootSt where
  inReset : Bool
  phase : Phase
  stokerUp : Bool
  stokerHalted : Bool
  records : List CfgRecord
  cfg : TypedCfg
  clamps : List ClampEntry
  clampNew : Nat
  readied : Bool
  rolesSettled : Bool
  level : Nat
  highRun : Nat
  lowRun : Nat
  restartSecs : List Nat
  cfgStates : List (Nat × BitVec 2)
  fuseHash : Bytes
  pendGeo : Option RegFile
  pendScale : Option RegFile
  pendCode : Option RegFile
  pendPort : Option RegFile
  deriving DecidableEq, Repr

/-! ### The journal -/

/-- Table 112: the content of the journal's areas as last loaded or written: the remap words by entry, the nozzle states
sparse over healthy, the state log from ring slot `logHead` (nozzle, state, source, seconds), the firing-count codes sparse
over 0, the trouble entries with the last Seq, the calibration bytes (ports 0 to 63, then ADCs), the sessions' endpoints,
and the areas that had no valid copy when it was loaded. -/
structure Journal where
  remap : List (Nat × Word)
  states : List (Nat × BitVec 2)
  log : List (Nat × Nat × Nat × Nat)
  logHead : Nat
  counts : List (Nat × Nat)
  trouble : List TroubleEntry
  lastSeq : Nat
  calib : List (Nat × Nat)
  sessions : List (Endpoint × Nat)
  lostAreas : Nat
  deriving DecidableEq, Repr

/-- A change waiting to be written to the journal (Table 114). -/
inductive JnlChange
  | state (nozzle : Nat) (st : BitVec 2) (source : Nat)
  | remap
  | calibration
  | sessions
  | trouble (e : TroubleEntry)
  | counts
  deriving DecidableEq, Repr

/-- The journal with its queue of changes, the write counts of R460 by area and copy or ring slot (65,536 × area + unit), and
the copy of each area that is written next. -/
structure JnlSt where
  area : Journal
  queue : List JnlChange
  wear : List (Nat × Nat)
  nextCopy : BitVec 8
  deriving DecidableEq, Repr

/-- R489: firing counts: 16-bit accumulators and 48-bit counters, sparse over 0, and the LAT pulses of each port since
its last fold. -/
structure FiringSt where
  acc : List (Nat × Nat)
  cnt : List (Nat × Nat)
  deriving DecidableEq, Repr

end Sys2Proof.Machine
end

