-- ==== Sys2Proof/Machine/StatePair.lean ====
section
/-!
DEFINITION. The state of pair operation: role, state and partner, mirroring, the rally, readiness, handoff, repair and
resynchronisation (R306 to R343).  Plain data.
-/
namespace Sys2Proof.Machine

/-- PAIR_STATUS.Role (Table 70). -/
inductive Role | single | striker | keeper
  deriving DecidableEq, Repr

/-- PAIR_STATUS.State (Table 70). -/
inductive PairState
  | negotiating | paired | solo | syncing | isolated | suspect | selfTest | failed | yielding
  deriving DecidableEq, Repr

/-- One open mismatch range of a plane (R329). -/
structure MisRange where
  plane : Nat
  first : Nat
  last : Nat
  pages : List Nat
  portMask : Nat
  matching : Nat
  deriving DecidableEq, Repr

/-- A job-store message whose lines the keeper has not all acknowledged (R319): its session (16 + c for DMA channel c),
the lines, and the Result it will send: status, detail and extra. -/
structure MirrorWait where
  session : Nat
  left : Nat
  result : Option (Nat × Nat × Nat)
  deriving DecidableEq, Repr

/-- A mismatched line in arbitration (R327): its plane, event, differing ports and PageId, with the evidence this device
and its partner have stated. -/
structure ArbLine where
  plane : Nat
  event : Nat
  mask : Nat
  pageId : BitVec 32
  mine : Option Bool
  theirs : Option Bool
  deriving DecidableEq, Repr

/-- Pair operation. `strkIn`: the accepted STRK_IN; `driving`: the device drives the head ports as their striker;
`begun`: planes that have begun a page since resynchronisation (R332); `resynced`: it has completed (R340);
`validStore`: the store holds an earlier pairing's content (R310); `locked`: Isolated until reset (R311);
`soloChecks`: resamples of STRK_IN still due (R311); `takePending`: the lines are to be taken once STRK_IN is low;
`own`, `partner`: rally records without their partner's; `mis`: plane and event of mismatched lines (R330); `evidence`:
lines with evidence against the device (R327); `arb`: mismatched lines whose evidence is not yet stated on both sides; `heldFetch`: descriptors named and under repair (R320); `handoffAt`: H_n per plane; `handedPorts`: ports
that have passed in the handoff (R335); `lateMonitor`: ports with pulses counted for lines not yet formatted (R323); `gap`: the device has resynchronised and streams may have a
history from before the copy; `lacking`: planes, by page, that wait for such a stream; `dueStreams`: streams whose state
the striker sends at its next save (R339, R340). -/
structure PairSt where
  mode : Bool
  role : Role
  state : PairState
  partnerState : Nat
  partnerReady : BitVec 8
  strkIn : Bool
  driving : Bool
  begun : BitVec 8
  resynced : Bool
  validStore : Bool
  locked : Bool
  soloChecks : Nat
  takePending : Bool
  own : List RallyRec
  partner : List RallyRec
  ranges : List MisRange
  mis : List (Nat × Nat)
  evidence : List (Nat × Nat)
  arb : List ArbLine
  mirrors : List MirrorWait
  repairs : List Nat
  heldFetch : List (Nat × Word)
  handoffAt : List (Nat × Nat)
  handedPorts : List Nat
  handoffReason : Nat
  lateMonitor : List Nat
  copied : Nat
  gap : Bool
  lacking : List (Nat × Nat × Nat)
  dueStreams : List Nat
  deriving DecidableEq, Repr

end Sys2Proof.Machine
end

