-- ==== Sys2Proof/Machine/StateMem.lean ====
section
/-!
DEFINITION. The state of the memories: the job store behind the DRAM channels, and the memory controller's sweeper,
remap and replay state (R379 to R409).  Plain data.
-/
namespace Sys2Proof.Machine

/-- The job store and what is known of its lines: bytes, sparse over 0 (R407: kindling writes zeros), poisoned lines
(R390), the kindling watermark and the 64 KiB blocks kindled above it (R409), and the damaged lines that a whole-line
write has replaced, each with the second it did so (R403). -/
structure Mem where
  store : List Host.Cell
  poison : List Nat
  watermark : Nat
  blocks : List Nat
  replaced : List (Nat × Nat)
  deriving DecidableEq, Repr

/-- The memory controller: the next line the sweeper reads; the (row, column) pairs corrected in the present pass and the
(rank, symbol, row) triples corrected (R403), rows and ranks as words of MEM_REMAP's layout; lines queued for a reread
(R393); damaged lines waiting for R400, each with whether its notice was raised; strips' lines a resend was asked for
(R117); for each channel its consecutive replays not accepted (R385) and cool readings (R386); remaps in progress (R404);
an ember request held while kindling runs (R387); the last SRAM address swept (R398). -/
structure MemCtl where
  sweepNext : Nat
  ceCols : List (Nat × Nat)
  ceSyms : List (Nat × Nat × Nat)
  reread : List Nat
  live : List (Nat × Bool)
  resent : List Nat
  replays : Vector Nat 4
  cool : Vector Nat 4
  remaps : List Nat
  emberHeld : Bool
  sramLast : Nat
  deriving DecidableEq, Repr

end Sys2Proof.Machine
end

