-- ==== Sys2Proof/Machine/StateDrive.lean ====
section
/-!
DEFINITION. The state of drop detection (R263 to R279) and of the motion axes (R280 to R305).  Plain data.
-/
namespace Sys2Proof.Machine

/-- A test shot of the nozzle in hand: when LAT rose, in ns, and the latency of the first pulse in its window. -/
structure TestShot where
  lat : Nat
  hit : Option Nat
  deriving DecidableEq, Repr

/-- Where a gate stands: in no sweep, its lift moving, its carriage moving, settling, firing, waiting for the stoker's load
to be relieved before its next segment (R278), or its sweep ended. -/
inductive GatePhase | idle | lifting | moving | settling | firing | waiting | ended
  deriving DecidableEq, Repr

/-- One gate's sweep (R265): its plane, the range, the segment in hand by its first column, the segment's nozzles and those
not yet judged, the shots of the nozzle in hand, the stray pulses of the segment, and whether it is the segment's
second attempt (R271). -/
structure GateSt where
  phase : GatePhase
  plane : Nat
  first : Nat
  last : Nat
  column : Nat
  nozzles : List Nat
  todo : List Nat
  shots : List TestShot
  strays : Nat
  retry : Bool
  deriving DecidableEq, Repr

/-- The sweep: running, stopping (R276), whether a page start was rejected in it (R275), whether an accepted Start waits for
the load to be relieved (R278), and the gates. -/
structure DdSt where
  running : Bool
  stopping : Bool
  rejected : Bool
  held : Bool
  gates : Vector GateSt 4
  deriving DecidableEq, Repr

/-- MOT_STATa.State (Table 59). -/
inductive AxisState | disabled | rest | standstill | moving | stopping | homing
  deriving DecidableEq, Repr

/-- R289: a change of speed from `v0` to `v1`, or a cruise where they are equal, lasting `t` ns. -/
structure Ramp where
  v0 : Nat
  v1 : Nat
  t : Nat
  deriving DecidableEq, Repr

/-- A planned motion: its ramp shape, where it began, its direction, its parts, the distance it must cover (none: it ends where its last
ramp ends), how long it has run in ns, and the target of the move that follows it (R291). -/
structure Plan where
  shape : Nat
  start : Int
  up : Bool
  ramps : List Ramp
  reach : Option Nat
  elapsed : Nat
  next : Option Int
  deriving DecidableEq, Repr

/-- One axis: its state, its plan, whether the coils have been energised and the ramp waits (R288), whether homing has found
its home and backs off (R297), the regulator's integrators and duties, the currents of the last period, the load angles
averaged, and for how many periods running their average has exceeded StallAngle. -/
structure AxisSt where
  state : AxisState
  homed : Bool
  ownerLost : Bool
  plan : Option Plan
  waiting : Bool
  backing : Bool
  accA : Int
  accB : Int
  dutyA : Int
  dutyB : Int
  ia : Int
  ib : Int
  deltas : List Int
  overshoot : Nat
  deriving DecidableEq, Repr

/-- The axes with the accepted levels of the limit inputs (R293), and the axes whose ADC is being calibrated (R301). -/
structure MotSt where
  axes : Vector AxisSt 8
  limits : BitVec 16
  calRun : Option (BitVec 8)
  deriving DecidableEq, Repr

end Sys2Proof.Machine
end

