-- ==== Sys2Proof/Machine/StateIo.lean ====
section
/-!
DEFINITION. The state of the serial lanes and the Igmal link (R344 to R357), of network time and the timed outputs
(R364 to R374), and of the DMA channels, check units and their completion ring (R411 to R426).  Plain data.
-/
namespace Sys2Proof.Machine

/-! ### Lanes -/

/-- R352 to R354: one pair lane's training: the last Tag sent and the request that waits for its answer, the tap searched
(0 Post, 1 Pre, 2 Main, 3 Post again), the direction and whether it has improved FOM, the FOM before the request, this
end's State, the far end's State, the Tag of the far end's last request and the response given to it. -/
structure LaneTrain where
  tag : Nat
  request : Option Nat
  phase : Nat
  up : Bool
  improved : Bool
  lastFom : Nat
  own : Nat
  far : Nat
  farTag : Option Nat
  response : Nat
  deriving DecidableEq, Repr

/-- R355 to R357: the Igmal link: up, the next Seq expected and the next to send, and the flits not acknowledged, each with
its Seq, how often it was replayed, and its message. -/
structure LinkSt where
  up : Bool
  rxNext : Nat
  txNext : Nat
  unacked : List (Nat × Nat × PairOut)
  deriving DecidableEq, Repr

/-- The lanes; `refclk`: REFCLK is present and in range (R345). -/
structure LaneSt where
  refclk : Bool
  train : Vector LaneTrain 8
  link : LinkSt
  deriving DecidableEq, Repr

/-! ### Network time -/

/-- An exchange in progress with the chosen master (R371): Sync's sequence number, t1 where it is known, t2, and the
Delay_Req's sequence number with t3, and t4.  Timestamps are in 1/65,536 ns. -/
structure Exchange where
  syncSeq : Nat
  t1 : Option Int
  t2 : Int
  corr : Int
  reqSeq : Option Nat
  t3 : Int
  t4 : Option Int
  deriving DecidableEq, Repr

/-- PTP: the announces heard, the master and port in use, the exchange, the next Delay_Req's number, the exchange count, the
last complete exchange's timestamps, and the runs of R371's Locked. -/
structure PtpSt where
  masters : List PtpAnnounce
  chosen : Option (Nat × Fin 4)
  transport : Nat
  exch : Option Exchange
  reqNext : Nat
  seq : Nat
  stamps : List Int
  goodRun : Nat
  badRun : Nat
  deriving DecidableEq, Repr

/-- A timed output (R373, R374): T, the latest edge time fired or passed, the next edge time (none: not armed), the period
(none in one-shot), the width, and while its pulse is active the time it ends.  Times are in ns. -/
structure Tout where
  start : Int
  last : Option Int
  next : Option Int
  period : Option Nat
  width : Nat
  active : Option Int
  deriving DecidableEq, Repr

/-- The TIME island: the increment in force and the one that the next tick applies, the steps that wait for the next tick, all
in 2^-32 ns, PTP and the outputs. -/
structure TimeSt where
  incr : Nat
  incrNext : Option Nat
  steps : List Int
  ptp : PtpSt
  touts : Vector Tout 8
  deriving DecidableEq, Repr

/-! ### DMA and check units -/

/-- R413: a fetched descriptor; `bad`: malformed, or of a bad ring. -/
structure DmaDesc where
  slot : Nat
  control : Nat
  count : Nat
  src : Nat
  dst : Nat
  index : Nat
  tag : Nat
  bad : Bool
  deriving DecidableEq, Repr

/-- Where a channel stands: no descriptor fetched, waiting for its trigger, waiting for its check unit, moving, waiting for
the keeper's acknowledgement of mirrored lines, or waiting for room in the completion ring. -/
inductive DmaPhase | none | trigger | unit | moving | mirror | record
  deriving DecidableEq, Repr

/-- What a finished descriptor will record: status, bytes done and flags (Table 96). -/
structure DmaOutcome where
  status : Nat
  bytes : Nat
  flags : Nat
  deriving DecidableEq, Repr

/-- One channel; `abort`: Abort was written while its descriptor was under way (R419). -/
structure DmaChan where
  phase : DmaPhase
  desc : Option DmaDesc
  outcome : Option DmaOutcome
  abort : Bool
  deriving DecidableEq, Repr

/-- One check unit (R424): the channel that claims it, the register, and the bytes fed. -/
structure CrcUnit where
  claim : Option Nat
  acc : Nat
  len : Nat
  deriving DecidableEq, Repr

/-- The DMA block: channels, the channels whose records wait, in completion order, the Phase of the present pass, units. -/
structure DmaSt where
  chans : Vector DmaChan 16
  waiting : List Nat
  phase : Bool
  units : Vector CrcUnit 4
  deriving DecidableEq, Repr

end Sys2Proof.Machine
end

