-- ==== Sys2Proof/Machine/State.lean ====
section
/-!
DEFINITION. The whole state of the device: `Dev` is everything but the job store, `Mem` the job store behind the DRAM
channels, and `State` the two with the queue of waiting commands.
-/
namespace Sys2Proof.Machine

/-- Everything the device holds but the job store and the queue of commands. -/
structure Dev where
  part : Part
  devNum : Nat
  win : RegFile
  act : RegFile
  now : TimeStamp
  rep : Reports
  job : JobSt
  dec : DecSt
  ras : RasSt
  lt : LineSt
  hp : HeadSt
  dd : DdSt
  mot : MotSt
  ojp : OjpSt
  pair : PairSt
  pwr : Vector Domain 14
  boot : BootSt
  memc : MemCtl
  jnl : JnlSt
  lane : LaneSt
  time : TimeSt
  dma : DmaSt
  fire : FiringSt
  out : List Out
  free : Nat
  deriving DecidableEq, Repr

/-- The machine: the device, its job store, and the commands waiting, first in, first out. -/
structure State where
  dev : Dev
  mem : Mem
  pending : List Instr
  deriving DecidableEq, Repr

/-- No command of this device stops the machine with a fault: every command completes. -/
inductive Fault
  deriving DecidableEq, Repr

/-- Why a command has no meaning. -/
inductive Refusal
  /-- Raised by an arm of `exec` whose command has no meaning yet; safe, since no claim about it can be made. -/
  | notModelled (mnemonic : String)
  deriving DecidableEq, Repr

/-! ### Reset -/

/-- A journal that holds nothing in any area: a new die's (log 10). -/
def freshJournal : JnlSt := ⟨⟨[], [], [], 0, [], [], 0, [], [], 0⟩, [], [], 0#8⟩

/-- Table 106's defaults. -/
def defaultCfg : TypedCfg :=
  ⟨false, 4, 100, 0, none, none, none, none, none, none, none, none, none, none, []⟩

/-- A channel at reset (R199 to R212): counter and high-water mark 0, at standstill. -/
def resetChannel : Channel :=
  ⟨0, 0, 0, false, false, false, true, false, 0, false, false, [], 0, false, false, false,
    ⟨false, 0, 0, 0, none, 0, false, false⟩⟩

/-- A plane's line timing at reset: idle. -/
def resetPlane : PlaneLine := ⟨.idle, [], [], [], none, none, [], false, 0⟩

/-- A port at reset: LAT low, nothing queued. -/
def resetPort : Port := ⟨[], .none, 0, false, [], none, false, none, none, ⟨false, none⟩, false⟩

/-- An axis at reset: Disabled and not homed. -/
def resetAxis : AxisSt := ⟨.disabled, false, false, none, false, false, 0, 0, 0, 0, 0, 0, [], 0⟩

/-- The lanes at reset: every pair lane untrained, the link down. -/
def resetLanes : LaneSt := ⟨true, Vector.replicate 8 ⟨0, none, 0, true, false, 0, 0, 0, none, 0⟩, ⟨false, 1, 1, []⟩⟩

/-- The TIME island at reset: an increment of 4 ns, nothing armed (R368, R373). -/
def resetTime : TimeSt :=
  ⟨4 * 2 ^ 32, none, [], ⟨[], none, 0, none, 0, 0, [], 0, 0⟩, Vector.replicate 8 ⟨0, none, none, none, 1000, none⟩⟩

/-- Pair state at reset: no role settled, no partner heard. -/
def resetPair : PairSt :=
  { mode := false, role := .single, state := .negotiating, partnerState := 0, partnerReady := 0#8, strkIn := false
    driving := false, begun := 0#8, resynced := false, validStore := false, locked := false, soloChecks := 0
    takePending := false, own := [], partner := [], ranges := [], mis := [], evidence := [], arb := [], mirrors := []
    repairs := [], heldFetch := [], handoffAt := [], handedPorts := [], handoffReason := 0, lateMonitor := [], copied := 0
    gap := false, lacking := [], dueStreams := [] }

/-- Start-up state at reset: held in reset, the fuses unread. -/
def resetBoot (fuseHash : Bytes) : BootSt :=
  { inReset := true, phase := .fuses, stokerUp := false, stokerHalted := false, records := [], cfg := defaultCfg
    clamps := [], clampNew := 0, readied := false, rolesSettled := false, level := 0, highRun := 0, lowRun := 0
    restartSecs := [], cfgStates := [], fuseHash := fuseHash, pendGeo := none, pendScale := none, pendCode := none
    pendPort := none }

/-- The domains at reset: all ON, but PAIR on the SN4-131, which is always cold (R4, R466). -/
def resetDomains : Part → Vector Domain 14
  | .sn262 => Vector.replicate 14 ⟨.on, false, 0⟩
  | .sn131 => (Vector.replicate 14 ⟨.on, false, 0⟩).set 4 ⟨.cold, false, 0⟩

/-- The memory controller at reset. -/
def resetMemCtl : MemCtl :=
  ⟨0, [], [], [], [], [], Vector.replicate 4 0, Vector.replicate 4 0, [], false, 0⟩

/-- A device held in reset (R436): every register at its reset value, every output at its reset state, and only what
survives a reset kept: the part, DEVSEL as last read, the fuses' key hash, and the journal. -/
def heldInReset (part : Part) (devNum : Nat) (fuseHash : Bytes) (jnl : JnlSt) : Dev :=
  { part := part, devNum := devNum, win := [], act := [], now := ⟨0, 0, 0⟩
    rep := ⟨Vector.replicate 4 ⟨[], []⟩, [], [], [], 1, 0, []⟩
    job := ⟨.idle, .none, [], 1, 0, none, false⟩
    dec := ⟨Vector.replicate 8 ⟨none, 0, [], []⟩, [], [], [], 0, false, []⟩
    ras := ⟨Vector.replicate 8 ⟨none, 0, [], []⟩, [], [], 0#8, 0#8, 0#8, 0#8, 0#8, 0#8, []⟩
    lt := ⟨Vector.replicate 4 resetChannel, Vector.replicate 4 ⟨0, none⟩, Vector.replicate 8 resetPlane,
      Vector.replicate 4 0, [], false, false, false, 0⟩
    hp := ⟨Vector.replicate 64 resetPort, ⟨false, [], 0⟩, false⟩
    dd := ⟨false, false, false, false, Vector.replicate 4 ⟨.idle, 0, 0, 0, 0, [], [], [], 0, false⟩⟩
    mot := ⟨Vector.replicate 8 resetAxis, 0#16, none⟩
    ojp := ⟨Vector.replicate 16 none, [], [], [], []⟩
    pair := resetPair, pwr := resetDomains part, boot := resetBoot fuseHash, memc := resetMemCtl, jnl := jnl
    lane := resetLanes, time := resetTime
    dma := ⟨Vector.replicate 16 ⟨.none, none, none, false⟩, [], true, Vector.replicate 4 ⟨none, 0, 0⟩⟩
    fire := ⟨[], []⟩, out := [], free := 0 }

/-- The job store with nothing written, nothing poisoned and nothing kindled (R407). -/
def emptyStore : Mem := ⟨[], [], 0, [], []⟩

/-- The key hash in the fuses, which no rule states: free bytes (log 2). -/
def fuseHashBytes : Bytes := (List.range 32).map Config.fuseByte

/-- The machine right after reset: RESET_N has been low and its release is the next thing to come (RESET_RELEASE). The part
is the SN4-262 and its journal a new die's (log 10). -/
def State.reset : State := ⟨heldInReset .sn262 0 fuseHashBytes freshJournal, emptyStore, []⟩

end Sys2Proof.Machine
end

