-- ==== Sys2Proof/Machine/Ops.lean ====
section
/-!
DEFINITION. The named operations over registers and the job store: the one place where a register word or a field is
read, written, set or counted, and where the job store's bytes are read and written.
-/
namespace Sys2Proof.Machine

/-! ### Reset values of the window -/

/-- The sine table of R287 at reset is `round(4095 sin(u 90/256))`; the integer rounding is computed from the half-angle
recurrence below in 1/2^40 units. -/
def sinScale : Nat := 2 ^ 40

/-- sin(x) for x in units of 1/2^40 rad by its series, `n` terms from term index `k` with present term `t`. -/
def sinSeries : Nat → Nat → Int → Int → Int
  | 0, _, _, _ => 0
  | n + 1, k, x2, t =>
    t + sinSeries n (k + 1) x2 (- (Int.fdiv (Int.fdiv (t * x2) sinScale) ((2 * k + 2) * (2 * k + 3) : Nat)))

/-- `round(a sin(u 90/256))` for u in 0..256 (R286, R287). -/
def sineRound (a u : Nat) : Nat :=
  let x : Int := Int.fdiv ((u : Int) * 1727108826179) 256
  let s := sinSeries 12 0 (Int.fdiv (x * x) sinScale) x
  (Int.fdiv (2 * s * a + sinScale) (2 * sinScale)).toNat

/-- The reset value that a register's fields give (Types RO to RWS, Table 4). -/
def fieldsReset (fs : List FieldSpec) : Nat :=
  fs.foldl (fun a f => a + (f.rst % 2 ^ (f.hi + 1 - f.lo)) * 2 ^ f.lo) 0

/-- The instance of a row of a register table that lies at address `a`, if one does: its two indexes. -/
def RegSpec.index (r : RegSpec) (a : Nat) : Option (Nat × Nat) :=
  if a < r.base then none
  else
    let d := a - r.base
    if r.s1 = 0 then (if d = 0 then some (0, 0) else none)
    else
      let i := d / r.s1
      let e := d % r.s1
      if r.s2 = 0 then (if e = 0 ∧ i < r.n1 then some (i, 0) else none)
      else if r.s1 = 4 ∧ r.s2 = 4 then none
      else
        let j := e / r.s2
        if e % r.s2 = 0 ∧ i < r.n1 ∧ j < r.n2 then some (i, j) else none

/-- The first row of a block's tables that holds an address. -/
def findReg : List RegSpec → Nat → Option (RegSpec × Nat × Nat)
  | [], _ => none
  | r :: rs, a =>
    match r.index a with
    | some (i, j) => some (r, i, j)
    | none => findReg rs a

/-- The row of the register tables that holds an address (Table 3). -/
def regSpecAt (a : Nat) : Option (RegSpec × Nat × Nat) :=
  if a < 22 * 0x10000 then findReg (blockRegs.getD (a / 0x10000) []) a else none

/-- NZT window: 0x0100_0000, one word for each nozzle number (R164). -/
def isNzt (a : Nat) : Bool := decide (0x01000000 ≤ a ∧ a < 0x01100000)

/-- THR window: the arrays of planes 0 to 7 (R192). -/
def isThr (a : Nat) : Bool := decide (0x02000000 ≤ a ∧ a < 0x02080000)

/-- The nozzle of an NZT word. -/
def nztNozzle (a : Nat) : Nat := (a - 0x01000000) / 4

/-- The last nozzle number of a part (Table 1). -/
def Part.maxNozzle : Part → Nat
  | .sn262 => 262143
  | .sn131 => 131071

/-- The head ports a part drives (Table 1). -/
def Part.portCount : Part → Nat
  | .sn262 => 64
  | .sn131 => 32

/-- The reset value of the word at an address: the tables' values, with the rows whose reset value is a formula
(Tables 36, 38, 59, 131). -/
def resetWord (p : Part) (a : Nat) : Word :=
  if isNzt a then (if nztNozzle a ≤ p.maxNozzle then 0x80#32 else 0#32)
  else if a = 0 then (match p with | .sn262 => 0x53460262#32 | .sn131 => 0x53460131#32)
  else
    match regSpecAt a with
    | none => 0#32
    | some (r, _, w) =>
      if r.base = Adr.RAS_CURVE 0 0 then
        BitVec.ofNat 32 ((4 * w + 3) * 0x1000000 + (4 * w + 2) * 0x10000 + (4 * w + 1) * 0x100 + 4 * w)
      else if r.base = Adr.HT_DROP 0 0 then
        BitVec.ofNat 32 ((if w = 3 then 0 else 36 * (2 * w + 2)) * 0x10000 + 36 * (2 * w + 1))
      else if r.base = Adr.MOT_USTEP 0 0 then
        BitVec.ofNat 32 (sineRound 4095 (2 * w + 1) * 0x10000 + sineRound 4095 (2 * w))
      else BitVec.ofNat 32 (fieldsReset r.flds)

/-! ### Registers and fields -/

/-- The stored word of a register: what was last written or set, or its reset value. -/
def Dev.reg (d : Dev) (a : Nat) : Word := spGet (resetWord d.part a) d.win a

/-- Sets the stored word of a register. -/
def Dev.setReg (d : Dev) (a : Nat) (w : Word) : Dev :=
  { d with win := spPut (resetWord d.part a) a w d.win }

/-- A field of a register as stored. -/
def Dev.rd (d : Dev) (f : FieldRef) : Nat := bitsOf (d.reg f.addr).toNat f.hi f.lo

/-- Sets a field of a register. -/
def Dev.wr (d : Dev) (f : FieldRef) (v : Nat) : Dev :=
  d.setReg f.addr (setBits (d.reg f.addr) f.hi f.lo v)

/-- R475: sets a sticky bit. -/
def Dev.sticky (d : Dev) (f : FieldRef) : Dev := d.wr f 1

/-- A wrapping counter counts one. -/
def Dev.bump (d : Dev) (f : FieldRef) : Dev := d.wr f (d.rd f + 1)

/-- A saturating counter counts `n`. -/
def Dev.bumpSat (d : Dev) (f : FieldRef) (n : Nat) : Dev :=
  d.wr f (min (2 ^ (f.hi + 1 - f.lo) - 1) (d.rd f + n))

/-- The word in force of a register of a shadow set (R41, R168, R449). -/
def Dev.actReg (d : Dev) (a : Nat) : Word := spGet (resetWord d.part a) d.act a

/-- A field's legal range applied to a value: the nearest legal one (R449), with the limits of the SN4-131 (R5), the
signed limit of RAS_REGn (R158) and the VLAN identifiers of R359. -/
def clampField (p : Part) (r : RegSpec) (f : FieldSpec) (v : Nat) : Nat :=
  let v := match f.lim with
    | some (lo, hi) => clampNat lo hi v
    | none => v
  if r.base = Adr.RAS_REG 0 then (if v = 0x8000 then 0x8001 else v)
  else if r.base = Adr.NET_PCTRL 0 ∧ f.lo = 16 then (if v = 0 ∨ v = 4095 then 1 else v)
  else
    match p with
    | .sn262 => v
    | .sn131 =>
      if r.base = Adr.HP_PLANE 0 ∧ f.lo = 0 then min v 31
      else if r.base = Adr.HP_DSKCTRL ∧ f.lo = 0 then min v 31
      else if r.base = Adr.RAS_PEEKIDX ∨ r.base = Adr.TEL_FCIDX ∨ r.base = Adr.DD_FIRST 0 ∨ r.base = Adr.DD_LAST 0 then
        min v 131071
      else if r.base = Adr.MEM_RMREQ ∧ f.lo = 28 then min v 1
      else v

/-- The value of a field in force, with the clamp applied when its set takes effect (R44, R449). -/
def Dev.inForce (d : Dev) (f : FieldRef) : Nat :=
  let v := bitsOf (d.actReg f.addr).toNat f.hi f.lo
  match regSpecAt f.addr with
  | none => v
  | some (r, _, _) =>
    match r.flds.find? (fun g => g.hi = f.hi ∧ g.lo = f.lo) with
    | some g => clampField d.part r g v
    | none => v

/-- The shadow set an address belongs to (R42, R166, R167, R195, R196, R259, R260). -/
def setOf (a : Nat) : ShadowSet :=
  if isNzt a then .correction
  else if isThr a then .halftone
  else
    match regSpecAt a with
    | some (r, _, _) => r.set
    | none => .none

/-- The part of a register file at the addresses with a property. -/
def RegFile.where_ (f : RegFile) (p : Nat → Bool) : RegFile := f.filter (fun e => p e.1)

/-- A register file with the words at the addresses with a property taken from another. -/
def RegFile.replace (dst src : RegFile) (p : Nat → Bool) : RegFile :=
  let kept := dst.filter (fun e => !p e.1)
  let new := src.filter (fun e => p e.1)
  spMerge (kept.length + new.length) kept new

/-! ### Roles and domains -/

/-- R6, R341: the device acts as keeper. -/
def Dev.isKeeper (d : Dev) : Bool := decide (d.pair.role = .keeper)

/-- A domain is ON (Table 29 numbers). -/
def Dev.domOn (d : Dev) (k : Nat) : Bool :=
  match d.pwr[k]? with
  | some x => decide (x.state = .on)
  | none => false

/-- CFG_BOOTSTAT.Ready: the device is ready for jobs (R437). -/
def Dev.isReady (d : Dev) : Bool := d.boot.readied && !d.boot.inReset

/-- A free value drawn: the counter steps on. -/
def Dev.draw (d : Dev) : Dev := { d with free := d.free + 1 }

/-- What leaves the device is appended to what has left it. -/
def Dev.emit (d : Dev) (o : Out) : Dev := { d with out := d.out ++ [o] }

/-! ### The time counter -/

/-- Nanoseconds of a time stamp since the epoch. -/
def TimeStamp.total (t : TimeStamp) : Int := (t.sec : Int) * 1000000000 + t.ns

/-! ### The job store -/

/-- The 64-byte line of an offset (R103). -/
def lineOf (a : Nat) : Nat := a / 64 * 64

/-- R46: JOB_LIMIT as JOB_LIMITLO and JOB_LIMITHI hold it. -/
def Dev.jobLimit (d : Dev) : Nat :=
  (d.reg Adr.JOB_LIMITLO).toNat + 2 ^ 32 * d.rd Fld.JOB_LIMITHI.LimitHi

/-- One byte of the job store as stored; bytes that nothing has written hold 0 (R407). -/
def Mem.byte (m : Mem) (a : Nat) : Byte := spGet 0#8 m.store a

/-- `n` stored bytes from an offset. -/
def Mem.raw (m : Mem) (a : Nat) : Nat → Bytes
  | 0 => []
  | n + 1 => m.byte a :: Mem.raw m (a + 1) n

/-- R408: one byte as a read sees it: 0 in a line at or above the kindling watermark. -/
def Mem.seen (m : Mem) (a : Nat) : Byte := if m.watermark ≤ lineOf a then 0#8 else m.byte a

/-- `n` bytes from an offset as a read sees them. -/
def Mem.read (m : Mem) (a : Nat) : Nat → Bytes
  | 0 => []
  | n + 1 => m.seen a :: Mem.read m (a + 1) n

/-- One byte written. -/
def Mem.set (m : Mem) (a : Nat) (b : Byte) : Mem := { m with store := spPut 0#8 a b m.store }

/-- Bytes written at ascending offsets. -/
def Mem.write (m : Mem) (a : Nat) : Bytes → Mem
  | [] => m
  | b :: bs => Mem.write (m.set a b) (a + 1) bs

/-- The canonical form of the job store: offsets strictly rising, no byte listed that reads as an unlisted one. -/
def Mem.wf (m : Mem) : Bool := spSorted m.store && m.store.all (fun e => e.2 != 0#8)

/-- The lines that `n` bytes from an offset touch, ascending. -/
def linesOf (a n : Nat) : List Nat :=
  if n = 0 then [] else (List.range ((a + n - 1) / 64 - a / 64 + 1)).map (fun i => (a / 64 + i) * 64)

/-- The finds of a command name the line with the given find. -/
def foundAs (finds : Finds) (f : LineFind) (line : Nat) : Bool := finds.any (fun e => e.1 == line && decide (e.2 = f))

/-- Is the line damaged to a reader: poisoned, or found uncorrectable by this command's read (R391 to R393)?  A line at
or above the watermark never is (R408). -/
def Mem.bad (m : Mem) (finds : Finds) (line : Nat) : Bool :=
  decide (line < m.watermark) && (m.poison.contains line || foundAs finds .uncorrectable line)

/-- The line is marked poisoned (R393). -/
def Mem.poisonLine (m : Mem) (line : Nat) : Mem := { m with poison := insNat line m.poison }

/-- A whole-line write clears the line's poison; the replacement of a damaged line is remembered (R403). -/
def Mem.heal (m : Mem) (sec line : Nat) : Mem :=
  if m.poison.contains line then
    { m with poison := delNat line m.poison, replaced := (m.replaced.filter (fun e => e.1 != line)) ++ [(line, sec)] }
  else m

/-- R409: the first write into a 64 KiB block at or above the watermark sets its bit. -/
def Mem.block (m : Mem) (line : Nat) : Mem :=
  if m.watermark ≤ line then { m with blocks := insNat (line / 65536) m.blocks } else m

/-- R395: the part of a host write that lies in one line: a whole line is written good; a part is merged, and a damaged
line stays poisoned, which the second component says. -/
def Mem.mergeLine (m : Mem) (finds : Finds) (sec line a : Nat) (bs : Bytes) : Mem × Bool :=
  let lo := max a line
  let part := (bs.drop (lo - a)).take (line + 64 - lo)
  let m1 := (m.block line).write lo part
  if part.length = 64 then (m1.heal sec line, false)
  else if m.bad finds line then (m1.poisonLine line, true)
  else (m1, false)

/-- A host write, line by line; the lines that merged into damaged data (R104). -/
def Mem.mergeLines (finds : Finds) (sec a : Nat) (bs : Bytes) : List Nat → Mem → Mem × List Nat
  | [], m => (m, [])
  | l :: ls, m =>
    let r := m.mergeLine finds sec l a bs
    let q := Mem.mergeLines finds sec a bs ls r.1
    (q.1, if r.2 then l :: q.2 else q.2)

/-- R47, R395: a host write of bytes at an offset. -/
def Mem.hostWrite (m : Mem) (finds : Finds) (sec a : Nat) (bs : Bytes) : Mem × List Nat :=
  Mem.mergeLines finds sec a bs (linesOf a bs.length) m

end Sys2Proof.Machine
end

