-- ==== Sys2Proof/Machine/Report.lean ====
section
/-!
DEFINITION. Reporting: forming and sending OJP messages of the device (R86, R99, R100), notices and their queues
(R428 to R431, R480, R481), and the trouble record (R482, R483).
-/
namespace Sys2Proof.Machine

/-! ### Sequence numbers (R96) -/

/-- The sequence number `n` places after `s`, skipping 0. -/
def seqAdd (s n : Nat) : Nat := (s + (2 ^ 32 - 2) + n) % (2 ^ 32 - 1) + 1

/-- R96: `a` is before `b`. -/
def seqBefore (a b : Nat) : Bool :=
  let x := (b + 2 ^ 32 - a) % 2 ^ 32
  decide (1 ≤ x ∧ x ≤ 2 ^ 31 - 1)

/-! ### Messages of the device -/

/-- The 28-byte header of Table 21. -/
def ojpHeader (kind flags session bodyLen seq ackSeq ackMap crc : Nat) : Bytes :=
  natBE 2 0x4F4A ++ natBE 1 1 ++ natBE 1 kind ++ natBE 1 flags ++ natBE 1 session ++ natBE 2 bodyLen ++
    natBE 4 seq ++ natBE 4 ackSeq ++ natBE 8 ackMap ++ natBE 4 crc

/-- R86: header with its MsgCrc, and body. -/
def ojpFrame (kind flags session seq ackSeq ackMap : Nat) (body : Bytes) : Bytes :=
  let h0 := ojpHeader kind flags session body.length seq ackSeq ackMap 0
  ojpHeader kind flags session body.length seq ackSeq ackMap (crc32c (h0 ++ body)) ++ body

/-- R99: AckMap: bit i set when host message AckSeq + 1 + i is held. -/
def Session.ackMap (s : Session) : Nat :=
  maskOf 64 (fun i => s.held.any (fun h => h.msg.seq.toNat == seqAdd s.ackSeq (1 + i)))

/-- The configured key of a key number (R112). -/
def Dev.keyOf (d : Dev) (k : Nat) : Option Bytes :=
  (d.ojp.keys.find? (fun e => e.1 == k)).map (·.2)

/-- R112: the tag over DeviceNonce, HostNonce, header and body. -/
def ojpTag (key devNonce hostNonce frame : Bytes) : Bytes :=
  (hmacSha256 key (devNonce ++ hostNonce ++ frame)).take 16

/-- R111: the payload the device sends in a session: tagged in a session with a key, but for Ack and Reset. -/
def Dev.sessionPayload (d : Dev) (s : Session) (num kind seq : Nat) (body : Bytes) : Bytes :=
  let tagged := decide (s.keyId ≠ 0) && decide (kind ≠ 0x05) && decide (kind ≠ 0x07)
  let frame := ojpFrame kind (if tagged then 3 else 2) num seq s.ackSeq s.ackMap body
  if tagged then
    match d.keyOf s.keyId with
    | some k => frame ++ ojpTag k s.devNonce s.hostNonce frame
    | none => frame
  else frame

/-- Session `i`, where it is open. -/
def Dev.session (d : Dev) (i : Nat) : Option Session := vgetD d.ojp.sessions i none

/-- Session `i` set. -/
def Dev.setSession (d : Dev) (i : Nat) (s : Option Session) : Dev :=
  { d with ojp := { d.ojp with sessions := vmodN d.ojp.sessions i (fun _ => s) } }

/-- R83: MaxMessage of a path (Table 20). -/
def pathMax (v6 jumbo : Bool) : Nat :=
  match v6, jumbo with
  | false, false => 1472
  | false, true => 8960
  | true, false => 1452
  | true, true => 8940

/-- MaxMessage of the path by which a session's messages now leave (R362, R363). -/
def Dev.sessionPath (d : Dev) (s : Session) : Nat := pathMax s.ep.v6 (decide (d.rd (Fld.NET_PCTRL.Jumbo s.port.val) = 1))

/-- R350, R362, R363: the session's port is up and its path carries a payload of this length. -/
def Dev.pathCarries (d : Dev) (s : Session) (len : Nat) : Bool :=
  decide (d.rd (Fld.NET_PSTAT.LinkUp s.port.val) = 1) && decide (len ≤ d.sessionPath s)

/-- The path of session `s` carries this message. -/
def Dev.carries (d : Dev) (i : Nat) (s : Session) (kind seq : Nat) (body : Bytes) : Bool :=
  d.pathCarries s (d.sessionPayload s i kind seq body).length

/-- R359: the VLAN tag of the frames that port `p` sends. -/
def Dev.frameTag (d : Dev) (p : Nat) : FrameTag :=
  match d.rd (Fld.NET_PCTRL.Vlan p) with
  | 0 => .untagged
  | 1 => .vid (d.rd (Fld.NET_PCTRL.Vid p))
  | _ => .asAnswered

/-- R350, R359, R362: a frame leaves host port `p`, where the port is up, and is counted. -/
def Dev.sendFrame (d : Dev) (p : Fin 4) (o : Out) : Dev :=
  if d.rd (Fld.NET_PSTAT.LinkUp p.val) = 1 then
    (d.bump (Fld.NET_TXFRM.Count p.val)).emit (.frame (d.frameTag p.val) (d.rd (Fld.NET_PCTRL.Dscp p.val)) o)
  else d

/-- A message sent now in session `i`; it carries the acknowledgement (R99).  Where no path carries it, it waits. -/
def Dev.transmit (d : Dev) (i : Nat) (s : Session) (kind seq : Nat) (body : Bytes) : Dev :=
  if d.carries i s kind seq body then
    (d.setSession i (some { s with ackPending := false })).sendFrame s.port
      (.ojp s.ep s.mac s.port (d.sessionPayload s i kind seq body))
  else d.setSession i (some s)

/-- R100: the retransmit time a message starts with, in µs. -/
def Dev.initialRto (d : Dev) : Nat := d.rd Fld.NET_OJPRTO.InitialRto

/-- R100: a sequenced device message enters the window of session `i` and is sent, or waits for a path. -/
def Dev.launch (d : Dev) (i : Nat) (s : Session) (kind : Nat) (body : Bytes) (page : Option (Nat × Nat)) : Dev :=
  let sent := d.carries i s kind s.txNext body
  let m : DevMsg := ⟨kind, s.txNext, body, if sent then 1 else 0, d.initialRto, false, !sent, page⟩
  d.transmit i { s with txNext := seqAdd s.txNext 1, unacked := s.unacked ++ [m] } kind s.txNext body

/-- R100: a sequenced device message is sent in session `i`, or waits for room in the window. -/
def Dev.sendSeq (d : Dev) (i kind : Nat) (body : Bytes) (page : Option (Nat × Nat)) : Dev :=
  match d.session i with
  | none => d
  | some s =>
    if s.unacked.length < s.hostWindow ∧ s.waiting = [] then d.launch i s kind body page
    else d.setSession i (some { s with waiting := s.waiting ++ [⟨kind, body, page⟩] })

/-- The numbers of the sessions that subscribe with a bit of Table 23. -/
def Dev.subscribers (d : Dev) (bit : Nat) : List Nat :=
  allBelow 16 (fun i =>
    match d.session i with
    | some s => s.subscribe.toNat.testBit bit
    | none => false)

/-- One message to each of several sessions. -/
def Dev.sendAll (d : Dev) (is : List Nat) (kind : Nat) (body : Bytes) (page : Option (Nat × Nat)) : Dev :=
  is.foldl (fun d i => d.sendSeq i kind body page) d

/-! ### Notices -/

/-- A row of Table 125: code, source block and severity. -/
structure NoticeKind where
  code : Nat
  source : Nat
  severity : Nat
  deriving DecidableEq, Repr

def Nt.PageEnd : NoticeKind := ⟨0x0101, 11, 0⟩
def Nt.StripError : NoticeKind := ⟨0x0102, 11, 1⟩
def Nt.DataCrc : NoticeKind := ⟨0x0103, 11, 1⟩
def Nt.Long : NoticeKind := ⟨0x0104, 11, 0⟩
def Nt.DescMalformed : NoticeKind := ⟨0x0105, 11, 2⟩
def Nt.LateAppend : NoticeKind := ⟨0x0106, 11, 1⟩
def Nt.ChainDry : NoticeKind := ⟨0x0107, 11, 0⟩
def Nt.StartIgnored : NoticeKind := ⟨0x0108, 11, 1⟩
def Nt.EmptyLoop : NoticeKind := ⟨0x0109, 11, 2⟩
def Nt.StreamError : NoticeKind := ⟨0x010A, 12, 1⟩
def Nt.StreamOrder : NoticeKind := ⟨0x010B, 12, 1⟩
def Nt.TrailingData : NoticeKind := ⟨0x010C, 12, 0⟩
def Nt.SymbolExcess : NoticeKind := ⟨0x010D, 12, 0⟩
def Nt.SymbolCount : NoticeKind := ⟨0x010E, 12, 0⟩
def Nt.BudgetShort : NoticeKind := ⟨0x010F, 12, 1⟩
def Nt.ExpandLate : NoticeKind := ⟨0x0110, 12, 0⟩
def Nt.DataLoss : NoticeKind := ⟨0x0111, 12, 1⟩
def Nt.RecordOverflow : NoticeKind := ⟨0x0112, 12, 1⟩
def Nt.WidthMismatch : NoticeKind := ⟨0x0113, 13, 0⟩
def Nt.WriteWhilePendingRAS : NoticeKind := ⟨0x0114, 13, 1⟩
def Nt.WriteWhilePendingHT : NoticeKind := ⟨0x0114, 14, 1⟩
def Nt.WriteWhilePendingHP : NoticeKind := ⟨0x0114, 16, 1⟩
def Nt.StateDiscard : NoticeKind := ⟨0x0115, 14, 0⟩
def Nt.Uncovered : NoticeKind := ⟨0x0116, 14, 1⟩
def Nt.NoLevels : NoticeKind := ⟨0x0117, 14, 1⟩
def Nt.TapClamp : NoticeKind := ⟨0x0118, 14, 1⟩
def Nt.Drift : NoticeKind := ⟨0x0119, 15, 1⟩
def Nt.EarlyStart : NoticeKind := ⟨0x011A, 15, 1⟩
def Nt.DataLate : NoticeKind := ⟨0x011B, 15, 1⟩
def Nt.Abandoned : NoticeKind := ⟨0x011C, 15, 1⟩
def Nt.ChannelFault : NoticeKind := ⟨0x011D, 15, 2⟩
def Nt.ShiftOverrun : NoticeKind := ⟨0x011E, 16, 1⟩
def Nt.EchoMismatch : NoticeKind := ⟨0x011F, 16, 1⟩
def Nt.UncorrectableFind : NoticeKind := ⟨0x0201, 8, 2⟩
def Nt.MemLost : NoticeKind := ⟨0x0202, 8, 2⟩
def Nt.RemapDone : NoticeKind := ⟨0x0203, 8, 0⟩
def Nt.RemapRefused : NoticeKind := ⟨0x0204, 8, 1⟩
def Nt.RemapFull : NoticeKind := ⟨0x0205, 8, 1⟩
def Nt.ComponentFail : NoticeKind := ⟨0x0206, 8, 2⟩
def Nt.KindleDone : NoticeKind := ⟨0x0207, 8, 0⟩
def Nt.SramUncorrectable : NoticeKind := ⟨0x0208, 8, 2⟩
def Nt.DramTrainFail : NoticeKind := ⟨0x0209, 8, 3⟩
def Nt.CaParityFail : NoticeKind := ⟨0x020A, 8, 2⟩
def Nt.CrcMismatch : NoticeKind := ⟨0x020B, 10, 1⟩
def Nt.CrcInvalid : NoticeKind := ⟨0x020C, 10, 1⟩
def Nt.SessionClosed : NoticeKind := ⟨0x0301, 4, 1⟩
def Nt.LinkUp : NoticeKind := ⟨0x0302, 4, 0⟩
def Nt.LinkDown : NoticeKind := ⟨0x0303, 4, 1⟩
def Nt.PartnerLost : NoticeKind := ⟨0x0304, 7, 2⟩
def Nt.RallyMismatch : NoticeKind := ⟨0x0305, 7, 1⟩
def Nt.HandoffDone : NoticeKind := ⟨0x0306, 7, 1⟩
def Nt.ResyncDone : NoticeKind := ⟨0x0307, 7, 0⟩
def Nt.StrkConflict : NoticeKind := ⟨0x0308, 7, 2⟩
def Nt.FatalFault : NoticeKind := ⟨0x0309, 7, 3⟩
def Nt.PairConflict : NoticeKind := ⟨0x030A, 7, 2⟩
def Nt.PathShrink : NoticeKind := ⟨0x030B, 4, 1⟩
def Nt.ReservedBit : NoticeKind := ⟨0x0401, 0, 1⟩
def Nt.QueueReset : NoticeKind := ⟨0x0402, 0, 2⟩
def Nt.ClampReport : NoticeKind := ⟨0x0403, 1, 0⟩
def Nt.StokerOverload : NoticeKind := ⟨0x0404, 1, 1⟩
def Nt.StokerRestart : NoticeKind := ⟨0x0405, 1, 2⟩
def Nt.PowerRefused : NoticeKind := ⟨0x0406, 3, 1⟩
def Nt.DomainLost : NoticeKind := ⟨0x0407, 3, 1⟩
def Nt.GateNoise : NoticeKind := ⟨0x0408, 17, 1⟩
def Nt.CarriageFault : NoticeKind := ⟨0x0409, 17, 1⟩
def Nt.PageStartRejected : NoticeKind := ⟨0x040A, 17, 1⟩
def Nt.SweepStart : NoticeKind := ⟨0x040B, 17, 0⟩
def Nt.LimitHit : NoticeKind := ⟨0x040C, 18, 1⟩
def Nt.Stall : NoticeKind := ⟨0x040D, 18, 1⟩
def Nt.HomeFail : NoticeKind := ⟨0x040E, 18, 1⟩
def Nt.JournalLost : NoticeKind := ⟨0x040F, 20, 2⟩

/-- R481: the place of each item: (width, value) pairs laid at multiples of their width, giving (offset, width, value). -/
def layItems : Nat → List (Nat × Nat) → List (Nat × Nat × Nat)
  | _, [] => []
  | pos, (w, v) :: rest =>
    let p := ceilDiv pos w * w
    (p, w, v) :: layItems (p + w) rest

/-- R481: a 32-byte Detail with its items in network byte order. -/
def detailBE (items : List (Nat × Nat × Nat)) : Bytes :=
  items.foldl (fun bs e => patchB bs e.1 (natBE e.2.1 e.2.2)) (List.replicate 32 0#8)

/-- R482: the items that lie wholly within bytes 0 to 11, stored little-endian. -/
def detailLE (items : List (Nat × Nat × Nat)) : Bytes :=
  items.foldl (fun bs e => if e.1 + e.2.1 ≤ 12 then patchB bs e.1 (natLE e.2.1 e.2.2) else bs)
    (List.replicate 12 0#8)

/-- R428: the queue that serves a source block. -/
def queueOf (source : Nat) : Nat :=
  if 11 ≤ source ∧ source ≤ 16 then 0
  else if 8 ≤ source ∧ source ≤ 10 then 1
  else if 4 ≤ source ∧ source ≤ 7 then 2
  else 3

/-- Table 27: the notice body in network byte order. -/
def Notice.body (n : Notice) : Bytes :=
  natBE 2 n.code ++ natBE 1 n.source ++ natBE 1 n.severity ++ natBE 6 n.sec ++ natBE 4 n.ns ++ natBE 2 0 ++
    padTo 32 n.detail

/-- R114: one notice to every session subscribed to Notices; with none it is counted as lost. -/
def Dev.pushNotice (d : Dev) (n : Notice) : Dev :=
  match d.subscribers 0 with
  | [] => d.bump Fld.NET_OJPNLOST.Count
  | is => d.sendAll is 0x40 n.body none

/-- Notice queue `q`. -/
def Dev.queue (d : Dev) (q : Nat) : NoticeQueue := vgetD d.rep.queues q ⟨[], []⟩

/-- Notice queue `q` set. -/
def Dev.setQueue (d : Dev) (q : Nat) (x : NoticeQueue) : Dev :=
  { d with rep := { d.rep with queues := vmodN d.rep.queues q (fun _ => x) } }

/-- R429: a drain takes every notice present, oldest first. -/
def Dev.drainQueue (d : Dev) (q : Nat) : Dev :=
  (d.queue q).entries.foldl (fun d n => d.pushNotice n) (d.setQueue q { d.queue q with entries := [] })

/-- R428, R431, R429: a notice enters its queue, is discarded and counted when the queue is full, and drains the queue
when it reaches Trigger with PushEn set. -/
def Dev.enqueue (d : Dev) (n : Notice) : Dev :=
  let q := queueOf n.source
  let x := d.queue q
  if 32 ≤ x.entries.length then
    (d.bumpSat (Fld.TRB_NQSTAT.Lost q) 1).sticky (Fld.TRB_NQSTAT.Overflow q)
  else
    let d := d.setQueue q { x with entries := x.entries ++ [n] }
    if d.rd (Fld.TRB_NQCFG.PushEn q) = 1 ∧ d.rd (Fld.TRB_NQCFG.Trigger q) ≤ x.entries.length + 1 then d.drainQueue q
    else d

/-- A notice with its items at explicit places. -/
def Dev.noticeAt (d : Dev) (k : NoticeKind) (items : List (Nat × Nat × Nat)) : Dev :=
  d.enqueue ⟨k.code, k.source, k.severity, d.now.sec, d.now.ns, detailBE items⟩

/-- A notice with its items laid out by R481. -/
def Dev.notice (d : Dev) (k : NoticeKind) (items : List (Nat × Nat)) : Dev := d.noticeAt k (layItems 0 items)

/-! ### The trouble record -/

/-- Table 126 Flags: device number, and whether the device is striker or Solo. -/
def Dev.troubleFlags (d : Dev) : Nat := d.devNum % 2 + (if d.pair.role = .striker then 2 else 0)

/-- R482, R483: a trouble record entry: it takes the next Seq, overwrites the oldest of 256, and waits for the journal
(R460). -/
def Dev.troubleBytes (d : Dev) (k : NoticeKind) (detail : Bytes) : Dev :=
  let e : TroubleEntry :=
    ⟨d.now.sec, k.code, d.now.ns, k.source, k.severity, d.troubleFlags, detail, d.rep.nextSeq⟩
  let ring := d.rep.ring ++ [e]
  { d with
    rep := { d.rep with
      ring := ring.drop (ring.length - 256)
      nextSeq := seqAdd d.rep.nextSeq 1
      lastSeq := d.rep.nextSeq }
    jnl := { d.jnl with queue := d.jnl.queue ++ [.trouble e] } }

/-- A trouble record with its items laid out by R481. -/
def Dev.trouble (d : Dev) (k : NoticeKind) (items : List (Nat × Nat)) : Dev :=
  d.troubleBytes k (detailLE (layItems 0 items))

/-- An event carried as a notice and as a trouble record (N+R in Table 125). -/
def Dev.noticeTrouble (d : Dev) (k : NoticeKind) (items : List (Nat × Nat)) : Dev :=
  (d.trouble k items).notice k items

/-- Table 126: the 32 bytes of an entry, little-endian. -/
def TroubleEntry.bytes (e : TroubleEntry) : Bytes :=
  natLE 6 e.sec ++ natLE 2 e.code ++ natLE 4 e.ns ++ natLE 1 e.source ++ natLE 1 e.severity ++ natLE 1 e.flags ++
    natLE 1 0 ++ padTo 12 e.detail ++ natLE 4 e.seq

/-- R483: the entry in a slot. -/
def Dev.troubleSlot (d : Dev) (slot : Nat) : Option TroubleEntry :=
  d.rep.ring.find? (fun e => (e.seq + 255) % 256 == slot)

end Sys2Proof.Machine
end

