-- ==== Sys2Proof/Machine/Operands.lean ====
section
/-!
DEFINITION. The operand forms that the print path's commands share: the geometry in force (R21 to R44), positions and
thresholds (R34, R207), the period applied (R218, R245), the planes' and ports' relations.
-/
namespace Sys2Proof.Machine

/-! ### Geometry in force -/

/-- FirstPort in force. -/
def Dev.firstPort (d : Dev) (n : Nat) : Nat := d.inForce (Fld.HP_PLANE.FirstPort n)

/-- The plane's range after the field clamps, before R26. -/
def Dev.givenRange (d : Dev) (n : Nat) : Nat × Nat := (d.firstPort n, d.inForce (Fld.HP_PLANE.PortCount n))

/-- R26: one plane's PortCount given the ports already claimed. -/
def clampRange (limit : Nat) (claimed : List Nat) (r : Nat × Nat) : Nat :=
  if claimed.contains r.1 then 0
  else
    let stops := (claimed.filter (fun c => decide (r.1 < c))) ++ [limit]
    min r.2 ((stops.foldl min limit) - r.1)

/-- R26: planes in order from 0, each clamped against the ports that lower planes claim. -/
def clampRanges (limit : Nat) : List Nat → List (Nat × Nat) → List (Nat × Nat)
  | _, [] => []
  | claimed, r :: rs =>
    let c := clampRange limit claimed r
    (r.1, c) :: clampRanges limit (claimed ++ (List.range c).map (fun i => r.1 + i)) rs

/-- The eight planes' (FirstPort, PortCount) in force. -/
def Dev.ranges (d : Dev) : List (Nat × Nat) :=
  clampRanges d.part.portCount [] ((List.range 8).map d.givenRange)

/-- The (FirstPort, PortCount) of a plane in force. -/
def Dev.range (d : Dev) (n : Nat) : Nat × Nat := d.ranges.getD n (0, 0)

/-- R24: a plane with PortCount 0 is disabled. -/
def Dev.enabled (d : Dev) (n : Nat) : Bool := decide (0 < (d.range n).2)

/-- The enabled planes, ascending. -/
def Dev.planesOn (d : Dev) : List Nat := allBelow 8 d.enabled

/-- R21: chips per head of a plane. -/
def Dev.chainLen (d : Dev) (n : Nat) : Nat := d.inForce (Fld.HP_PLANE.ChainLen n)

/-- R30: nozzles per head of a plane. -/
def Dev.headLen (d : Dev) (n : Nat) : Nat := 512 * d.chainLen n

/-- The channel that times a plane. -/
def Dev.channelOf (d : Dev) (n : Nat) : Nat := d.inForce (Fld.HP_PLANE.Channel n)

/-- R38: rows per head of a plane. -/
def Dev.rowCount (d : Dev) (n : Nat) : Nat := d.inForce (Fld.HP_PLANE.RowCount n)

/-- The stagger of a row as written (Table 6). -/
def Dev.rawStagger (d : Dev) (n r : Nat) : Nat :=
  if r < 4 then d.inForce ⟨Adr.HP_STAGLO n, 8 * r + 6, 8 * r⟩
  else d.inForce ⟨Adr.HP_STAGHI n, 8 * (r - 4) + 6, 8 * (r - 4)⟩

/-- R39: the staggers of a plane's rows, the smallest subtracted from all. -/
def Dev.staggers (d : Dev) (n : Nat) : List Nat :=
  let raw := (List.range (d.rowCount n)).map (d.rawStagger n)
  let least := raw.foldl min 127
  raw.map (fun s => s - least)

/-- R40: the largest stagger of a plane. -/
def Dev.maxStagger (d : Dev) (n : Nat) : Nat := (d.staggers n).foldl max 0

/-- R33: the line pitch of a plane, Q16.16. -/
def Dev.pitch (d : Dev) (n : Nat) : Nat := d.inForce (Fld.LT_PITCH.Pitch n)

/-- R36: the plane offset. -/
def Dev.planeOffset (d : Dev) (n : Nat) : Nat := d.inForce (Fld.LT_POFF.PlaneOffset n)

/-- R29: the overlap after port `p` of plane `n`; it takes effect only between two ports of the plane. -/
def Dev.overlap (d : Dev) (n p : Nat) : Nat :=
  let r := d.range n
  if r.1 ≤ p ∧ p + 1 < r.1 + r.2 then d.inForce (Fld.HP_OVL.Overlap p) else 0

/-- R30: the start column of head `h` of a plane. -/
def Dev.startCol (d : Dev) (n : Nat) : Nat → Nat
  | 0 => 0
  | h + 1 => Dev.startCol d n h + d.headLen n - d.overlap n ((d.range n).1 + h)

/-- R30: the width of a plane in columns; a disabled plane has width 0. -/
def Dev.width (d : Dev) (n : Nat) : Nat :=
  if d.enabled n then d.startCol n ((d.range n).2 - 1) + d.headLen n else 0

/-- The ports of a plane, ascending. -/
def Dev.portsOf (d : Dev) (n : Nat) : List Nat :=
  let r := d.range n
  (List.range r.2).map (fun h => r.1 + h)

/-- R26, R27: the enabled plane that holds a port. -/
def Dev.planeOf (d : Dev) (p : Nat) : Option Nat :=
  d.planesOn.find? (fun n => let r := d.range n; decide (r.1 ≤ p ∧ p < r.1 + r.2))

/-- R64: the leading plane: the enabled plane with the smallest PlaneOffset, the lower-numbered of equals. -/
def Dev.leading (d : Dev) : Option Nat :=
  d.planesOn.foldl (fun best n =>
    match best with
    | none => some n
    | some b => if d.planeOffset n < d.planeOffset b then some n else some b) none

/-- R196: the code bits in force of a plane. -/
def Dev.codeBits (d : Dev) (n : Nat) : Nat := d.inForce (Fld.HT_CODE.CodeBits n)

/-! ### Positions -/

/-- R207: a position reduced to the signed 48-bit range. -/
def wrap48 (x : Int) : Int := signedOf 48 (patternOf 48 x)

/-- R207: `a` is below `b` in serial arithmetic. -/
def posBelow (a b : Int) : Bool := decide (0 < wrap48 (b - a))

/-- R207: `a` is at or below `b`. -/
def posLe (a b : Int) : Bool := decide (0 ≤ wrap48 (b - a))

/-- R34: threshold(e) of a page that starts at `s`, with the exact product. -/
def threshold (s : Int) (pitch e : Nat) : Int := wrap48 (s + ceilDiv (e * pitch) 65536)

/-- R34: the number of the last event whose threshold is at or below a position; −1 before event 0. -/
def lastEventAt (s : Int) (pitch : Nat) (pos : Int) : Int :=
  let x := wrap48 (pos - s)
  if x < 0 ∨ pitch = 0 then -1 else Int.fdiv (x * 65536) pitch

/-! ### Periods -/

/-- R239: half the shift clock period in 1/6 ns: codes 0 to 6 give 300 to 25 MHz. -/
def halfClock6 (sel : Nat) : Nat :=
  match sel with
  | 0 => 10
  | 1 => 12
  | 2 => 15
  | 3 => 20
  | 4 => 30
  | 5 => 60
  | _ => 120

/-- R235: lanes of a plane's ports. -/
def Dev.laneCount (d : Dev) (n : Nat) : Nat := if d.inForce (Fld.HP_PORTCFG.LaneCount n) = 0 then 4 else 2

/-- R236: bits per lane of a line. -/
def Dev.shiftBits (d : Dev) (n : Nat) : Nat := 512 * d.chainLen n * d.codeBits n / d.laneCount n

/-- R237: t_SH in 1/6 ns. -/
def Dev.tSh6 (d : Dev) (n : Nat) : Nat := d.shiftBits n * halfClock6 (d.inForce Fld.HP_CLK.ClkSel)

/-- R237: t_SH in ns, rounded up, as HP_SHIFTn shows it. -/
def Dev.tSh (d : Dev) (n : Nat) : Nat := ceilDiv (d.tSh6 n) 6

/-- R245: t_CYC = t_SH + t_LCK + Width + t_LFC in ns, rounded up. -/
def Dev.tCyc (d : Dev) (n : Nat) : Nat := ceilDiv (d.tSh6 n + 6 * (10 + d.inForce Fld.HP_LATW.Width + 10)) 6

/-- R218, R245: the period applied for a plane. -/
def Dev.period (d : Dev) (n : Nat) : Nat := max (d.rd (Fld.LT_MINPER.MinPer n)) (d.tCyc n)

/-! ### Pages and planes -/

/-- The event that a due event is named by: that of its newest page, whose reference row fires in it. -/
def evName (parts : List (Nat × Nat)) : Nat × Nat := parts.getLast?.getD (0, 0)

/-- R210, R222: NextEvent of the plane's newest page, or of its last one where it has none; R while stopped or Armed. -/
def PlaneLine.nextEvent (x : PlaneLine) : Nat :=
  match x.resume with
  | some r => (evName r.1).2
  | none =>
    match x.runs.getLast? with
    | some r => r.next
    | none => x.lastNext

/-- A plane's line timing. -/
def Dev.plane (d : Dev) (n : Nat) : PlaneLine := vgetD d.lt.planes n ⟨.idle, [], [], [], none, none, [], false, 0⟩

/-- A plane's line timing set. -/
def Dev.setPlane (d : Dev) (n : Nat) (x : PlaneLine) : Dev :=
  { d with lt := { d.lt with planes := vmodN d.lt.planes n (fun _ => x) } }

/-- A held page by its key. -/
def Dev.page (d : Dev) (k : Nat) : Option Page := d.job.pages.find? (fun p => p.key == k)

/-- A held page changed. -/
def Dev.modPage (d : Dev) (k : Nat) (f : Page → Page) : Dev :=
  { d with job := { d.job with pages := d.job.pages.map (fun p => if p.key = k then f p else p) } }

/-- A port. -/
def Dev.port (d : Dev) (p : Nat) : Port :=
  vgetD d.hp.ports p ⟨[], .none, 0, false, [], none, false, none, none, ⟨false, none⟩, false⟩

/-- A port set. -/
def Dev.setPort (d : Dev) (p : Nat) (x : Port) : Dev :=
  { d with hp := { d.hp with ports := vmodN d.hp.ports p (fun _ => x) } }

/-- A channel's state. -/
def Dev.chan (d : Dev) (c : Fin 4) : Channel := d.lt.channels[c]

/-- A channel's state set. -/
def Dev.setChan (d : Dev) (c : Fin 4) (x : Channel) : Dev :=
  { d with lt := { d.lt with channels := d.lt.channels.set c.val x c.isLt } }

/-- R43: a plane is idle when it has no page in flight and nothing left to fire. -/
def Dev.planeIdle (d : Dev) (n : Nat) : Bool := (d.plane n).runs.isEmpty

/-- R43: every plane is idle. -/
def Dev.allIdle (d : Dev) : Bool := (List.range 8).all d.planeIdle

/-- The planes timed by a channel, ascending. -/
def Dev.planesOn' (d : Dev) (c : Nat) : List Nat := d.planesOn.filter (fun n => d.channelOf n == c)

/-- R199, R207: a plane on the channel has a page in flight or a page start queued. -/
def Dev.channelBusy (d : Dev) (c : Nat) : Bool := (d.planesOn' c).any (fun n => !d.planeIdle n)

/-- R274, R469: a plane of the device has a page in flight. -/
def Dev.pageInFlight (d : Dev) : Bool := !d.allIdle

/-- R36, R40: the last event number of a page on a plane: its last line on its most downstream row. -/
def Dev.lastEvent (d : Dev) (n : Nat) (r : Run) : Nat := d.planeOffset n + r.length - 1 + d.maxStagger n

/-! ### Nozzles -/

/-- R21: a nozzle of a head: its chip lies within the chain of its port's plane. -/
def Dev.nozzleIn (d : Dev) (z : Nat) : Bool :=
  match d.planeOf (z / 4096) with
  | some n => decide (z % 4096 < d.headLen n)
  | none => false

/-- The plane that holds a nozzle's port. -/
def Dev.planeOfNozzle (d : Dev) (z : Nat) : Option Nat := d.planeOf (z / 4096)

/-! ### Shadow-set ownership -/

/-- R167, R195, R260: the port that a per-port register of the print sets belongs to, or the plane of a per-plane one. -/
inductive Owner | plane (n : Nat) | port (p : Nat) | device
  deriving DecidableEq, Repr

/-- The owner of an address of the correction, halftone or strobe set. -/
def ownerOf (a : Nat) : Owner :=
  if isNzt a then .port (nztNozzle a / 4096)
  else if isThr a then .plane ((a - 0x02000000) / 0x10000)
  else
    match regSpecAt a with
    | none => .device
    | some (r, i, _) =>
      if r.base = Adr.RAS_CURVE 0 0 ∨ r.base = Adr.RAS_STWT 0 0 ∨ r.base = Adr.HT_DROP 0 0 ∨
          r.base = Adr.HP_STROBE 0 then .port i
      else .plane i

/-- R167: the plane that an address of a print set belongs to under the geometry in force; none for a port in no enabled
plane. -/
def Dev.ownerPlane (d : Dev) (a : Nat) : Option Nat :=
  match ownerOf a with
  | .plane n => some n
  | .port p => d.planeOf p
  | .device => none

end Sys2Proof.Machine
end

