-- ==== Sys2Proof/Machine/Flags.lean ====
section
/-!
DEFINITION. Every flag computation: sticky bits and their clearing (R475 to R477), TRB_INTSRC and INT_N (R478), page
status (R80), commit status (R451), and the press controller's outputs (R220 to R229).
-/
namespace Sys2Proof.Machine

/-! ### Sticky bits -/

/-- The mask of a list of fields with a property. -/
def fieldsMask (fs : List FieldSpec) (p : FieldSpec → Bool) : Nat :=
  fs.foldl (fun a f => if p f then a ||| (2 ^ (f.hi + 1) - 2 ^ f.lo) else a) 0

/-- The RWS bits of the register at an address; none where no register lies. -/
def rwsMask (a : Nat) : Nat :=
  match regSpecAt a with
  | some (r, _, _) => fieldsMask r.flds (fun f => decide (f.acc = .rws))
  | none => 0

/-- R477: is any sticky bit of a block set? -/
def Dev.blockSticky (d : Dev) (b : Nat) : Bool :=
  d.win.any (fun e => e.1 / 0x10000 == b && (e.2.toNat &&& rwsMask e.1) != 0)

/-- R477: TRB_SUMMARY. -/
def Dev.summary (d : Dev) : Nat := maskOf 22 d.blockSticky

/-- R475: clears the RWS bits that the mask names in the register at an address. -/
def Dev.clearSticky (d : Dev) (a mask : Nat) : Dev :=
  let w := (d.reg a).toNat
  let m := mask &&& rwsMask a
  if m = 0 then d else d.setReg a (BitVec.ofNat 32 (w - (w &&& m)))

/-! ### Interrupt -/

/-- GLB_STATUS.Failed: the device is Failed (R314). -/
def Dev.failed (d : Dev) : Bool := decide (d.pair.state = .failed)

/-- R478: the Fatal source. -/
def Dev.fatalSource (d : Dev) : Bool :=
  d.failed || decide (d.boot.phase = .noImage) || decide (d.boot.phase = .stokerFailed)

/-- R478: source 26: an entry with a Seq above TRB_RECACK has been written. -/
def Dev.troubleSource (d : Dev) : Bool :=
  let ack := (d.reg Adr.TRB_RECACK).toNat
  decide (d.rep.lastSeq ≠ 0) && (decide (ack = 0) || seqBefore ack d.rep.lastSeq)

/-- R478: TRB_INTSRC. -/
def Dev.intSrc (d : Dev) : Nat :=
  d.summary + maskOf 4 (fun q => !(d.queue q).entries.isEmpty) * 2 ^ 22 +
    (if d.troubleSource then 2 ^ 26 else 0) + (if d.fatalSource then 2 ^ 31 else 0)

/-- R478: INT_N is low (asserted) from reset release while an enabled source is set. -/
def Dev.intAsserted (d : Dev) : Bool :=
  !d.boot.inReset && decide (d.intSrc &&& (d.reg Adr.TRB_INTEN).toNat ≠ 0)

/-! ### Page status (Table 17) -/

/-- The bits of Table 17 that set Flagged. -/
def flaggedBits : List Nat := [1, 3, 4, 5, 6, 7, 13]

/-- R80: a status bit set, with Flagged where the bit says so. -/
def setStatus (s : BitVec 16) (bit : Nat) : BitVec 16 :=
  let s' := s ||| BitVec.ofNat 16 (2 ^ bit)
  if flaggedBits.contains bit then s' ||| 1#16 else s'

/-- A status bit set on a held page. -/
def Dev.flag (d : Dev) (k bit : Nat) : Dev := d.modPage k (fun p => { p with status := setStatus p.status bit })

/-- Several held pages flagged. -/
def Dev.flagAll (d : Dev) (ks : List Nat) (bit : Nat) : Dev := ks.foldl (fun d k => d.flag k bit) d

/-- A page in flight: begun on some channel and not finished on every enabled plane. -/
def Dev.inFlight (d : Dev) (p : Page) : Bool := (List.range 8).any (fun n => (d.plane n).runs.any (fun r => r.page == p.key))

/-! ### Commit status -/

/-- R451: CFG_COMMITSTAT. -/
def Dev.commitStat (d : Dev) : Nat :=
  (if d.boot.pendGeo.isSome then 1 else 0) + (if d.boot.pendScale.isSome then 2 else 0) +
    (if d.boot.pendCode.isSome then 4 else 0) + (if d.boot.pendPort.isSome then 8 else 0) +
    (if d.ras.corrWait = 0 ∧ d.ras.corrCopy = 0 ∧ d.ras.htWait = 0 ∧ d.ras.htCopy = 0 ∧ d.ras.strobeWait = 0 then 0
      else 16)

/-! ### Press controller outputs -/

/-- R143: the budget source of SPEED_LIMIT: a held page is over budget. -/
def Dev.budgetLimit (d : Dev) : Bool := d.job.pages.any (fun p => p.budget.tooSlow)

/-- R308: a keeper holds the three outputs low; so does a failed device (R314) and one in reset (R229). -/
def Dev.outputsHeld (d : Dev) : Bool := d.isKeeper || d.failed || d.boot.inReset

/-- The level of HALT_REQ (R222, R225, R308). -/
def Dev.haltReqPin (d : Dev) : Bool := d.lt.haltReq && !d.outputsHeld

/-- The level of SPEED_WARN (R220, R308). -/
def Dev.speedWarnPin (d : Dev) : Bool := d.lt.speedWarn && !d.outputsHeld

/-- The level of SPEED_LIMIT (R221, R308): the overspeed or the budget source is active. -/
def Dev.speedLimitPin (d : Dev) : Bool := (d.lt.overspeed || d.budgetLimit) && !d.outputsHeld

/-- R220: the line rate of plane `n` exceeds WarnPct percent of 10^9 / P, from its channel's last report
(R212: Count × 65,536 × 10^6 / (Window × Pitch)). -/
def Dev.aboveWarn (d : Dev) (n : Nat) : Bool :=
  let c := d.channelOf n
  let w := d.reg (Adr.LT_SPEED c)
  let count := signedOf 24 (bitsOf w.toNat 23 0)
  if (bitsOf w.toNat 31 30) ≠ 0 ∨ count ≤ 0 then false
  else
    decide (d.rd Fld.LT_WARN.WarnPct * 1000000000 * (d.rd (Fld.LT_SPDCFG.Window c) * d.pitch n) <
      count.toNat * 65536 * 1000000 * 100 * d.period n)

/-- R216: the interval in 1/256-free ns units that the speed report gives plane `n`: Window × Pitch × 10^3 / (Count × 65,536)
as a fraction (numerator, denominator); none where it gives no forward rate. -/
def Dev.rateInterval (d : Dev) (n : Nat) : Option (Nat × Nat) :=
  let c := d.channelOf n
  let w := d.reg (Adr.LT_SPEED c)
  let count := signedOf 24 (bitsOf w.toNat 23 0)
  if count ≤ 0 then none
  else some (d.rd (Fld.LT_SPDCFG.Window c) * d.pitch n * 1000, count.toNat * 65536)

/-- R233, R335: who drives port `p`: a keeper the ports it has taken in a handoff, a striker or single device every port
it has not released in one. -/
def Dev.roleDrives (d : Dev) (p : Nat) : Bool :=
  if d.isKeeper then d.pair.handedPorts.contains p else d.pair.driving && !d.pair.handedPorts.contains p

/-- R307: STRK_OUT: the device is striker, or alone, and drives the head ports. -/
def Dev.strkOut (d : Dev) : Bool :=
  !d.isKeeper && d.pair.driving && d.hp.configured && !d.boot.inReset && !d.failed

/-- R340: plane `n` waits for a continued stream's history from before the copy. -/
def Dev.lacksStream (d : Dev) (n : Nat) : Bool :=
  d.pair.lacking.any (fun e => e.1 == n && (d.plane n).runs.any (fun r => r.page == e.2.1))

/-- PAIR_READY (R332, R340): on a keeper the planes it is Ready for; on a striker what the keeper last told. -/
def Dev.readyMask (d : Dev) : BitVec 8 :=
  if d.isKeeper then
    if d.pair.resynced && decide (d.pair.state = .paired ∨ d.pair.state = .yielding) then
      d.pair.begun &&& ~~~(BitVec.ofNat 8 (maskOf 8 (fun n =>
        d.pair.lateMonitor.any (fun p => decide (d.planeOf p = some n)) || d.lacksStream n)))
    else 0#8
  else d.pair.partnerReady

/-- Table 44: the port's outputs are driven. -/
def Dev.portDriven (d : Dev) (p : Nat) : Bool :=
  d.hp.configured && !d.boot.inReset && decide (p < d.part.portCount) && d.domOn (8 + p / 16) && d.roleDrives p &&
    !(d.port p).granted && !d.failed

end Sys2Proof.Machine
end

