-- ==== Sys2Proof/Machine/Halftone.lean ====
section
/-!
DEFINITION. Hiding bad nozzles and halftoning (R172 to R193): donors and receivers, usable levels, multilevel error
diffusion and threshold arrays, and the adoption of the nozzle state map (R175, R182).
-/
namespace Sys2Proof.Machine

/-! ### Nozzle states -/

/-- R173: the pending state of a nozzle. -/
def Dev.pendingState (d : Dev) (z : Nat) : BitVec 2 := spGet 0#2 d.ras.pendingMap z

/-- R173: the adopted state of a nozzle. -/
def Dev.adoptedState (d : Dev) (z : Nat) : BitVec 2 := spGet 0#2 d.ras.adoptedMap z

/-- R20: the global number of local index `j` of a port. -/
def nozzleNo (p j : Nat) : Nat := p * 4096 + j

/-- R179: the twin of local index `j` of port `p` in plane `n`: the other head's nozzle in the shared column. -/
def Dev.twin (d : Dev) (n p j : Nat) : Option (Nat × Nat) :=
  let nh := d.headLen n
  let r := d.range n
  let after := d.overlap n p
  if 0 < after ∧ nh - after ≤ j then some (p + 1, j - (nh - after))
  else if r.1 < p then
    let before := d.overlap n (p - 1)
    if j < before then some (p - 1, nh - before + j) else none
  else none

/-- R179: the eligible candidates of a donor in their order, each with its weight. -/
def Dev.receivers (d : Dev) (n p j : Nat) : List ((Nat × Nat) × Nat) :=
  let nh := d.headLen n
  let w1 := d.inForce (Fld.HT_HIDE.Weight1 n)
  let w2 := d.inForce (Fld.HT_HIDE.Weight2 n)
  let wt := d.inForce (Fld.HT_HIDE.TwinWeight n)
  let own := [(decide (1 ≤ j), j - 1, w1), (decide (j + 1 < nh), j + 1, w1), (decide (2 ≤ j), j - 2, w2),
    (decide (j + 2 < nh), j + 2, w2)]
  let near := own.filterMap (fun e =>
    if e.1 && decide (d.adoptedState (nozzleNo p e.2.1) = 0#2) then some ((p, e.2.1), e.2.2) else none)
  match d.twin n p j with
  | some (q, i) => if d.adoptedState (nozzleNo q i) = 0#2 then near ++ [((q, i), wt)] else near
  | none => near

/-- The sum of the weights of the eligible candidates. -/
def weightSum (rs : List ((Nat × Nat) × Nat)) : Nat := rs.foldl (fun a r => a + r.2) 0

/-- R180: the split of `t` among the candidates: each takes floor(t w / s), the last what is left. -/
def splitShares (t s : Nat) : Nat → List ((Nat × Nat) × Nat) → List ((Nat × Nat) × Nat)
  | _, [] => []
  | given, [r] => [(r.1, t - given)]
  | given, r :: rest =>
    let x := t * r.2 / s
    (r.1, x) :: splitShares t s (given + x) rest

/-- R178: the kept dose of a donor with corrected dose `x`. -/
def keptDose (state : BitVec 2) (weakKeep x : Nat) : Nat :=
  if state = 1#2 then (x * weakKeep + 128) / 256 else 0

/-- R178, R180: what a donor hands on. -/
def Dev.gifts (d : Dev) (n p j x : Nat) (state : BitVec 2) : List ((Nat × Nat) × Nat) :=
  let q := x - keptDose state (d.inForce (Fld.HT_HGAIN.WeakKeep n)) x
  let t := (q * d.inForce (Fld.HT_HGAIN.HideGain n) + 128) / 256
  let rs := d.receivers n p j
  let s := weightSum rs
  if s = 0 ∨ t = 0 then [] else splitShares t s 0 rs

/-- R178 to R181: the gifts of all donors among the corrected doses of a plane's heads. -/
def Dev.allGifts (d : Dev) (n : Nat) (doses : List (Nat × List Nat)) : List ((Nat × Nat) × Nat) :=
  doses.flatMap (fun hp =>
    (hp.2.zipIdx).flatMap (fun xj =>
      let st := d.adoptedState (nozzleNo hp.1 xj.2)
      if st = 0#2 then [] else d.gifts n hp.1 xj.2 xj.1 st))

/-- The sum of the shares a nozzle receives. -/
def received (gs : List ((Nat × Nat) × Nat)) (p j : Nat) : Nat :=
  gs.foldl (fun a g => if g.1 = (p, j) then a + g.2 else a) 0

/-- What halftoning takes for one nozzle: hidden dose, corrected dose, state, and whether it is a receiver (R181). -/
structure HideOut where
  hidden : Nat
  corrected : Nat
  state : BitVec 2
  receiver : Bool
  deriving DecidableEq, Repr

/-- R181: the hidden doses of a plane's heads. -/
def Dev.hide (d : Dev) (n : Nat) (doses : List (Nat × List Nat)) : List (Nat × List HideOut) :=
  let gs := d.allGifts n doses
  let keep := d.inForce (Fld.HT_HGAIN.WeakKeep n)
  doses.map (fun hp => (hp.1, (hp.2.zipIdx).map (fun xj =>
    let st := d.adoptedState (nozzleNo hp.1 xj.2)
    if st = 0#2 then
      let r := if gs.isEmpty then 0 else received gs hp.1 xj.2
      ⟨min 511 (xj.1 + r), xj.1, st, decide (0 < r)⟩
    else ⟨keptDose st keep xj.1, xj.1, st, false⟩)))

/-! ### Drop levels -/

/-- R183: the drop of level `k` of a port. -/
def Dev.drop (d : Dev) (p k : Nat) : Nat :=
  if k = 0 then 0
  else if k % 2 = 1 then d.inForce (Fld.HT_DROP.DropLo p ((k - 1) / 2))
  else d.inForce (Fld.HT_DROP.DropHi p (k / 2 - 1))

/-- R184: level `k` is appended when its drop exceeds that of the last usable level; levels are kept newest first. -/
def usableStep (drops : List Nat) (ls : List (Nat × Nat)) (k : Nat) : List (Nat × Nat) :=
  let x := drops.getD k 0
  match ls with
  | [] => [(k, x)]
  | (_, y) :: _ => if y < x then (k, x) :: ls else ls

/-- R184: the usable levels with their drops, ascending, for a cap. -/
def usableLevels (drops : List Nat) (cap : Nat) : List (Nat × Nat) :=
  ((List.range cap).foldl (fun ls i => usableStep drops ls (i + 1)) [(0, 0)]).reverse

/-- R184: the cap of a plane's nozzles: ordinary, or receiver on this line. -/
def Dev.cap (d : Dev) (n : Nat) (receiver : Bool) : Nat :=
  let maxcode := 2 ^ d.codeBits n - 1
  let lc := d.inForce (Fld.HT_CTRL.LevelCap n)
  if receiver then min (max (d.inForce (Fld.HT_CTRL.PromoteCap n)) lc) maxcode else min lc maxcode

/-- The distance of a drop from a value. -/
def dropDist (v : Int) (x : Nat) : Nat := (v - x).natAbs

/-- R187: the usable level nearest `v`; on a tie the lower. -/
def nearestLevel (v : Int) : List (Nat × Nat) → Nat × Nat
  | [] => (0, 0)
  | l :: ls => ls.foldl (fun best e => if dropDist v e.2 < dropDist v best.2 then e else best) l

/-! ### Error diffusion -/

/-- R191: the taps used: TapRight, TapDownLeft, TapDown, TapDownRight, reduced until their sum is at most 16. -/
def reduceTaps (r dl dn dr : Nat) : Nat × Nat × Nat × Nat :=
  let excess := (r + dl + dn + dr) - 16
  let cdr := min excess dr
  let cdn := min (excess - cdr) dn
  let cdl := min (excess - cdr - cdn) dl
  let cr := min (excess - cdr - cdn - cdl) r
  (r - cr, dl - cdl, dn - cdn, dr - cdr)

/-- The taps of a plane's halftone set, clamped to 16 each, before R191. -/
def Dev.rawTaps (d : Dev) (n : Nat) : Nat × Nat × Nat × Nat :=
  (d.inForce (Fld.HT_DIFF.TapRight n), d.inForce (Fld.HT_DIFF.TapDownLeft n), d.inForce (Fld.HT_DIFF.TapDown n),
    d.inForce (Fld.HT_DIFF.TapDownRight n))

/-- The taps a plane uses. -/
def Dev.taps (d : Dev) (n : Nat) : Nat × Nat × Nat × Nat :=
  let t := d.rawTaps n
  reduceTaps t.1 t.2.1 t.2.2.1 t.2.2.2

/-- The settings of one lane: taps, usable levels of ordinary nozzles and of receivers, and BlankHold. -/
structure LaneCfg where
  taps : Nat × Nat × Nat × Nat
  ordinary : List (Nat × Nat)
  promoted : List (Nat × Nat)
  blankHold : Bool
  deriving DecidableEq, Repr

/-- R187: a part of the error through a tap, rounding towards minus infinity. -/
def tapPart (e : Int) (tap : Nat) : Int := Int.fdiv (e * tap + 8) 16

/-- One nozzle's outcome in a lane: level, and the parts right, down-left, down, down-right. -/
structure DiffOut where
  level : Nat
  right : Int
  downLeft : Int
  down : Int
  downRight : Int
  deriving DecidableEq, Repr

/-- R187: one nozzle of an error-diffused lane. -/
def diffuse (g : LaneCfg) (x : HideOut) (rightIn rowIn : Int) : DiffOut :=
  let v0 := clampInt (-256) 767 ((x.hidden : Int) + rightIn + rowIn)
  let silent := decide (x.state = 2#2) || decide (x.state = 3#2)
  let blank := !silent && decide (x.corrected = 0) && g.blankHold
  let v := if blank then 0 else v0
  let lv := if silent || blank then (0, 0) else nearestLevel v (if x.receiver then g.promoted else g.ordinary)
  let e := v - lv.2
  let (tr, tdl, td, tdr) := g.taps
  let pdl := tapPart e tdl
  let pd := tapPart e td
  let pdr := tapPart e tdr
  let pr := if tr + tdl + td + tdr = 16 then e - pdl - pd - pdr else tapPart e tr
  ⟨lv.1, pr, pdl, pd, pdr⟩

/-- A lane's pass over nozzles from left to right: the outcomes in order. -/
def diffuseRun (g : LaneCfg) : Int → List (HideOut × Int) → List DiffOut
  | _, [] => []
  | r, (x, row) :: rest =>
    let o := diffuse g x r row
    o :: diffuseRun g o.right rest

/-- R189: the right part the warm-up nozzles pass on. -/
def warmUp (g : LaneCfg) (xs : List HideOut) : Int :=
  match (diffuseRun g 0 (xs.map (fun x => (x, 0)))).getLast? with
  | some o => o.right
  | none => 0

/-- R187, R188: the row errors for the next line, by index: down, the down-left of the nozzle to the right, the
down-right of the nozzle to the left, with the edges added to the first and last nozzle, clamped. -/
def nextRow (os : List DiffOut) : List Int :=
  let n := os.length
  let a := os.toArray
  let z : DiffOut := ⟨0, 0, 0, 0, 0⟩
  (List.range n).map (fun j =>
    let o := a.getD j z
    let fromRight := if j + 1 < n then (a.getD (j + 1) z).downLeft else 0
    let fromLeft := if 0 < j then (a.getD (j - 1) z).downRight else 0
    let edgeL := if j = 0 then o.downLeft else 0
    let edgeR := if j + 1 = n then o.downRight else 0
    clampInt (-1024) 1023 (o.down + fromRight + fromLeft + edgeL + edgeR))

/-- The lane settings of a port of a plane. -/
def Dev.laneCfg (d : Dev) (n p : Nat) : LaneCfg :=
  let drops := (List.range 8).map (d.drop p)
  ⟨d.taps n, usableLevels drops (d.cap n false), usableLevels drops (d.cap n true),
    decide (d.inForce (Fld.HT_CTRL.BlankHold n) = 1)⟩

/-! ### Threshold arrays -/

/-- R192: entry T_n[y][x] in force. -/
def Dev.thr (d : Dev) (n y x : Nat) : Nat :=
  let a := 0x02000000 + 0x10000 * n + 256 * y + x
  bitsOf (d.actReg (a / 4 * 4)).toNat (8 * (x % 4) + 7) (8 * (x % 4))

/-- R193: the level offsets of a level. -/
def Dev.levelOff (d : Dev) (n lv : Nat) : Nat × Nat :=
  let w := (lv - 1) / 2
  if lv % 2 = 1 then (d.inForce (Fld.HT_LOFF.OffXLo n w), d.inForce (Fld.HT_LOFF.OffYLo n w))
  else (d.inForce (Fld.HT_LOFF.OffXHi n w), d.inForce (Fld.HT_LOFF.OffYHi n w))

/-- R193: the highest usable level whose drop is at most `h`, and the next one above it. -/
def bracket (h : Nat) : List (Nat × Nat) → (Nat × Nat) × Option (Nat × Nat)
  | [] => ((0, 0), none)
  | [l] => (l, none)
  | l :: m :: rest => if m.2 ≤ h then bracket h (m :: rest) else (l, some m)

/-- R193: a nozzle's level from its hidden dose, grid line and column. -/
def Dev.thresholdLevel (d : Dev) (n line col : Nat) (levels : List (Nat × Nat)) (x : HideOut) : Nat :=
  if x.state = 2#2 ∨ x.state = 3#2 then 0
  else
    match bracket x.hidden levels with
    | (a, none) => a.1
    | (a, some b) =>
      let frac := (x.hidden - a.2) * 256 / (b.2 - a.2)
      let off := d.levelOff n b.1
      if d.thr n ((line + off.2) % 256) ((col + off.1) % 256) < frac then b.1 else a.1

/-! ### A whole line -/

/-- R186, R189, R193: the codes of one head and its row errors for the next line. -/
def Dev.halftoneHead (d : Dev) (n line h p : Nat) (prev : Option (Nat × List HideOut)) (xs : List HideOut)
    (row : List Int) : List Nat × List Int :=
  let g := d.laneCfg n p
  if d.inForce (Fld.HT_CTRL.Method n) = 0 then
    let rightIn := match prev with
      | none => 0
      | some (q, ys) =>
        let from_ := d.headLen n - d.overlap n q - 64
        warmUp (d.laneCfg n q) ((ys.drop from_).take 64)
    let rows := row ++ List.replicate (xs.length - row.length) 0
    let os := diffuseRun g rightIn (xs.zip rows)
    (os.map (fun o => o.level), nextRow os)
  else
    let c0 := d.startCol n h
    (xs.zipIdx.map (fun (xj : HideOut × Nat) =>
      d.thresholdLevel n line (c0 + xj.2) (if xj.1.receiver then g.promoted else g.ordinary) xj.1), row)

/-- The heads of a plane in order, each with the head before it. -/
def withPrev {α : Type} : Option α → List α → List (Option α × α)
  | _, [] => []
  | prev, x :: xs => (prev, x) :: withPrev (some x) xs

/-- R186 to R193: the codes of every head of a plane for one grid line, and the row errors it leaves. -/
def Dev.halftone (d : Dev) (n line : Nat) (heads : List (Nat × List HideOut)) (rows : List (List Int)) :
    List (List Nat) × List (List Int) :=
  let outs := ((withPrev none heads).zipIdx).map (fun e =>
    d.halftoneHead n line e.2 e.1.2.1 e.1.1 e.1.2.2 (rows.getD e.2 []))
  (outs.map (·.1), outs.map (·.2))

/-! ### Adoption -/

/-- R182: a donor that is uncovered: no eligible candidate with weight; with HideGain 0 none is, and a weak donor with
WeakKeep 256 is not counted. -/
def Dev.uncovered (d : Dev) (n z : Nat) : Bool :=
  let st := d.adoptedState z
  decide (weightSum (d.receivers n (z / 4096) (z % 4096)) = 0) && decide (d.inForce (Fld.HT_HGAIN.HideGain n) ≠ 0) &&
    !(decide (st = 1#2) && decide (d.inForce (Fld.HT_HGAIN.WeakKeep n) = 256))

/-- The nozzles of a plane that a map lists, ascending. -/
def Dev.listedOf (d : Dev) (n : Nat) (map : List (Nat × BitVec 2)) : List Nat :=
  (map.filter (fun e => d.nozzleIn e.1 && decide (d.planeOfNozzle e.1 = some n))).map (·.1)

/-- R175, R182: plane `n` adopts the pending map for its nozzles, counts its bad nozzles and its uncovered donors. -/
def Dev.adopt (d : Dev) (n : Nat) : Dev :=
  let mine := fun z => decide (d.planeOfNozzle z = some n)
  let kept := d.ras.adoptedMap.filter (fun e => !mine e.1)
  let new := d.ras.pendingMap.filter (fun e => mine e.1)
  let d := { d with ras := { d.ras with
    adoptedMap := spMerge (kept.length + new.length) kept new
    statePend := d.ras.statePend &&& ~~~(BitVec.ofNat 8 (2 ^ n)) } }
  let listed := d.listedOf n d.ras.adoptedMap
  let bad := listed.filter (fun z => decide (2 ≤ (d.adoptedState z).toNat))
  let unc := listed.filter (d.uncovered n)
  let d := (d.wr (Fld.HT_BAD.Bad n) bad.length).wr (Fld.HT_UNCOV.Uncovered n) unc.length
  match unc with
  | [] => d
  | z :: _ => (d.sticky Fld.HT_ERR.Uncovered).notice Nt.Uncovered [(1, n), (4, unc.length), (4, z)]

/-- R173 to R175: the pending state of a nozzle changes; an idle plane adopts it at once, one that prints has the change
pending; a nozzle in no enabled plane, or of a chip beyond the chain (R21), is taken at once.  The stoker records the
change (R460). -/
def Dev.setNozzleState (d : Dev) (z : Nat) (st : BitVec 2) (source : Nat) : Dev :=
  if d.pendingState z = st then d
  else
    let d := { d with
      ras := { d.ras with pendingMap := spPut 0#2 z st d.ras.pendingMap }
      jnl := { d.jnl with queue := d.jnl.queue ++ [JnlChange.state z st source] } }
    match (if d.nozzleIn z then d.planeOfNozzle z else none) with
    | none => { d with ras := { d.ras with adoptedMap := spPut 0#2 z st d.ras.adoptedMap } }
    | some n =>
      let d := { d with ras := { d.ras with statePend := d.ras.statePend ||| BitVec.ofNat 8 (2 ^ n) } }
      if d.planeIdle n then d.adopt n else d

end Sys2Proof.Machine
end

