-- ==== Sys2Proof/Machine/Sets.lean ====
section
/-!
DEFINITION. The shadow sets (Table 109): commits and their snapshots (R451, R452), the moment a set takes effect
(R43, R44, R166, R167, R195, R196, R259, R260), what is checked then (R26, R184, R191, R238, R245), and the clamp
report (R449, R450).
-/
namespace Sys2Proof.Machine

/-! ### The clamp report -/

/-- R450: one entry more; past 256 entries it is only counted. -/
def Dev.addClamp (d : Dev) (e : ClampEntry) : Dev :=
  let d := { d with boot := { d.boot with clampNew := d.boot.clampNew + 1 } }
  let d := d.bumpSat Fld.CFG_CLAMPCNT.Count 1
  if d.boot.clamps.length < 256 then { d with boot := { d.boot with clamps := d.boot.clamps ++ [e] } }
  else d.wr Fld.CFG_CLAMPCNT.Overflow 1

/-- Several entries, in order. -/
def Dev.addClamps (d : Dev) (es : List ClampEntry) : Dev := es.foldl Dev.addClamp d

/-- R450: the ClampReport notice for the entries made since the last one. -/
def Dev.clampNotice (d : Dev) : Dev :=
  let n := d.boot.clampNew
  let d := { d with boot := { d.boot with clampNew := 0 } }
  if n = 0 then d else d.notice Nt.ClampReport [(4, n)]

/-- R449: the clamps that a register word of a set needs; `src` is Table 108's Source. -/
def fieldClamps (p : Part) (src a : Nat) (w : Word) : List ClampEntry :=
  match regSpecAt a with
  | none => []
  | some (r, _, _) =>
    r.flds.filterMap (fun f =>
      let g := bitsOf w.toNat f.hi f.lo
      let u := clampField p r f g
      if f.acc = .rw ∧ u ≠ g then some ⟨a, src, 0, f.hi + 1 - f.lo, f.lo, g, u⟩ else none)

/-- The clamps of the words in force at the addresses with a property. -/
def Dev.actClamps (d : Dev) (src : Nat) (p : Nat → Bool) : List ClampEntry :=
  (d.act.where_ p).flatMap (fun e => fieldClamps d.part src e.1 e.2)

/-- R26: the clamps of the port ranges. -/
def Dev.rangeClamps (d : Dev) (src : Nat) : List ClampEntry :=
  (List.range 8).filterMap (fun n =>
    let given := (d.givenRange n).2
    let used := (d.range n).2
    if given = used then none else some ⟨Adr.HP_PLANE n, src, 0, 7, 8, given, used⟩)

/-! ### Chain order (R238) -/

/-- The identity ChainOrder: position q holds chip q. -/
def identityOrder : Nat := 0xFAC688

/-- The chip in a position of a ChainOrder. -/
def orderSlot (order q : Nat) : Nat := order / 8 ^ q % 8

/-- Positions 0 to `len` − 1 hold each of the chips 0 to `len` − 1 exactly once. -/
def orderOk (len order : Nat) : Bool :=
  (List.range len).all (fun c => ((List.range len).filter (fun q => orderSlot order q == c)).length == 1)

/-- The ChainOrder a plane uses. -/
def Dev.chainOrder (d : Dev) (n : Nat) : Nat :=
  let o := d.inForce (Fld.HP_PORTCFG.ChainOrder n)
  if orderOk (d.chainLen n) o then o else identityOrder

/-- The clamp entries of broken ChainOrders of enabled planes. -/
def Dev.orderClamps (d : Dev) (src : Nat) : List ClampEntry :=
  d.planesOn.filterMap (fun n =>
    let o := d.inForce (Fld.HP_PORTCFG.ChainOrder n)
    if orderOk (d.chainLen n) o then none else some ⟨Adr.HP_PORTCFG n, src, 0, 24, 8, o, identityOrder⟩)

/-! ### Cycle check (R245) -/

/-- HP_SHIFTn and HP_CYCLEn of an enabled plane, and the ShiftOverrun report. -/
def Dev.checkCycle (d : Dev) (n : Nat) : Dev :=
  let c := d.tCyc n
  let m := d.rd (Fld.LT_MINPER.MinPer n)
  let d := (d.wr (Fld.HP_SHIFT.Shift n) (d.tSh n)).wr (Fld.HP_CYCLE.Cycle n) c
  if m < c then (d.sticky Fld.HP_ERR.ShiftOverrun).notice Nt.ShiftOverrun [(1, n), (4, c), (4, m)] else d

/-- R245 for every enabled plane. -/
def Dev.checkCycles (d : Dev) : Dev := d.planesOn.foldl Dev.checkCycle d

/-! ### Global sets -/

/-- The words of a set in a register file taken into force. -/
def Dev.loadSet (d : Dev) (s : ShadowSet) (f : RegFile) : Dev :=
  { d with act := d.act.replace f (fun a => decide (setOf a = s)) }

/-- R44: HP_PWIDn shows the widths of the geometry in force. -/
def Dev.showWidths (d : Dev) : Dev := (List.range 8).foldl (fun d n => d.wr (Fld.HP_PWID.Width n) (d.width n)) d

/-- R144, R166: the budget of the held pages with a property is computed again. -/
def Dev.rebudget (d : Dev) (p : Page → Bool) : Dev :=
  { d with job := { d.job with pages := d.job.pages.map (fun g =>
      if p g then { g with budget := { g.budget with scanPending := true } } else g) } }

/-- R242: every port's shift number restarts. -/
def Dev.restartShifts (d : Dev) : Dev :=
  { d with hp := { d.hp with ports := d.hp.ports.map (fun p => { p with n := 0, prev := none, whole := false, compare := none }) } }

/-- R258: every port is uncalibrated. -/
def Dev.uncalibrate (d : Dev) : Dev :=
  (((d.wr Fld.HP_DSKDONELO.Ports 0).wr Fld.HP_DSKDONEHI.Ports 0).wr Fld.HP_DSKPASSLO.Ports 0).wr
    Fld.HP_DSKPASSHI.Ports 0

/-- The geometry set's entries of the clamp report. -/
def Dev.geometryClamps (d : Dev) (src : Nat) : List ClampEntry :=
  d.actClamps src (fun a => decide (setOf a = .geometry)) ++ d.rangeClamps src

/-- The port set's entries, `own`: its fields' clamps; with R238's check for all that brings it about. -/
def Dev.portClamps (d : Dev) (src : Nat) (own : Bool) : List ClampEntry :=
  (if own then d.actClamps src (fun a => decide (setOf a = .port)) else []) ++ d.orderClamps src

/-! ### Print sets, per plane -/

/-- The addresses of a print set that belong to plane `n`. -/
def Dev.partOf (d : Dev) (s : ShadowSet) (n a : Nat) : Bool :=
  decide (setOf a = s) && decide (d.ownerPlane a = some n)

/-- Bit `n` of an 8-bit mask. -/
def bit8 (n : Nat) : BitVec 8 := BitVec.ofNat 8 (2 ^ n)

/-- R168: the active and shadow copies of a part swap. -/
def Dev.swapPart (d : Dev) (p : Nat → Bool) : Dev := { d with win := d.win.replace d.act p, act := d.act.replace d.win p }

/-- R168: the shadow of a part takes what is in force. -/
def Dev.copyPart (d : Dev) (p : Nat → Bool) : Dev := { d with win := d.win.replace d.act p }

/-- R167, R168: the correction set takes effect for plane `n`. -/
def Dev.corrEffect (d : Dev) (n : Nat) : Dev :=
  let d := d.swapPart (d.partOf .correction n)
  let d := { d with ras := { d.ras with
    corrWait := d.ras.corrWait &&& ~~~(bit8 n), corrCopy := d.ras.corrCopy ||| bit8 n } }
  (d.addClamps (d.actClamps 1 (d.partOf .correction n))).clampNotice

/-- R184: no usable level but 0 on a port of plane `n`: its drops up to LevelCap are all 0. -/
def Dev.noLevels (d : Dev) (n p : Nat) : Bool :=
  (List.range (d.inForce (Fld.HT_CTRL.LevelCap n))).all (fun i => decide (d.drop p (i + 1) = 0))

/-- R184, R191: the reports made each time the halftone set takes effect for an enabled plane. -/
def Dev.halftoneReports (d : Dev) (n : Nat) : Dev :=
  if d.enabled n then
    let t := d.rawTaps n
    let u := d.taps n
    let d := if 16 < t.1 + t.2.1 + t.2.2.1 + t.2.2.2 then
        (d.sticky Fld.HT_ERR.TapClamp).noticeAt Nt.TapClamp
          [(0, 1, n), (1, 1, u.1), (2, 1, u.2.1), (3, 1, u.2.2.1), (4, 1, u.2.2.2)]
      else d
    ((d.portsOf n).filter (d.noLevels n)).foldl
      (fun d p => (d.sticky Fld.HT_ERR.NoLevels).noticeAt Nt.NoLevels [(0, 1, p), (1, 1, n)]) d
  else d

/-- R195: the halftone set takes effect for plane `n`. -/
def Dev.htEffect (d : Dev) (n : Nat) : Dev :=
  let d := d.swapPart (d.partOf .halftone n)
  let d := { d with ras := { d.ras with
    htWait := d.ras.htWait &&& ~~~(bit8 n), htCopy := d.ras.htCopy ||| bit8 n } }
  ((d.addClamps (d.actClamps 1 (d.partOf .halftone n))).clampNotice).halftoneReports n

/-- R260: the strobe set takes effect for plane `n`. -/
def Dev.strobeEffect (d : Dev) (n : Nat) : Dev :=
  let d := { d with act := d.act.replace d.win (d.partOf .strobe n) }
  { d with ras := { d.ras with strobeWait := d.ras.strobeWait &&& ~~~(bit8 n) } }

/-- R167, R260: fields of ports in no enabled plane take effect at once. -/
def Dev.freePortsEffect (d : Dev) : Dev :=
  let mine := fun a =>
    (decide (setOf a = .correction) || decide (setOf a = .halftone) || decide (setOf a = .strobe)) &&
      decide (d.ownerPlane a = none)
  let d' := { d with act := d.act.replace d.win mine }
  (d'.addClamps (d'.actClamps 1 mine)).clampNotice

/-- A print commit for plane `n`: each of its sets whose bit is clear takes effect at once when the plane has no page in
flight, and waits otherwise (R167, R169, R195, R260). -/
def Dev.commitPlane (d : Dev) (n : Nat) : Dev :=
  let idle := d.planeIdle n
  let d := if (d.ras.corrWait ||| d.ras.corrCopy) &&& bit8 n ≠ 0 then d
    else if idle then d.corrEffect n
    else { d with ras := { d.ras with corrWait := d.ras.corrWait ||| bit8 n } }
  let d := if (d.ras.htWait ||| d.ras.htCopy) &&& bit8 n ≠ 0 then d
    else if idle then d.htEffect n
    else { d with ras := { d.ras with htWait := d.ras.htWait ||| bit8 n } }
  if d.ras.strobeWait &&& bit8 n ≠ 0 then d
  else if idle then d.strobeEffect n
  else { d with ras := { d.ras with strobeWait := d.ras.strobeWait ||| bit8 n } }

/-- R451, R452: the commit word's bit 4. -/
def Dev.commitPrint (d : Dev) : Dev := (List.range 8).foldl Dev.commitPlane d.freePortsEffect

/-- R167, R195: what waits for plane `n`'s first computed line takes effect. -/
def Dev.linePending (d : Dev) (n : Nat) : Dev :=
  let d := if d.ras.corrWait &&& bit8 n ≠ 0 then d.corrEffect n else d
  if d.ras.htWait &&& bit8 n ≠ 0 then d.htEffect n else d

/-- R260: what waits for line event 0 takes effect. -/
def Dev.strobePending (d : Dev) (n : Nat) : Dev :=
  if d.ras.strobeWait &&& bit8 n ≠ 0 then d.strobeEffect n else d

/-- R169: every pending print commit takes effect. -/
def Dev.allPrintPending (d : Dev) : Dev := (List.range 8).foldl (fun d n => (d.linePending n).strobePending n) d

/-- R168: the copy of plane `n`'s correction part completes; nothing where none runs. -/
def Dev.corrCopyDone (d : Dev) (n : Nat) : Dev :=
  if d.ras.corrCopy &&& bit8 n = 0 then d
  else
    let d := d.copyPart (d.partOf .correction n)
    { d with ras := { d.ras with corrCopy := d.ras.corrCopy &&& ~~~(bit8 n) } }

/-- R195: the copy of plane `n`'s halftone part completes. -/
def Dev.htCopyDone (d : Dev) (n : Nat) : Dev :=
  if d.ras.htCopy &&& bit8 n = 0 then d
  else
    let d := d.copyPart (d.partOf .halftone n)
    { d with ras := { d.ras with htCopy := d.ras.htCopy &&& ~~~(bit8 n) } }

/-- R168, R169: every running copy completes: a geometry set taking effect ends the copies under the old one. -/
def Dev.finishCopies (d : Dev) : Dev := (List.range 8).foldl (fun d n => (d.corrCopyDone n).htCopyDone n) d

/-! ### Global sets taking effect -/

/-- One global set taking effect: its words come into force, with its entries in the clamp report. -/
def Dev.takeSet (d : Dev) (s : ShadowSet) (snap : Option RegFile) (clamps : Dev → List ClampEntry) : Dev :=
  match snap with
  | none => d
  | some f =>
    let d := d.loadSet s f
    (d.addClamps (clamps d)).clampNotice

/-- R43, R166, R196, R259: the pending global sets take effect together, with the checks of R238 and R245, the restart
of shift numbers (R242), the calibration rule of R258, the widths (R44) and the budgets (R166); a geometry set brings
every pending print commit with it (R169). -/
def Dev.takeGlobalSets (d : Dev) : Dev :=
  let geo := d.boot.pendGeo.isSome
  let scale := d.boot.pendScale.isSome
  let code := d.boot.pendCode.isSome
  let port := d.boot.pendPort.isSome
  if !(geo || scale || code || port) then d
  else
    let d := if geo then d.allPrintPending.finishCopies else d
    let oldClk := d.inForce Fld.HP_CLK.ClkSel
    let d := d.takeSet .geometry d.boot.pendGeo (fun d => d.geometryClamps 1)
    let d := d.takeSet .scale d.boot.pendScale (fun d => d.actClamps 1 (fun a => decide (setOf a = .scale)))
    let d := d.takeSet .codeWidth d.boot.pendCode (fun d => d.actClamps 1 (fun a => decide (setOf a = .codeWidth)))
    let d := match d.boot.pendPort with
      | some f => d.loadSet .port f
      | none => d
    let d := if geo || code || port then (d.addClamps (d.portClamps 1 port)).clampNotice else d
    let d := { d with boot := { d.boot with pendGeo := none, pendScale := none, pendCode := none, pendPort := none } }
    let d := if geo then d.showWidths else d
    let d := if port ∧ d.inForce Fld.HP_CLK.ClkSel ≠ oldClk then d.uncalibrate else d
    let d := if port then { d.restartShifts with hp := { d.restartShifts.hp with configured := true } } else d
    let d := if geo || code || port then d.checkCycles else d
    if scale then d.rebudget (fun _ => true) else d

/-- R43: at a page-start event that finds every plane idle. -/
def Dev.setsAtPageStart (d : Dev) : Dev := if d.allIdle then d.takeGlobalSets else d

/-! ### The commit word -/

/-- R452: the snapshot of a global set. -/
def Dev.snapshot (d : Dev) (s : ShadowSet) : RegFile := d.win.where_ (fun a => decide (setOf a = s))

/-- R451, R452: the sets that the low bits of a commit word name. -/
def Dev.commit (d : Dev) (bits : Nat) : Dev :=
  let b := d.boot
  let b := if bits.testBit 0 then { b with pendGeo := some (d.snapshot .geometry) } else b
  let b := if bits.testBit 1 then { b with pendScale := some (d.snapshot .scale) } else b
  let b := if bits.testBit 2 then { b with pendCode := some (d.snapshot .codeWidth) } else b
  let b := if bits.testBit 3 then { b with pendPort := some (d.snapshot .port) } else b
  let d := { d with boot := b }
  if bits.testBit 4 then d.commitPrint else d

/-- CFG_CLAMPCTRL.Clear (R450). -/
def Dev.clampClear (d : Dev) : Dev :=
  let d := { d with boot := { d.boot with clamps := [], clampNew := 0 } }
  (d.wr Fld.CFG_CLAMPCNT.Count 0).wr Fld.CFG_CLAMPCNT.Overflow 0

end Sys2Proof.Machine
end

