-- ==== Sys2Proof/Machine/Damage.lean ====
section
/-!
DEFINITION. Reads of the job store and what they meet: the DRAM address mapping (R381), corrected and damaged lines
(R391 to R394), and the repair request to the partner (R338).
-/
namespace Sys2Proof.Machine

/-! ### Address mapping (R381, Table 82) -/

/-- Bits of the channel field: two with four channels. -/
def Dev.chanBits (d : Dev) : Nat := if d.rd Fld.MEM_CFG.Channels = 15 then 2 else 1

/-- Bits of the rank field. -/
def Dev.rankBits (d : Dev) : Nat := d.rd Fld.MEM_CFG.Ranks

/-- Installed capacity in bytes (Table 81). -/
def Dev.installed (d : Dev) : Nat := d.rd Fld.MEM_SIZE.GiB * 2 ^ 30

/-- The channel of an offset. -/
def Dev.dramChannel (d : Dev) (a : Nat) : Nat := a / 256 % 2 ^ d.chanBits

/-- The bank group, bank, high column, rank and row of an offset follow the channel field. -/
def Dev.dramUpper (d : Dev) (a : Nat) : Nat := a / 256 / 2 ^ d.chanBits

/-- The line column LC of an offset. -/
def Dev.lineColumn (d : Dev) (a : Nat) : Nat := (d.dramUpper a / 16 % 32) * 4 + a / 64 % 4

/-- The rank of an offset. -/
def Dev.dramRank (d : Dev) (a : Nat) : Nat := d.dramUpper a / 512 % 2 ^ d.rankBits

/-- The row of an offset. -/
def Dev.dramRow (d : Dev) (a : Nat) : Nat := d.dramUpper a / 512 / 2 ^ d.rankBits

/-- The word that names the row of an offset: channel, rank, bank group, bank and row at MEM_REMAP's places. -/
def Dev.rowWord (d : Dev) (a : Nat) : Nat :=
  let u := d.dramUpper a
  d.dramChannel a * 2 ^ 28 + d.dramRank a * 2 ^ 27 + (u % 4) * 2 ^ 25 + (u / 4 % 4) * 2 ^ 23 + d.dramRow a

/-! ### Finds -/

/-- MEM_LASTLO and MEM_LASTHI show the latest find. -/
def Dev.lastFind (d : Dev) (kind a : Nat) : Dev :=
  ((d.wr Fld.MEM_LASTLO.AddrLo a).wr Fld.MEM_LASTHI.Kind kind).wr Fld.MEM_LASTHI.AddrHi (a / 2 ^ 32)

/-- A corrected line is counted on its channel. -/
def Dev.countCorrected (d : Dev) (line : Nat) : Dev :=
  (d.bump (Fld.MEM_CECNT.Count (d.dramChannel line))).lastFind 1 line

/-- The device and its partner run as a pair. -/
def Dev.inPair (d : Dev) : Bool := decide (d.pair.state = .paired ∨ d.pair.state = .yielding)

/-- R338: the repair request for a line below JOB_LIMIT, once while it is outstanding. -/
def Dev.askRepair (d : Dev) (line : Nat) : Dev :=
  if d.inPair && decide (line < d.jobLimit) && !d.pair.repairs.contains line then
    { d with pair := { d.pair with repairs := insNat line d.pair.repairs } }.emit (.pair (.repairRequest line))
  else d

/-- R393: an uncorrectable line that is not poisoned is queued to the sweeper. -/
def Dev.queueReread (d : Dev) (line : Nat) : Dev :=
  { d with memc := { d.memc with reread := insNat line d.memc.reread } }

/-- What a read does on meeting one line: a correction is counted, a damaged line is queued to the sweeper and asked of
the partner (R393, R338). -/
def Dev.meetLine (m : Mem) (finds : Finds) (d : Dev) (line : Nat) : Dev :=
  if m.watermark ≤ line then d
  else if m.poison.contains line then d.askRepair line
  else if foundAs finds .uncorrectable line then (d.queueReread line).askRepair line
  else if foundAs finds .corrected line then d.countCorrected line
  else d

/-- A read of several lines. -/
def Dev.meetLines (d : Dev) (m : Mem) (finds : Finds) (lines : List Nat) : Dev := lines.foldl (Dev.meetLine m finds) d

/-- R395: the lines that a write of `n` bytes covers only in part. -/
def partLines (a n : Nat) : List Nat := (linesOf a n).filter (fun l => decide (l < a ∨ a + n < l + 64))

/-- R395: what the controller's read of a merged line meets. -/
def Dev.meetMerge (d : Dev) (m : Mem) (finds : Finds) (a n : Nat) : Dev := d.meetLines m finds (partLines a n)

/-- What a reader that can wait for a repair does about damaged lines (R145): go on with good data, wait, or take them
as damaged. -/
inductive ReadAnswer | good | wait | damaged
  deriving DecidableEq, Repr

/-- R145: in a pair a damaged line is waited for until the wait of the line ends; elsewhere it is damaged at once.
`dec.waits` lists each line waited for, and whether its wait is over. -/
def Dev.readAnswer (d : Dev) (m : Mem) (finds : Finds) (lines : List Nat) : ReadAnswer :=
  let bad := lines.filter (m.bad finds)
  if bad.isEmpty then .good
  else if !d.inPair then .damaged
  else if bad.all (fun l => d.dec.waits.contains (l, 1)) then .damaged
  else .wait

/-- The damaged lines of a read that waits are put on the list of R145's waits. -/
def Dev.startWaits (d : Dev) (lines : List Nat) : Dev :=
  { d with dec := { d.dec with
    waits := d.dec.waits ++
      ((lines.filter (fun l => !(d.dec.waits.any (fun w => w.1 == l)))).map (fun l => (l, 0))) } }

/-- R145: the wait for a line's repair is over. -/
def Dev.endWait (d : Dev) (line : Nat) : Dev :=
  { d with dec := { d.dec with waits := d.dec.waits.map (fun w => if w.1 = line then (line, 1) else w) } }

/-- A line is no longer waited for. -/
def Dev.dropWait (d : Dev) (line : Nat) : Dev :=
  { d with dec := { d.dec with waits := d.dec.waits.filter (fun w => w.1 != line) } }

end Sys2Proof.Machine
end

