-- ==== Sys2Proof/Machine/Job.lean ====
section
/-!
DEFINITION. The page sequencer (R58 to R80): links and descriptors, fetching, parking, Hold, late appends, chain dry,
Start, Stop and Abort, and retirement.
-/
namespace Sys2Proof.Machine

/-! ### Descriptors -/

/-- JOB_HEAD. -/
def Dev.jobHead (d : Dev) : Nat := d.rd Fld.JOB_HEADLO.HeadLo * 128 + d.rd Fld.JOB_HEADHI.HeadHi * 2 ^ 32

/-- Table 15: a plane's TableOffset and EntryCount as they stand in a descriptor. -/
def descTable (bs : Bytes) (p : Nat) : Nat × Nat := (leAt bs (0x18 + 12 * p) 8, leAt bs (0x20 + 12 * p) 4)

/-- R60: the first failing field of plane `p`'s table. -/
def tableFail (limit : Nat) (bs : Bytes) (p : Nat) : Option Nat :=
  let t := descTable bs p
  if 2 ^ 40 ≤ t.1 ∨ t.1 % 8 ≠ 0 then some (0x18 + 12 * p)
  else if 16777216 < t.2 ∨ limit < t.1 + 8 * t.2 then some (0x20 + 12 * p)
  else none

/-- R60: the first failing field of a descriptor, if it is malformed. -/
def descFail (limit : Nat) (bs : Bytes) : Option Nat :=
  if leAt bs 0 4 ≠ 0x47505053 then some 0
  else if leAt bs 4 1 ≠ 1 then some 4
  else if crc32c (patchB (bs.take 0x78) 0x14 [0, 0, 0, 0]) ≠ leAt bs 0x14 4 then some 0x14
  else if 4 ≤ leAt bs 6 2 then some 6
  else if 16777216 < leAt bs 0x0C 4 then some 0x0C
  else ((List.range 8).filter (fun p => (leAt bs 5 1).testBit p)).findSome? (tableFail limit bs)

/-- The on-chip copy of a descriptor (R61). -/
def pageOf (key off : Nat) (bs : Bytes) : Page :=
  { key := key, offset := off, planeMask := BitVec.ofNat 8 (leAt bs 5 1)
    printRecord := (leAt bs 6 2).testBit 0
    pageId := BitVec.ofNat 32 (leAt bs 8 4), length := leAt bs 0x0C 4
    generation := BitVec.ofNat 32 (leAt bs 0x10 4)
    tables := Vector.ofFn (fun (p : Fin 8) => descTable bs p.val)
    status := 0#16, endsDry := false, started := Vector.replicate 4 false, startTime := none
    done := Vector.replicate 8 false, cancelled := false, errorEntries := [], echoPorts := [], widthPlanes := []
    budget := ⟨decide (leAt bs 5 1 ≠ 0), [], false, 0⟩, records := [] }

/-- The Hold flag of a descriptor. -/
def descHold (bs : Bytes) : Bool := (leAt bs 6 2).testBit 1

/-- R59: what a NextLink says. -/
inductive LinkSays | endMark | page (offset : Nat) | broken
  deriving DecidableEq, Repr

/-- R59: a link word read. -/
def linkSays (limit w : Nat) : LinkSays :=
  if w % 2 = 1 then .endMark
  else if w % 128 = 0 ∧ w < 2 ^ 40 ∧ w < limit then .page w
  else .broken

/-! ### Lines left -/

/-- A page has begun on some channel. -/
def Page.begun (p : Page) : Bool := p.started.toList.any id

/-- The lines of a plane left to fire of a page it has begun. -/
def Dev.runLeft (d : Dev) (n : Nat) (r : Run) : Nat :=
  if r.abandoned.isSome then 0 else d.planeOffset n + r.length - max r.next (d.planeOffset n)

/-- The pages not begun on a channel that may still begin, oldest first. -/
def Dev.unbegun (d : Dev) (c : Nat) : List Page :=
  d.job.pages.filter (fun p => !p.cancelled && !(vgetD p.started c false) && !(p.status.toNat.testBit 7))

/-- R67, R76: the leading plane's remaining lines, counted to the end of the last fetched page. -/
def Dev.linesLeft (d : Dev) : Nat :=
  match d.leading with
  | some n =>
    ((d.plane n).runs.foldl (fun a r => a + d.runLeft n r) 0) +
      ((d.unbegun (d.channelOf n)).foldl (fun a p => a + p.length) 0)
  | none => (d.unbegun 0).foldl (fun a p => a + p.length) 0

/-- The leading plane has a page in flight. -/
def Dev.leadBusy (d : Dev) : Bool :=
  match d.leading with
  | some n => !d.planeIdle n
  | none => false

/-! ### Retirement -/

/-- The sequencer's state changed. -/
def Dev.setJob (d : Dev) (f : JobSt → JobSt) : Dev := { d with job := f d.job }

/-- R69, R115: a page retires: JOB_RETPAGE, JOB_RETGEN, JOB_RETSTAT, the counters and the page-end notice,
which comes from the striker alone (R341). -/
def Dev.retirePage (d : Dev) (p : Page) : Dev :=
  let d := d.setJob (fun j => { j with pages := j.pages.filter (fun q => q.key != p.key) })
  let d := ((d.wr Fld.JOB_RETPAGE.PageId p.pageId.toNat).wr Fld.JOB_RETGEN.Generation p.generation.toNat).wr
    Fld.JOB_RETSTAT.Status p.status.toNat
  let d := d.bump Fld.JOB_PAGECNT.Count
  let d := if p.status.toNat.testBit 0 then d.bump Fld.JOB_FLAGCNT.Count else d
  let t : TimeStamp := p.startTime.getD ⟨0, 0, 0⟩
  if d.isKeeper then d
  else d.noticeAt Nt.PageEnd
    [(0, 4, p.pageId.toNat), (4, 4, p.generation.toNat), (8, 2, p.status.toNat), (12, 6, t.sec), (18, 4, t.ns)]

/-- R118: a session still has data of the page's record on a plane to send or to have acknowledged. -/
def Session.owesRecord (s : Session) (key plane : Nat) : Bool :=
  s.unacked.any (fun m => decide (m.page = some (key, plane))) ||
    s.waiting.any (fun m => decide (m.page = some (key, plane)))

/-- R118: one plane's record holds up its page's retirement no longer. -/
def Dev.recordDone (d : Dev) (p : Page) (r : RecordSt) : Bool :=
  if r.waiting.isEmpty then r.finished
  else r.ended && r.waiting.all (fun i =>
    match d.session i with
    | some s => !s.owesRecord p.key r.plane
    | none => true)

/-- R69, R65, R66: a page may retire. -/
def Dev.mayRetire (d : Dev) (p : Page) : Bool :=
  if p.cancelled then true
  else p.begun && (p.status.toNat.testBit 7 || d.planesOn.all (fun n => vgetD p.done n false)) &&
    p.records.all (d.recordDone p)

/-- R65: a discarded page retires with Cancelled and no other status bit, and with page-start time 0. -/
def Page.asCancelled (p : Page) : Page := { p with status := 0x4000#16, startTime := none }

/-- R65: with every page gone, a stopping sequencer is Idle. -/
def Dev.settleStop (d : Dev) : Dev :=
  if d.job.seq = .stopping ∧ d.job.pages.isEmpty then d.setJob (fun j => { j with seq := .idle, target := .none }) else d

/-- The oldest held page retires if it may. -/
def Dev.retireOldest (d : Dev) : Dev :=
  match d.job.pages with
  | [] => d
  | p :: _ => if d.mayRetire p then (d.retirePage (if p.cancelled then p.asCancelled else p)).settleStop else d

/-- R65, R66: the pages at the head of the chain that may retire do so, in chain order. -/
def Dev.retireAll : Nat → Dev → Dev
  | 0, d => d
  | n + 1, d =>
    match d.job.pages with
    | [] => d
    | p :: _ => if d.mayRetire p then Dev.retireAll n d.retireOldest else d

/-- R69: the retirement of the oldest page, with the cancelled pages that waited for it. -/
def Dev.pageRetire (d : Dev) : Dev :=
  let d := d.retireOldest
  match d.job.pages with
  | p :: _ => if p.cancelled then Dev.retireAll d.job.pages.length d else d
  | [] => d

/-! ### Fetching -/

/-- R79: the sequencer parks on the link that named a malformed descriptor; notice and trouble record once for each
offset. -/
def Dev.malformed (d : Dev) (off : Nat) (field : Nat) : Dev :=
  let d := d.sticky Fld.JOB_ERR.DescMalformed
  let d := if d.job.faultAt = some off then d
    else (d.noticeTrouble Nt.DescMalformed [(8, off), (2, field)]).setJob (fun j => { j with faultAt := some off })
  d.setJob (fun j => { j with seq := .parkedFault })

/-- R62, R63: a page of Length 0 retires at once with Skipped; 256 in a row stop the chain. -/
def Dev.skipPage (d : Dev) (p : Page) (hold : Bool) : Dev :=
  let d := d.retirePage { p with status := 0x0400#16 }
  let d := d.setJob (fun j => { j with skipRun := j.skipRun + 1, seq := .following, target := .link p.offset hold })
  if 256 ≤ d.job.skipRun then
    ((d.sticky Fld.JOB_ERR.EmptyLoop).noticeTrouble Nt.EmptyLoop [(8, p.offset)]).setJob
      (fun j => { j with seq := .parkedFault, target := .none })
  else d

/-- R76: the append is late: the page that holds the link, the last one held, ends as chain dry. -/
def Dev.lateAppend (d : Dev) : Dev :=
  match d.job.pages.getLast? with
  | none => d
  | some q =>
    ((d.modPage q.key (fun p => { p with endsDry := true })).sticky Fld.JOB_ERR.LateAppend).notice Nt.LateAppend []

/-- R67, R76: a good descriptor of a printing page is held. -/
def Dev.holdPage (d : Dev) (p : Page) (hold : Bool) : Dev :=
  let late := d.leadBusy && !d.job.dry && decide (d.linesLeft < 4096) && !d.isKeeper
  let d := if late then d.lateAppend else d
  d.setJob (fun j => { j with
    pages := j.pages ++ [p], skipRun := 0, seq := .following, target := .link p.offset hold })

/-- R58 to R62: the descriptor at an offset is read and checked. -/
def Dev.fetchDescriptor (d : Dev) (m : Mem) (finds : Finds) (off : Nat) : Dev :=
  let lines := [off, off + 64]
  let d := d.meetLines m finds lines
  match d.readAnswer m finds lines with
  | .wait => d.startWaits (lines.filter (m.bad finds))
  | .damaged => (d.malformed off 0)
  | .good =>
    let bs := m.read off 128
    match descFail d.jobLimit bs with
    | some f => d.malformed off f
    | none =>
      let p := pageOf d.job.nextKey off bs
      let d := d.setJob (fun j => { j with nextKey := j.nextKey + 1, faultAt := none })
      let d := (d.wr Fld.JOB_TAILLO.TailLo (off / 128)).wr Fld.JOB_TAILHI.TailHi (off / 2 ^ 32)
      if p.length = 0 then d.skipPage p (descHold bs) else d.holdPage p (descHold bs)

/-- R73 to R75: the link of the descriptor at an offset is read. -/
def Dev.readLink (d : Dev) (m : Mem) (finds : Finds) (off : Nat) : Dev :=
  let line := lineOf (off + 0x78)
  let d := d.meetLines m finds [line]
  match d.readAnswer m finds [line] with
  | .wait => d.startWaits [line]
  | .damaged => d.malformed off 0x78
  | .good =>
    match linkSays d.jobLimit (leNat (m.read (off + 0x78) 8)) with
    | .broken => d.malformed off 0x78
    | .endMark =>
      d.setJob (fun j => { j with
        seq := .parkedEnd, faultAt := if j.faultAt = some off then none else j.faultAt })
    | .page o => d.fetchDescriptor m finds o

/-- What the sequencer does when it comes to its next link. -/
def Dev.follow (d : Dev) (m : Mem) (finds : Finds) : Dev :=
  match d.job.target with
  | .none => d
  | .head => if d.jobHead < d.jobLimit then d.fetchDescriptor m finds d.jobHead else d.malformed d.jobHead 0
  | .link _ true => d.setJob (fun j => { j with seq := .parkedHold })
  | .link off false => d.readLink m finds off

/-- R67: when the sequencer may fetch. -/
def Dev.mayFetch (d : Dev) : Bool :=
  decide (d.job.seq = .following) && decide (d.job.pages.length < 8) &&
    decide (d.linesLeft < d.rd Fld.JOB_LOOKAHEAD.Lines)

/-- R67: a fetch, where the conditions hold. -/
def Dev.descriptorFetch (d : Dev) (m : Mem) (finds : Finds) : Dev := if d.mayFetch then d.follow m finds else d

/-- R74, R79: a poll of a parked sequencer. -/
def Dev.linkPoll (d : Dev) (m : Mem) (finds : Finds) : Dev :=
  if d.job.seq = .parkedEnd ∨ d.job.seq = .parkedFault then d.follow m finds else d

/-- R74, R77, R79: a doorbell. -/
def Dev.doorbell (d : Dev) (m : Mem) (finds : Finds) : Dev :=
  match d.job.target with
  | .link off true =>
    let parked := decide (d.job.seq = .parkedHold)
    let d := d.setJob (fun j => { j with target := .link off false })
    if parked then (d.setJob (fun j => { j with seq := .following })).follow m finds else d
  | _ =>
    if d.job.seq = .parkedEnd ∨ d.job.seq = .parkedFault then d.follow m finds
    else d.bump Fld.JOB_BELLCNT.Count

/-! ### Chain dry -/

/-- R78, R76: is a further page fetched that the leading plane goes on with, or does the chain run dry at the end of page `p`? -/
def Dev.nextReady (d : Dev) (p : Page) : Bool :=
  match d.leading with
  | none => false
  | some _ => !p.endsDry && d.job.pages.any (fun q => decide (p.key < q.key) && !q.cancelled && !(q.status.toNat.testBit 7))

/-- R78: the leading plane has fired the last line of page `k`; a keeper does not judge this for itself (R320). -/
def Dev.chainDry (d : Dev) (k : Nat) : Dev :=
  match d.page k with
  | none => d
  | some p =>
    if d.job.seq = .idle ∨ d.job.seq = .stopping ∨ d.isKeeper = true ∨ d.nextReady p = true then d
    else
      let d := (d.flag k 9).setJob (fun j => { j with dry := true })
      (d.sticky Fld.JOB_ERR.ChainDry).notice Nt.ChainDry [(4, p.pageId.toNat)]

/-- JOB_STATUS (Table 19). -/
def SeqState.code : SeqState → Nat
  | .idle => 0
  | .following => 1
  | .parkedEnd => 2
  | .parkedHold => 3
  | .parkedFault => 4
  | .stopping => 5

/-- JOB_STATUS (Table 19). -/
def Dev.jobStatus (d : Dev) : Nat :=
  d.job.seq.code * 2 ^ 16 + min 15 d.job.pages.length * 256 + (if d.job.dry && d.allIdle then 2 else 0) +
    (if d.pageInFlight then 1 else 0)

/-! ### Start, Stop and Abort -/

/-- R64: Start. -/
def Dev.jobStart (d : Dev) : Dev :=
  if d.job.seq ≠ .idle then (d.sticky Fld.JOB_ERR.StartIgnored).notice Nt.StartIgnored []
  else
    let d := d.setJob (fun j => { j with
      seq := .following, target := .head, skipRun := 0, faultAt := none, dry := false })
    if d.jobHead < d.jobLimit then d else d.malformed d.jobHead 0

/-- R65: the fetched pages that have not started are discarded. -/
def Dev.cancelUnstarted (d : Dev) : Dev :=
  d.setJob (fun j => { j with pages := j.pages.map (fun p => if p.begun then p else { p with cancelled := true }) })

/-- R65: Stop. -/
def Dev.jobStop (d : Dev) : Dev :=
  if d.job.seq = .idle then d
  else
    let d := d.cancelUnstarted.setJob (fun j => { j with seq := .stopping, target := .none })
    match d.job.pages with
    | p :: _ => if p.cancelled then Dev.retireAll d.job.pages.length d else d
    | [] => d.settleStop

/-- R66, R219, R244: a port's print entries are discarded; strobes not yet fired never come; a shift in progress runs to
its last bit and is never latched. -/
def Port.discard (p : Port) : Port :=
  { p with
    queue := p.queue.filter (fun e => e.test.isSome), strobes := []
    shift := if p.queue.any (fun e => e.test.isSome) then p.shift
      else match p.shift with
        | .busy => .orphan
        | .orphan => .orphan
        | _ => .none }

/-- The ports of a plane discard their print entries. -/
def Dev.discardPorts (d : Dev) (n : Nat) : Dev :=
  (d.portsOf n).foldl (fun d p => d.setPort p (d.port p).discard) d

/-- A plane's raster state changed. -/
def Dev.setRaster (d : Dev) (n : Nat) (x : PlaneRaster) : Dev :=
  { d with ras := { d.ras with planes := vmodN d.ras.planes n (fun _ => x) } }

/-- A plane's decode state changed. -/
def Dev.setDecode (d : Dev) (n : Nat) (x : PlaneDecode) : Dev :=
  { d with dec := { d.dec with planes := vmodN d.dec.planes n (fun _ => x) } }

/-- R66: a plane's decoding of the pages fetched so far ends; a stream whose use is broken off loses its history. -/
def Dev.stopDecode (d : Dev) (n : Nat) : Dev :=
  let x := vgetD d.dec.planes n ⟨none, 0, [], []⟩
  let broken := (x.uses.filter (fun u => !u.lines.isEmpty)).filterMap (fun u => u.stream)
  let d := { d with dec := { d.dec with streams := d.dec.streams.map (fun (s : StreamSt) =>
    if broken.contains s.number then { s with valid := false } else s) } }
  d.setDecode n ⟨none, d.job.nextKey - 1, [], []⟩

/-- R66: a plane becomes idle at once; row-stagger contents, row-error state, decoded lines and queue entries go. -/
def Dev.idlePlane (d : Dev) (n : Nat) : Dev :=
  let was := d.planeIdle n
  let d := d.discardPorts n
  let d := d.setPlane n ⟨.idle, [], [], [], (d.plane n).lastFire, none, [], false,
    (d.plane n).nextEvent⟩
  let d := (d.setRaster n ⟨none, 0, [], []⟩).stopDecode n
  if d.enabled n && !was then d.adopt n else d

/-- R149: the line record that ends a truncated record. -/
def truncRecord (line : Nat) : Bytes := natLE 4 line ++ natLE 2 0x8000 ++ natLE 2 0

/-- R66, R149: a record ended early. -/
def RecordSt.truncate (r : RecordSt) : RecordSt :=
  if r.finished then r else { r with lines := r.lines ++ [truncRecord r.next], truncated := true, finished := true }

/-- R66: a page in flight is flagged with Aborted, and its record ends. -/
def Page.aborted (p : Page) : Page :=
  if p.begun && !p.cancelled then
    { p with status := setStatus p.status 7, records := p.records.map (RecordSt.truncate) }
  else { p with cancelled := true }

/-- R66: Abort. -/
def Dev.jobAbort (d : Dev) : Dev :=
  let d := (List.range 8).foldl Dev.idlePlane d
  let d := { d with lt := { d.lt with haltReq := false, faultStop := [] } }
  let d := d.setJob (fun j => { j with
    seq := .idle, target := .none, dry := false, pages := j.pages.map Page.aborted })
  Dev.retireAll d.job.pages.length d

/-- R64 to R66: a write of JOB_CTRL: Abort acts before Stop, and both before Start. -/
def Dev.jobCtrl (d : Dev) (abort stop start : Bool) : Dev :=
  let d := if abort then d.jobAbort else if stop then d.jobStop else d
  if start then d.jobStart else d

end Sys2Proof.Machine
end

