-- ==== Sys2Proof/Machine/Inflate.lean ====
section
/-!
DEFINITION. The decode engines' Deflate decoder (R126 to R128, R133, R136): bits least significant first, canonical
codes, blocks, the symbol count, the error kinds of Table 31, and the state a continued strip carries on.
-/
namespace Sys2Proof.Machine

/-- A canonical code: each symbol with its length and its code, most significant bit first. -/
abbrev Code := List (Nat × Nat × Nat)

/-- The bits of bytes, least significant first. -/
def bitsLsb (bs : Bytes) : List Bool := bs.flatMap (fun b => (List.range 8).map (fun i => b.toNat.testBit i))

/-- The number of lengths equal to `n`. -/
def lenCount (ls : List Nat) (n : Nat) : Nat := (ls.filter (fun l => l == n)).length

/-- The codes left free after lengths 1 to `n`; none when a length is over-subscribed. -/
def codeSpace (ls : List Nat) : Nat → Option Nat
  | 0 => some 1
  | n + 1 =>
    match codeSpace ls n with
    | none => none
    | some free => if 2 * free < lenCount ls (n + 1) then none else some (2 * free - lenCount ls (n + 1))

/-- The first code of length `n` of a canonical code. -/
def firstCode (ls : List Nat) : Nat → Nat
  | 0 => 0
  | n + 1 => 2 * (firstCode ls n + if n = 0 then 0 else lenCount ls n)

/-- A canonical code from its symbols' lengths. -/
def canonical (ls : List Nat) : Code :=
  (ls.zipIdx).filterMap (fun e =>
    if e.1 = 0 then none else some (e.2, e.1, firstCode ls e.1 + lenCount (ls.take e.2) e.1))

/-- R128 kind 3: the code of some lengths, where it is neither over-subscribed nor incomplete; a distance code may be
incomplete as a single code of length 1. -/
def buildCode (dist : Bool) (ls : List Nat) : Option Code :=
  match codeSpace ls 15 with
  | none => none
  | some free =>
    let used := (ls.filter (fun l => l != 0)).length
    if free = 0 ∨ (dist ∧ used = 1 ∧ lenCount ls 1 = 1) then some (canonical ls) else none

/-- What reading a symbol gives. -/
inductive SymRead
  | sym (s : Nat) (rest : List Bool)
  | unused
  | short
  deriving DecidableEq, Repr

/-- Reads a code bit by bit, at most `fuel` bits. -/
def readSym (c : Code) : Nat → Nat → Nat → List Bool → SymRead
  | 0, _, _, _ => .unused
  | _ + 1, _, _, [] => .short
  | f + 1, len, acc, b :: bs =>
    let len' := len + 1
    let acc' := 2 * acc + (if b then 1 else 0)
    match c.find? (fun e => e.2.1 == len' && e.2.2 == acc') with
    | some e => .sym e.1 bs
    | none => readSym c f len' acc' bs

/-- The greatest length of a code. -/
def codeMax (c : Code) : Nat := c.foldl (fun a e => max a e.2.1) 0

/-- Reads one symbol of a code. -/
def readCode (c : Code) (bs : List Bool) : SymRead := readSym c (codeMax c) 0 0 bs

/-- Reads `n` bits as a number, least significant first. -/
def readBits : Nat → List Bool → Option (Nat × List Bool)
  | 0, bs => some (0, bs)
  | _ + 1, [] => none
  | n + 1, b :: bs =>
    match readBits n bs with
    | none => none
    | some (v, rest) => some (2 * v + (if b then 1 else 0), rest)

/-- RFC 1951 3.2.7: the order of the code-length codes. -/
def clOrder : List Nat := [16, 17, 18, 0, 8, 7, 9, 6, 10, 5, 11, 4, 12, 3, 13, 2, 14, 1, 15]

/-- RFC 1951 3.2.5: length bases with their extra bits. -/
def lenTable : List (Nat × Nat) :=
  [(3, 0), (4, 0), (5, 0), (6, 0), (7, 0), (8, 0), (9, 0), (10, 0), (11, 1), (13, 1), (15, 1), (17, 1), (19, 2),
    (23, 2), (27, 2), (31, 2), (35, 3), (43, 3), (51, 3), (59, 3), (67, 4), (83, 4), (99, 4), (115, 4), (131, 5),
    (163, 5), (195, 5), (227, 5), (258, 0)]

/-- RFC 1951 3.2.5: distance bases with their extra bits. -/
def distTable : List (Nat × Nat) :=
  [(1, 0), (2, 0), (3, 0), (4, 0), (5, 1), (7, 1), (9, 2), (13, 2), (17, 3), (25, 3), (33, 4), (49, 4), (65, 5),
    (97, 5), (129, 6), (193, 6), (257, 7), (385, 7), (513, 8), (769, 8), (1025, 9), (1537, 9), (2049, 10), (3073, 10),
    (4097, 11), (6145, 11), (8193, 12), (12289, 12), (16385, 13), (24577, 13)]

/-- RFC 1951 3.2.6: the fixed literal/length code. -/
def fixedLit : Code :=
  canonical (List.replicate 144 8 ++ List.replicate 112 9 ++ List.replicate 24 7 ++ List.replicate 8 8)

/-- RFC 1951 3.2.6: the fixed distance code. -/
def fixedDist : Code := canonical (List.replicate 32 5)

/-- The decoder's state: unread bits, history with the newest byte first, bytes made and symbols counted in this use,
the block, whether it is the last, whether the stream has ended, the rest of a match, and the bits unread at the start
of the present symbol. -/
structure Inf where
  bits : List Bool
  hist : Bytes
  made : Nat
  syms : Nat
  block : InflateBlock
  final : Bool
  ended : Bool
  matchLeft : Nat
  matchDist : Nat
  mark : Nat
  deriving DecidableEq, Repr

/-- One step's outcome: go on, stop, or a stream error of a kind of Table 31 at a place given by the bits then unread. -/
inductive InfRes
  | more (s : Inf)
  | stop (s : Inf)
  | fail (kind left : Nat) (s : Inf)
  deriving DecidableEq, Repr

/-- R126, R133: 32 KiB of history are kept. -/
def keepWindow (h : Bytes) : Bytes := h.take 32768

/-- A byte produced. -/
def Inf.put (s : Inf) (b : Byte) : Inf := { s with hist := b :: s.hist, made := s.made + 1 }

/-- A block ends; the last one ends the stream (R127, R133). -/
def Inf.endBlock (s : Inf) (want : Nat) : InfRes :=
  let s := { s with block := .header }
  if s.final then
    let s := { s with ended := true }
    if s.made < want then .fail 8 s.mark s else .more s
  else .more s

/-- The code lengths of a dynamic block, from `n` still to read; newest first. -/
def readLens (cl : Code) : Nat → Nat → List Nat → List Bool → Except (Nat × Nat) (List Nat × List Bool)
  | 0, _, _, bs => .error (4, bs.length)
  | f + 1, n, acc, bs =>
    if n = 0 then .ok (acc, bs)
    else
      match readCode cl bs with
      | .short => .error (6, 0)
      | .unused => .error (4, bs.length)
      | .sym y rest =>
        if y < 16 then readLens cl f (n - 1) (y :: acc) rest
        else
          let spec : Nat × Nat := if y = 16 then (2, 3) else if y = 17 then (3, 3) else (7, 11)
          match (if y = 16 then acc.head? else some 0) with
          | none => .error (4, bs.length)
          | some v =>
            match readBits spec.1 rest with
            | none => .error (6, 0)
            | some (x, rest') =>
              let rep := spec.2 + x
              if n < rep then .error (4, bs.length) else readLens cl f (n - rep) (List.replicate rep v ++ acc) rest'

/-- `k` three-bit code lengths. -/
def readTriples : Nat → List Bool → Option (List Nat × List Bool)
  | 0, bs => some ([], bs)
  | k + 1, bs =>
    match readBits 3 bs with
    | none => none
    | some (v, rest) =>
      match readTriples k rest with
      | none => none
      | some (vs, rest') => some (v :: vs, rest')

/-- The two codes of a dynamic block (RFC 1951 3.2.7) after its block type; `mark` is where the header began. -/
def readDynamic (mark : Nat) (bs : List Bool) : Except (Nat × Nat) (Code × Code × List Bool) :=
  match readBits 5 bs with
  | none => .error (6, 0)
  | some (l, b1) =>
    match readBits 5 b1 with
    | none => .error (6, 0)
    | some (dn, b2) =>
      match readBits 4 b2 with
      | none => .error (6, 0)
      | some (c, b3) =>
        let hlit := l + 257
        let hdist := dn + 1
        if 286 < hlit ∨ 30 < hdist then .error (3, mark)
        else
          match readTriples (c + 4) b3 with
          | none => .error (6, 0)
          | some (vs, b4) =>
            let lens := (List.range 19).map (fun s => vs.getD (clOrder.idxOf s) 0)
            match buildCode false lens with
            | none => .error (3, mark)
            | some cl =>
              match readLens cl (hlit + hdist + 1) (hlit + hdist) [] b4 with
              | .error e => .error e
              | .ok (rev, b5) =>
                let all := rev.reverse
                match buildCode false (all.take hlit), buildCode true (all.drop hlit) with
                | some lit, some dist => .ok (lit, dist, b5)
                | _, _ => .error (3, mark)

/-- A block header. -/
def Inf.header (s : Inf) : InfRes :=
  let mark := s.bits.length
  match readBits 1 s.bits with
  | none => .fail 6 0 s
  | some (fin, b1) =>
    match readBits 2 b1 with
    | none => .fail 6 0 s
    | some (ty, b2) =>
      let s := { s with final := decide (fin = 1), mark := mark, bits := b2 }
      match ty with
      | 0 =>
        let s := { s with syms := s.syms + 1 }
        let b3 := b2.drop (b2.length % 8)
        match readBits 16 b3 with
        | none => .fail 6 0 s
        | some (len, b4) =>
          match readBits 16 b4 with
          | none => .fail 6 0 s
          | some (nlen, b5) =>
            if len + nlen = 65535 then .more { s with block := .stored len, bits := b5 } else .fail 2 mark s
      | 1 => .more { s with block := .codes fixedLit fixedDist }
      | 2 =>
        let s := { s with syms := s.syms + 320 }
        match readDynamic mark b2 with
        | .error (k, at_) => .fail k at_ s
        | .ok (lit, dist, b3) => .more { s with block := .codes lit dist, bits := b3 }
      | _ => .fail 1 mark s

/-- A length and distance pair after its length symbol. -/
def Inf.matchCode (s : Inf) (dist : Code) (k : Nat) (bs : List Bool) : InfRes :=
  let le := lenTable.getD k (0, 0)
  match readBits le.2 bs with
  | none => .fail 6 0 s
  | some (x, b1) =>
    match readCode dist b1 with
    | .short => .fail 6 0 s
    | .unused => .fail 4 s.mark s
    | .sym y b2 =>
      if 30 ≤ y then .fail 4 s.mark s
      else
        let de := distTable.getD y (1, 0)
        match readBits de.2 b2 with
        | none => .fail 6 0 s
        | some (z, b3) =>
          if s.hist.length < de.1 + z then .fail 5 s.mark s
          else .more { s with bits := b3, matchLeft := le.1 + x, matchDist := de.1 + z }

/-- One symbol of a coded block. -/
def Inf.symbol (s : Inf) (want : Nat) (lit dist : Code) : InfRes :=
  let s := { s with mark := s.bits.length }
  match readCode lit s.bits with
  | .short => .fail 6 0 s
  | .unused => .fail 4 s.mark s
  | .sym y bs =>
    if 286 ≤ y then .fail 4 s.mark s
    else
      let s := { s with syms := s.syms + 1 }
      if y < 256 then
        if want ≤ s.made then .fail 7 s.mark s else .more ({ s with bits := bs }.put (BitVec.ofNat 8 y))
      else if y = 256 then { s with bits := bs }.endBlock want
      else s.matchCode dist (y - 257) bs

/-- One step of decoding towards `want` bytes; `cut`: the use stops there (a continued strip, R133, or a use that
straddles the end of its page, R56). -/
def Inf.step (want : Nat) (cut : Bool) (s : Inf) : InfRes :=
  if cut && decide (want ≤ s.made) then .stop s
  else if 0 < s.matchLeft then
    if want ≤ s.made then .fail 7 s.mark s
    else .more ({ s with matchLeft := s.matchLeft - 1 }.put (s.hist.getD (s.matchDist - 1) 0))
  else
    match s.block with
    | .header => if s.ended then .stop s else s.header
    | .stored 0 => { s with mark := s.bits.length }.endBlock want
    | .stored (k + 1) =>
      if want ≤ s.made then .fail 7 s.bits.length s
      else
        match readBits 8 s.bits with
        | none => .fail 6 0 s
        | some (b, rest) => .more ({ s with bits := rest, block := .stored k }.put (BitVec.ofNat 8 b))
    | .codes lit dist => s.symbol want lit dist

/-- Steps until the use stops. -/
def Inf.run (want : Nat) (cut : Bool) : Nat → Inf → InfRes
  | 0, s => .fail 6 0 s
  | f + 1, s =>
    match s.step want cut with
    | .more s' => Inf.run want cut f s'
    | r => r

/-- R133, R136: at the cut, an end-of-block code that follows at once is decoded and counted in this strip. -/
def Inf.atCut (want : Nat) (s : Inf) : Inf :=
  if 0 < s.matchLeft then s
  else
    match s.block with
    | .stored 0 =>
      match s.endBlock want with
      | .more s' => s'
      | _ => s
    | .codes lit _ =>
      match readCode lit s.bits with
      | .sym 256 rest =>
        match { s with bits := rest, syms := s.syms + 1 }.endBlock want with
        | .more s' => s'
        | _ => s
      | _ => s
    | _ => s

/-- What decoding a use gives: the bytes in order, an error (kind and bit offset), symbols, trailing bytes, and the
state at the end. -/
structure InfOut where
  data : Bytes
  error : Option (Nat × Int)
  symbols : Nat
  trailing : Bool
  state : Inf
  deriving DecidableEq, Repr

/-- R128 kind 9: more than 32 bytes unread at the end of a continued strip whose stream has not ended. -/
def carryError (dataBits : Nat) (s : Inf) : Option (Nat × Int) :=
  if !s.ended && decide (32 < s.bits.length / 8) then some (9, (dataBits : Int) - s.bits.length) else none

/-- A use decoded from a start state whose unread bits end with the strip's own `data`. -/
def inflate (start : Inf) (data : Bytes) (want : Nat) (continued part : Bool) : InfOut :=
  let dataBits := 8 * data.length
  let bits := start.bits ++ bitsLsb data
  let s0 := { start with bits := bits, made := 0, syms := 0 }
  let fuel := 2 * bits.length + want + 600
  match s0.run want (continued || part) fuel with
  | .stop s =>
    let s := if continued then s.atCut want else s
    let out := (s.hist.take s.made).reverse
    if part then ⟨out, none, s.syms, false, s⟩
    else
      ⟨out, if continued then carryError dataBits s else none, s.syms,
        s.ended && decide (8 ≤ s.bits.length), s⟩
  | .fail k left s => ⟨(s.hist.take s.made).reverse, some (k, (dataBits : Int) - left), s.syms, false, s⟩
  | .more s => ⟨(s.hist.take s.made).reverse, some (6, dataBits), s.syms, false, s⟩

/-- The start of an ordinary strip: empty history (R126). -/
def Inf.fresh : Inf := ⟨[], [], 0, 0, .header, false, false, 0, 0, 0⟩

end Sys2Proof.Machine
end

