-- ==== Sys2Proof/Machine/Strips.lean ====
section
/-!
DEFINITION. Strip decoding (R49 to R57, R125 to R137, R145): strip headers and index entries, the dispatch of strip
uses to engines, continued streams, the decode ring, and damaged data.
-/
namespace Sys2Proof.Machine

/-! ### Strip headers (Table 12) -/

/-- The fields of a strip header. -/
structure StripHdr where
  plane : Nat
  lineCount : Nat
  width : Nat
  enc : Nat
  fill : Nat
  flags : Nat
  stream : Nat
  comp : Nat
  decoded : Nat
  symbols : Nat
  dataCrc : Nat
  prev : Nat
  stripId : Nat
  headerCrc : Nat
  deriving DecidableEq, Repr

/-- The fields as they stand in the 64 bytes. -/
def stripHdr (bs : Bytes) : StripHdr :=
  ⟨leAt bs 5 1, leAt bs 6 2, leAt bs 8 4, leAt bs 0x0C 1, leAt bs 0x0D 1, leAt bs 0x0E 1, leAt bs 0x0F 1,
    leAt bs 0x10 4, leAt bs 0x14 4, leAt bs 0x18 4, leAt bs 0x1C 4, leAt bs 0x20 8, leAt bs 0x28 4, leAt bs 0x3C 4⟩

/-- HeaderCrc holds. -/
def headerCrcOk (bs : Bytes) : Bool := crc32c (bs.take 0x3C) == leAt bs 0x3C 4

/-- Magic, Version and HeaderCrc in their order (R51). -/
def headFail (bs : Bytes) : Option Nat :=
  if leAt bs 0 4 ≠ 0x53505453 then some 0
  else if leAt bs 4 1 ≠ 1 then some 4
  else if headerCrcOk bs then none else some 0x3C

/-- R51: LineCount, where it is readable. -/
def readableLines (bs : Bytes) : Option Nat :=
  let n := leAt bs 6 2
  if headFail bs = none ∧ 1 ≤ n ∧ n ≤ 256 then some n else none

/-- R51, R55: the StripId a notice carries. -/
def noticeId (bs : Bytes) : Nat := if headerCrcOk bs then leAt bs 0x28 4 else 0

/-- Continued (R53). -/
def StripHdr.continued (h : StripHdr) : Bool := h.flags.testBit 0

/-- R50, Table 13: CompLength fits its encoding, and the data ends below the limit (R47). -/
def StripHdr.compOk (h : StripHdr) (limit off : Nat) : Bool :=
  (match h.enc with
    | 0 => decide (h.comp = h.decoded)
    | 1 => decide (1 ≤ h.comp ∧ h.comp ≤ 134217728)
    | _ => decide (h.comp = 0)) && decide (off + 64 + h.comp ≤ limit)

/-- R53: PrevLink is legal. -/
def StripHdr.prevOk (h : StripHdr) (limit : Nat) : Bool :=
  if h.continued then decide (h.prev % 2 = 1) || (decide (h.prev % 64 = 0) && decide (h.prev < 2 ^ 40) &&
    decide (h.prev < limit))
  else decide (h.prev = 1)

/-- R51: the first failing field of a strip's header for a plane, if the strip is malformed. -/
def stripFail (limit plane off : Nat) (bs : Bytes) : Option Nat :=
  match headFail bs with
  | some f => some f
  | none =>
    let h := stripHdr bs
    if h.plane ≠ plane then some 5
    else if h.lineCount = 0 ∨ 256 < h.lineCount then some 6
    else if h.width = 0 ∨ 262144 < h.width then some 8
    else if 2 < h.enc then some 0x0C
    else if 2 ≤ h.flags ∨ (h.continued ∧ h.enc ≠ 1) then some 0x0E
    else if h.continued = false ∧ h.stream ≠ 0 then some 0x0F
    else if h.compOk limit off = false then some 0x10
    else if h.decoded ≠ h.lineCount * h.width then some 0x14
    else if h.prevOk limit = false then some 0x20
    else if leAt bs 0x2C 16 ≠ 0 then some 0x2C
    else none

/-- R54: the Repeat and StripOffset of an index entry. -/
def entryRepeat (w : Nat) : Nat := w / 2 ^ 40 % 2 ^ 16

/-- R54: StripOffset as written. -/
def entryStrip (w : Nat) : Nat := w % 2 ^ 40

/-- R55: the entry itself is malformed. -/
def entryBad (limit w : Nat) : Bool :=
  decide (2 ^ 56 ≤ w) || decide (entryStrip w % 64 ≠ 0) || decide (limit ≤ entryStrip w)

/-! ### The ring -/

/-- R153: grid lines that a source line supplies along the web. -/
def Dev.yFactor (d : Dev) (n : Nat) : Nat := 1 + d.inForce (Fld.RAS_SCALE.YFactor n)

/-- R56: source lines that a page needs. -/
def Dev.needLines (d : Dev) (n : Nat) (p : Page) : Nat := ceilDiv p.length (d.yFactor n)

/-- A plane's decode state. -/
def Dev.decode (d : Dev) (n : Nat) : PlaneDecode := vgetD d.dec.planes n ⟨none, 0, [], []⟩

/-- Bytes of the lines in a ring part. -/
def ringBytes (r : List SrcLine) : Nat := r.foldl (fun a l => a + l.data.length) 0

/-- R125: a ring part has room for one more line. -/
def Dev.ringRoom (d : Dev) (n : Nat) (ring : List SrcLine) (l : SrcLine) : Bool :=
  ring.isEmpty || (decide (ringBytes ring + l.data.length ≤ 8192 * d.width n) &&
    decide ((ring.length + 1) * d.yFactor n ≤ 8192))

/-- R125: lines enter the part while they fit: the ring, and the lines left over. -/
def Dev.fillRing (d : Dev) (n : Nat) : List SrcLine → List SrcLine → List SrcLine × List SrcLine
  | ring, [] => (ring, [])
  | ring, l :: ls => if d.ringRoom n ring l then d.fillRing n (ring ++ [l]) ls else (ring, l :: ls)

/-- A use that reports nothing at its end. -/
def quietEnd : UseEnd := ⟨0, false, none, false, 0, false, 0⟩

/-- A use without engine and report is over once its lines are in the ring. -/
def Use.spent (u : Use) : Bool := u.lines.isEmpty && decide (u.engine = none) && decide (u.finish = quietEnd)

/-- R125: the use whose lines are not all in the ring goes on filling it. -/
def Dev.moveLines (d : Dev) (n : Nat) : Dev :=
  let x := d.decode n
  match x.uses.findIdx? (fun u => !u.lines.isEmpty) with
  | none => d
  | some i =>
    match x.uses[i]? with
    | none => d
    | some u =>
      let r := d.fillRing n x.ring u.lines
      d.setDecode n { x with
        ring := r.1
        uses := (x.uses.set i { u with lines := r.2 }).filter (fun u => !u.spent) }

/-! ### Engines (R129, R130, R135) -/

/-- DEC_STATUS.Busy: the engines in use. -/
def Dev.busyEngines (d : Dev) : List Nat := (List.range 8).flatMap (fun n => (d.decode n).uses.filterMap (fun u => u.engine))

/-- The lowest free engine of a list. -/
def Dev.freeEngine (d : Dev) (es : List Nat) : Option Nat := es.find? (fun e => !d.busyEngines.contains e)

/-- Engines 12 to 15. -/
def continuedEngines : List Nat := [12, 13, 14, 15]

/-- R129: an engine for an ordinary strip. -/
def Dev.ordinaryEngine (d : Dev) : Option Nat := d.freeEngine (List.range 16)

/-- R135: an engine for a continued use of a stream: none while a use of that stream runs; the engine that holds the
stream, else one that holds none, else any that is free. -/
def Dev.continuedEngine (d : Dev) (s : Nat) : Option Nat :=
  if (List.range 8).any (fun n => (d.decode n).uses.any (fun u => decide (u.stream = some s))) then none
  else
    match d.dec.heldStreams.find? (fun e => e.2 == s) with
    | some e => if d.busyEngines.contains e.1 then none else some e.1
    | none =>
      match d.freeEngine (continuedEngines.filter (fun e => !(d.dec.heldStreams.any (fun x => x.1 == e)))) with
      | some e => some e
      | none => d.freeEngine continuedEngines

/-! ### Streams (R133, R134) -/

/-- The saved state of a stream. -/
def Dev.stream (d : Dev) (s : Nat) : Option StreamSt := d.dec.streams.find? (fun x => x.number == s)

/-- A stream's state set. -/
def Dev.setStream (d : Dev) (x : StreamSt) : Dev :=
  { d with dec := { d.dec with streams := (d.dec.streams.filter (fun y => y.number != x.number)) ++ [x] } }

/-- The decoder as a stream's saved state leaves it. -/
def StreamSt.start (x : StreamSt) : Inf :=
  ⟨x.carry, x.window, 0, 0, x.block, x.final, x.ended, x.matchLeft, x.matchDist, 0⟩

/-- R133: the state saved after a strip decoded to completion. -/
def savedStream (number off : Nat) (s : Inf) : StreamSt :=
  ⟨number, off, true, s.ended, keepWindow s.hist, s.block, s.final, s.matchLeft, s.matchDist, s.bits⟩

/-- R134: where a continued use starts from; none where it is out of order. -/
def Dev.streamStart (d : Dev) (h : StripHdr) : Option Inf :=
  if h.prev % 2 = 1 then some Inf.fresh
  else
    match d.stream h.stream with
    | some x => if x.valid ∧ !x.ended ∧ x.last = h.prev then some (StreamSt.start x) else none
    | none => none

/-- R134: a stream's history becomes invalid. -/
def Dev.breakStream (d : Dev) (s : Nat) : Dev :=
  match d.stream s with
  | some x => d.setStream { x with valid := false }
  | none => d.setStream ⟨s, 0, false, false, [], .header, false, 0, 0, []⟩

/-- R340: a keeper that has copied its striker finds a use on plane `n` of page `key` that needs a stream it has no state of. -/
def Dev.lackStream (d : Dev) (n key s : Nat) : Dev :=
  if d.isKeeper && d.pair.gap && (d.stream s).isNone then
    { d with pair := { d.pair with lacking := (d.pair.lacking.filter (fun e => e != (n, key, s))) ++ [(n, key, s)] } }
  else d

/-- R340: a stream's state is at hand again. -/
def Dev.haveStream (d : Dev) (s : Nat) : Dev :=
  { d with pair := { d.pair with lacking := d.pair.lacking.filter (fun e => e.2.2 != s) } }

/-- R339: a stream's state is saved; the first save since the keeper began to resynchronise goes to it. -/
def Dev.saveStream (d : Dev) (x : StreamSt) : Dev :=
  let d := d.setStream x
  if d.pair.mode && decide (d.pair.role = .striker) && d.pair.dueStreams.contains x.number then
    ({ d with pair := { d.pair with dueStreams := d.pair.dueStreams.filter (fun s => s != x.number) } }).emit
      (.pair (.resync (.stream x)))
  else d

/-! ### Reports of a use -/

/-- R51, R55: a malformed strip or entry: flags, JOB_ERR, and one notice for the entry in the page. -/
def Dev.stripError (d : Dev) (key id off field entryOff : Nat) : Dev :=
  let d := (d.flag key 3).sticky Fld.JOB_ERR.StripMalformed
  match d.page key with
  | none => d
  | some p =>
    if p.errorEntries.contains entryOff then d
    else
      (d.modPage key (fun p => { p with errorEntries := p.errorEntries ++ [entryOff] })).notice Nt.StripError
        [(4, id), (8, off), (2, field), (8, entryOff)]

/-- R145: damaged data printed blank. -/
def Dev.dataLoss (d : Dev) (key id off : Nat) : Dev :=
  ((d.flag key 5).sticky Fld.DEC_ERR.DataLoss).notice Nt.DataLoss [(4, id), (8, off)]

/-- R134: an out-of-order use, with both offsets. -/
def Dev.streamOrder (d : Dev) (key off prev : Nat) : Dev :=
  ((d.flag key 3).sticky Fld.DEC_ERR.StreamOrder).notice Nt.StreamOrder [(8, off), (8, prev)]

/-- R56: more lines than Length. -/
def Dev.longPage (d : Dev) (key : Nat) : Dev := (d.flag key 2).notice Nt.Long []

/-! ### A use's lines -/

/-- The source lines of a use from its decoded bytes: complete lines stand, the others are blank for a fault. -/
def cutLines (page first width : Nat) (data : Bytes) (bad : Nat → Bool) : Nat → List SrcLine
  | 0 => []
  | k + 1 =>
    let i := k
    let whole := decide ((i + 1) * width ≤ data.length) && !bad i
    cutLines page first width data bad k ++
      [if whole then ⟨page, first + i, (data.drop (i * width)).take width, true, false⟩
        else ⟨page, first + i, [], false, true⟩]

/-- Blank lines of a malformed strip, entry or use. -/
def blankLines (page first k : Nat) : List SrcLine := (List.range k).map (fun i => ⟨page, first + i, [], false, true⟩)

/-- R137: the count passes the declared count by more than a sixteenth. -/
def symbolExcess (declared n : Nat) : Bool := decide (declared ≠ 0) && decide (declared + declared / 16 < n)

/-! ### Starting a use -/

/-- The cursor of a plane set. -/
def Dev.setCursor (d : Dev) (n : Nat) (c : Option DecodeCursor) : Dev :=
  d.setDecode n { d.decode n with cursor := c }

/-- A plane's reading of a page's table ends. -/
def Dev.endTable (d : Dev) (n key : Nat) : Dev := d.setDecode n { d.decode n with cursor := none, lastKey := key }

/-- A use enters: its lines count as supplied and fill the ring as they fit. -/
def Dev.addUse (d : Dev) (n : Nat) (c : DecodeCursor) (u : Use) : Dev :=
  let x := d.decode n
  let c' := { c with lines := c.lines + u.lines.length }
  (d.setDecode n { x with cursor := some c', uses := (x.uses ++ [u]).filter (fun u => !u.spent) }).moveLines n

/-- Blank lines enter in place of a use. -/
def Dev.addBlank (d : Dev) (n : Nat) (c : DecodeCursor) (need count : Nat) : Dev :=
  d.addUse n c ⟨none, none, c.page, blankLines c.page c.lines (min count (need - c.lines)), quietEnd⟩

/-- The damaged lines of a strip's stored data, ascending. -/
def Mem.badData (m : Mem) (finds : Finds) (off len : Nat) : List Nat := (linesOf off len).filter (m.bad finds)

/-- A raw use or a pre-expanded copy (R131): its lines, with those that hold damaged bytes blank (R145). -/
def rawUse (key first off width keep : Nat) (whole : Bool) (h : StripHdr) (data : Bytes) (bad : List Nat) : Use :=
  let lineBad := fun i => bad.any (fun l => decide (off + i * width < l + 64 ∧ l < off + (i + 1) * width))
  ⟨none, none, key, cutLines key first width data lineBad keep,
    { quietEnd with
      stripId := h.stripId, dataCrcBad := whole && bad.isEmpty && decide (crc32c data ≠ h.dataCrc) }⟩

/-- A Deflate use's end report from what its decoding gave. -/
def deflateEnd (h : StripHdr) (o : InfOut) (judged lost : Bool) : UseEnd :=
  ⟨h.stripId, judged && decide (o.data.length = h.decoded) && decide (crc32c o.data ≠ h.dataCrc),
    if lost then none else o.error, o.trailing, o.symbols, symbolExcess h.symbols o.symbols, h.symbols⟩

/-- R145: the decoding ran into damaged data. -/
def lostData (bad : List Nat) (o : InfOut) : Bool :=
  !bad.isEmpty && (match o.error with
    | some (6, _) => true
    | _ => false)

/-- An ordinary Deflate use on an engine. -/
def Dev.ordinaryUse (d : Dev) (m : Mem) (n off keep : Nat) (c : DecodeCursor) (h : StripHdr) (bad : List Nat)
    (engine : Nat) : Dev :=
  let whole := decide (keep = h.lineCount)
  let len := match bad with
    | [] => h.comp
    | l :: _ => l - (off + 64)
  let o := inflate Inf.fresh (m.read (off + 64) len) (keep * h.width) false !whole
  let lost := lostData bad o
  let d := if lost then d.dataLoss c.page h.stripId (bad.headD 0) else d
  d.addUse n c ⟨some engine, none, c.page, cutLines c.page c.lines h.width o.data (fun _ => false) keep,
    deflateEnd h o whole lost⟩

/-- A continued use on an engine (R133, R134); one that starts fresh ends a keeper's wait for the stream (R340). -/
def Dev.continuedUse (d : Dev) (m : Mem) (n off keep : Nat) (c : DecodeCursor) (h : StripHdr) (bad : List Nat)
    (start : Inf) (engine : Nat) : Dev :=
  let len := match bad with
    | [] => h.comp
    | l :: _ => l - (off + 64)
  let o := inflate start (m.read (off + 64) len) h.decoded true false
  let lost := lostData bad o
  let d := if lost then d.dataLoss c.page h.stripId (bad.headD 0) else d
  let d := if h.prev % 2 = 1 then d.haveStream h.stream else d
  let d := { d with dec := { d.dec with
    heldStreams := (d.dec.heldStreams.filter (fun (e : Nat × Nat) => e.1 != engine && e.2 != h.stream)) ++ [(engine, h.stream)] } }
  let d := if o.error = none then d.saveStream (savedStream h.stream off o.state) else d.breakStream h.stream
  d.addUse n c ⟨some engine, some h.stream, c.page, cutLines c.page c.lines h.width o.data (fun _ => false) keep,
    deflateEnd h o true lost⟩

/-- R142: the key of a pre-expanded copy is the header's. -/
def PoolCopy.fits (x : PoolCopy) (off : Nat) (h : StripHdr) : Bool :=
  x.offset == off && x.headerCrc == h.headerCrc && x.dataCrc == h.dataCrc

/-- The pool's copy of a strip, kept or still being made. -/
def Dev.poolCopy (d : Dev) (off : Nat) (h : StripHdr) : Option PoolCopy := d.dec.pool.find? (fun x => x.fits off h)

/-- A kept copy is used: it becomes the most recently used. -/
def Dev.touchCopy (d : Dev) (off : Nat) (h : StripHdr) : Dev :=
  { d with dec := { d.dec with
    stamp := d.dec.stamp + 1
    pool := d.dec.pool.map (fun x => if x.fits off h then { x with stamp := d.dec.stamp + 1 } else x) } }

/-- R130, R131: a well-formed strip's use starts, if an engine that it needs is free. -/
def Dev.startUse (d : Dev) (m : Mem) (finds : Finds) (n need off : Nat) (c : DecodeCursor) (h : StripHdr) : Dev :=
  let keep := min h.lineCount (need - c.lines)
  let whole := decide (keep = h.lineCount)
  let next := { c with left := c.left - 1 }
  if h.enc = 2 then
    let data := List.replicate (keep * h.width) (BitVec.ofNat 8 h.fill)
    d.addUse n next (rawUse c.page c.lines 0 h.width keep whole h data [])
  else
    let copy := if h.enc = 1 ∧ h.continued = false then d.poolCopy off h else none
    match copy with
    | some ⟨_, _, _, _, true, data, _⟩ =>
      (d.touchCopy off h).addUse n next (rawUse c.page c.lines 0 h.width keep whole h (data.take (keep * h.width)) [])
    | _ =>
      let span := if h.enc = 0 then keep * h.width else h.comp
      let lines := linesOf (off + 64) span
      match d.readAnswer m finds lines with
      | .wait => (d.meetLines m finds lines).startWaits (lines.filter (m.bad finds))
      | _ =>
        let bad := m.badData finds (off + 64) span
        if h.enc = 0 then
          let d := d.meetLines m finds lines
          let d := match bad with
            | [] => d
            | l :: _ => d.dataLoss c.page h.stripId l
          d.addUse n next (rawUse c.page c.lines (off + 64) h.width keep whole h (m.read (off + 64) span) bad)
        else if h.continued then
          match d.streamStart h with
          | none => ((d.lackStream n c.page h.stream).streamOrder c.page off h.prev).addBlank n next need h.lineCount
          | some s =>
            match d.continuedEngine h.stream with
            | none => d
            | some e => (d.meetLines m finds lines).continuedUse m n off keep next h bad s e
        else
          match d.ordinaryEngine with
          | none => d
          | some e =>
            let d := d.meetLines m finds lines
            let d := if copy.isSome then (d.sticky Fld.DEC_ERR.ExpandLate).notice Nt.ExpandLate [] else d
            d.ordinaryUse m n off keep next h bad e

/-- R51, R145: the header of the present entry's strip is read and judged, and the use starts or prints blank. -/
def Dev.openStrip (d : Dev) (m : Mem) (finds : Finds) (n : Nat) (p : Page) (need : Nat) (c : DecodeCursor) : Dev :=
  let off := c.strip
  let next := { c with left := c.left - 1 }
  let raw := m.read off 64
  match d.readAnswer m finds [off] with
  | .wait => (d.meetLines m finds [off]).startWaits [off]
  | .damaged =>
    ((d.meetLines m finds [off]).dataLoss p.key (noticeId raw) off).addBlank n next need ((readableLines raw).getD 0)
  | .good =>
    let d := d.meetLines m finds [off]
    let lines := (readableLines raw).getD 0
    let d := if c.left = c.rep ∧ need < c.lines + lines * c.rep then d.longPage p.key else d
    match stripFail d.jobLimit n off raw with
    | some f => (d.stripError p.key (noticeId raw) off f c.entryOff).addBlank n next need lines
    | none => d.startUse m finds n need off c (stripHdr raw)

/-- R55: a malformed entry supplies LineCount × Repeat blank lines where the count is readable. -/
def Dev.badEntry (d : Dev) (m : Mem) (finds : Finds) (n : Nat) (p : Page) (need : Nat) (c : DecodeCursor) (w : Nat) :
    Dev :=
  let base := entryStrip w / 64 * 64
  let readable := decide (base < d.jobLimit) && !m.bad finds base
  let raw := if readable then m.read base 64 else []
  let count := if readable then (readableLines raw).getD 0 * entryRepeat w else 0
  let id := if readable then noticeId raw else 0
  let d := if need < c.lines + count then d.longPage p.key else d
  (d.stripError p.key id (entryStrip w) 0xFFFF c.entryOff).addBlank n { c with left := 0 } need count

/-- R57: the next entry of the table is read. -/
def Dev.openEntry (d : Dev) (m : Mem) (finds : Finds) (n : Nat) (p : Page) (need : Nat) (c : DecodeCursor) : Dev :=
  let at_ := (vgetD p.tables n (0, 0)).1 + 8 * c.entry
  let c := { c with entry := c.entry + 1, entryOff := at_ }
  match d.readAnswer m finds [lineOf at_] with
  | .wait => (d.meetLines m finds [lineOf at_]).startWaits [lineOf at_]
  | .damaged => ((d.meetLines m finds [lineOf at_]).stripError p.key 0 0 0xFFFF at_).setCursor n (some { c with left := 0 })
  | .good =>
    let d := d.meetLines m finds [lineOf at_]
    let w := leNat (m.read at_ 8)
    if entryBad d.jobLimit w then d.badEntry m finds n p need c w
    else
      d.setCursor n (some { c with strip := entryStrip w, rep := entryRepeat w, left := entryRepeat w })

/-- The next page whose table a plane reads: the oldest held page not yet read (R57). -/
def Dev.nextTable (d : Dev) (n : Nat) : Option Page :=
  let x := d.decode n
  d.job.pages.find? (fun p => decide (x.lastKey < p.key) && !p.cancelled && !(p.status.toNat.testBit 7))

/-- One step of a plane's dispatcher; `true` where a further step may start a use. -/
def Dev.dispatchStep (d : Dev) (m : Mem) (finds : Finds) (n : Nat) : Dev × Bool :=
  let x := d.decode n
  if x.uses.any (fun u => !u.lines.isEmpty) then (d, false)
  else
    match x.cursor with
    | none =>
      match d.nextTable n with
      | none => (d, false)
      | some p =>
        if d.enabled n && p.planeMask.toNat.testBit n then (d.setCursor n (some ⟨p.key, 0, 0, 0, 0, 0, 0⟩), true)
        else (d.endTable n p.key, true)
    | some c =>
      match d.page c.page with
      | none => (d.endTable n c.page, true)
      | some p =>
        let need := d.needLines n p
        if p.cancelled ∨ need ≤ c.lines then (d.endTable n c.page, true)
        else if 0 < c.left then (d.openStrip m finds n p need c, false)
        else if (vgetD p.tables n (0, 0)).2 ≤ c.entry then (d.endTable n c.page, true)
        else
          let d' := d.openEntry m finds n p need c
          (d', decide (d'.dec.waits = d.dec.waits) && !((d'.decode n).uses.any (fun u => !u.lines.isEmpty)))

/-- R130: steps until a use starts or nothing more can be done. -/
def Dev.dispatchLoop (m : Mem) (finds : Finds) (n : Nat) : Nat → Dev → Dev
  | 0, d => d
  | f + 1, d =>
    let r := d.dispatchStep m finds n
    if r.2 then Dev.dispatchLoop m finds n f r.1 else r.1

/-- R130: the dispatcher starts the plane's next strip use. -/
def Dev.decodeUseStart (d : Dev) (m : Mem) (finds : Finds) (n : Nat) : Dev :=
  let fuel := 32 + d.job.pages.foldl (fun a p => a + (vgetD p.tables n (0, 0)).2) 0
  Dev.dispatchLoop m finds n fuel d

/-- R125: an engine stopped for a full part continues. -/
def Dev.decodeResume (d : Dev) (n : Nat) : Dev := d.moveLines n

/-- R52, R127, R128, R137: what a use reports at its end. -/
def Dev.useReports (d : Dev) (key : Nat) (e : UseEnd) : Dev :=
  let d := if e.dataCrcBad then ((d.flag key 4).sticky Fld.JOB_ERR.DataCrc).notice Nt.DataCrc [(4, e.stripId)] else d
  let d := match e.error with
    | some (k, at_) => ((d.flag key 3).sticky Fld.DEC_ERR.StreamError).noticeAt Nt.StreamError
        [(0, 4, e.stripId), (4, 1, k), (8, 4, patternOf 32 at_)]
    | none => d
  let d := if e.trailing then (d.sticky Fld.DEC_ERR.TrailingData).notice Nt.TrailingData [] else d
  if e.excess then
    let d := ((d.flag key 12).sticky Fld.DEC_ERR.SymbolExcess).bump Fld.DEC_SYMXCNT.Count
    (d.notice Nt.SymbolExcess [(4, e.stripId), (4, e.declared)]).notice Nt.SymbolCount [(4, e.symbols)]
  else d

/-- R52: the plane's oldest use whose lines are all in the ring ends, and its engine is free. -/
def Dev.decodeUseEnd (d : Dev) (n : Nat) : Dev :=
  let x := d.decode n
  match x.uses with
  | u :: us => if u.lines.isEmpty then (d.setDecode n { x with uses := us }).useReports u.page u.finish else d
  | [] => d

end Sys2Proof.Machine
end

