-- ==== Sys2Proof/Machine/Budget.lean ====
section
/-!
DEFINITION. The render budget and pre-expansion (R138 to R144), and the print record (R118, R146 to R149).
-/
namespace Sys2Proof.Machine

/-! ### Charges (R138, Table 32) -/

/-- One strip use's charge: the strip and its key, a continued use's stream and whether its PrevLink carries the end mark, the
grid lines it supplies, and its cost. -/
structure Charge where
  strip : Nat
  headerCrc : Nat
  dataCrc : Nat
  size : Nat
  comp : Nat
  stream : Option Nat
  fresh : Bool
  first : Nat
  grids : Nat
  engine : Nat
  memory : Nat
  deriving DecidableEq, Repr

/-- R138: the charge of a use of a well-formed strip from its header; `raw`: its copy is kept or chosen. -/
def chargeOf (off : Nat) (h : StripHdr) (first grids : Nat) (raw : Bool) : Charge :=
  let s := if h.symbols = 0 then h.decoded else h.symbols
  let clocks := ceilDiv (s * 17) 16 + ceilDiv h.decoded 16
  let base : Charge := ⟨off, h.headerCrc, h.dataCrc, h.decoded, h.comp, none, decide (h.prev % 2 = 1), first, grids, 0, 0⟩
  if h.enc = 2 then base
  else if h.enc = 0 ∨ raw then { base with memory := h.decoded }
  else if h.continued then
    { base with stream := some h.stream, engine := clocks + 4608, memory := h.comp + 2 * h.decoded + 73728 }
  else { base with engine := clocks, memory := h.comp + 2 * h.decoded }

/-- The uses of one entry, first grid line at `g`, `k` of them. -/
def entryCharges (off : Nat) (h : StripHdr) (grids : Nat) (raw : Bool) : Nat → Nat → List Charge
  | _, 0 => []
  | g, k + 1 => chargeOf off h g grids raw :: entryCharges off h grids raw (g + grids) k

/-- R138: the charges of a plane's table from entry `e` at grid line `g`, with at most `fuel` entries. -/
def Dev.tableCharges (d : Dev) (m : Mem) (n : Nat) (p : Page) (raw : Nat → StripHdr → Bool) :
    Nat → Nat → Nat → List Charge
  | 0, _, _ => []
  | f + 1, e, g =>
    let t := vgetD p.tables n (0, 0)
    if t.2 ≤ e ∨ p.length ≤ g then []
    else
      let w := leNat (m.read (t.1 + 8 * e) 8)
      let off := entryStrip w / 64 * 64
      let bs := if off < d.jobLimit then m.read off 64 else []
      let grids := (readableLines bs).getD 0 * d.yFactor n
      let uses := if grids = 0 then 0 else min (entryRepeat w) (ceilDiv (p.length - g) grids)
      let here :=
        if entryBad d.jobLimit w ∨ stripFail d.jobLimit n off bs ≠ none then []
        else entryCharges off (stripHdr bs) grids (raw off (stripHdr bs)) g uses
      here ++ d.tableCharges m n p raw f (e + 1) (g + grids * uses)

/-- R142: a strip is charged as raw where the pool holds its copy or is to hold it. -/
def Dev.pooled (d : Dev) (off : Nat) (h : StripHdr) : Bool := (d.poolCopy off h).isSome && !h.continued

/-- R138: the charges of a page on a plane that prints it. -/
def Dev.pageCharges (d : Dev) (m : Mem) (p : Page) (n : Nat) : List Charge :=
  if d.enabled n && p.planeMask.toNat.testBit n then
    d.tableCharges m n p d.pooled ((vgetD p.tables n (0, 0)).2 + 1) 0 0
  else []

/-- R340: a page begins on plane `n` of a keeper: the streams that its first continued uses take up and that the keeper has no
state of. -/
def Dev.lackStreams (d : Dev) (m : Mem) (p : Page) (n : Nat) : Dev :=
  if d.isKeeper && d.pair.gap then
    let uses := (d.pageCharges m p n).filter (fun c => c.stream.isSome)
    let d := { d with pair := { d.pair with lacking := d.pair.lacking.filter (fun e => (d.page e.2.1).isSome) } }
    ((uses.filterMap (fun c => c.stream)).eraseDups.filter (fun s =>
      (uses.find? (fun c => c.stream == some s)).any (fun c => !c.fresh))).foldl (fun d s => d.lackStream n p.key s) d
  else d

/-! ### Windows (R140) -/

/-- The part of a charge's lines that falls in window `w`. -/
def Charge.share (c : Charge) (w : Nat) : Rat :=
  let lo := max c.first (4096 * w)
  let hi := min (c.first + c.grids) (4096 * (w + 1))
  if hi ≤ lo ∨ c.grids = 0 then 0 else ((hi - lo : Nat) : Rat) / (c.grids : Rat)

/-- A charge added to a window's streams. -/
def addStream (s : Nat) (x : Rat) : List (Nat × Rat) → List (Nat × Rat)
  | [] => [(s, x)]
  | (t, y) :: l => if t = s then (t, y + x) :: l else (t, y) :: addStream s x l

/-- A charge added to window `w`. -/
def BudgetWindow.add (b : BudgetWindow) (w : Nat) (c : Charge) : BudgetWindow :=
  let f := c.share w
  { b with
    engine := b.engine + f * c.engine, memory := b.memory + f * c.memory
    streams := match c.stream with
      | some s => if f = 0 then b.streams else addStream s (f * c.engine) b.streams
      | none => b.streams }

/-- R140: the windows of a page of a length from its charges. -/
def windowsOf (length : Nat) (cs : List Charge) : List BudgetWindow :=
  (List.range (ceilDiv length 4096)).map (fun w =>
    cs.foldl (fun b c => b.add w c) ⟨min 4096 (length - 4096 * w), 0, 0, []⟩)

/-- ΣWidth over the enabled planes (R139). -/
def Dev.totalWidth (d : Dev) : Nat := d.planesOn.foldl (fun a n => a + d.width n) 0

/-- R140: t(p, w) in ns. -/
def Dev.windowTime (d : Dev) (n : Nat) (b : BudgetWindow) : Rat :=
  let share : Rat := (d.width n : Rat) / (d.totalWidth : Rat)
  let lines : Rat := b.lines
  let dec := b.engine / (16 * share * (4 / 5) * lines)
  let mem := b.memory / ((d.rd Fld.DEC_MEMBUDGET.Rate : Rat) * share * lines)
  b.streams.foldl (fun a e => max a (e.2 / ((4 / 5) * lines))) (max dec mem)

/-- R140: the planning period of a plane. -/
def Dev.planPeriod (d : Dev) (n : Nat) : Nat :=
  let p := d.rd Fld.DEC_PLANPER.Period
  let s := (d.reg (Adr.LT_SPEED (d.channelOf n))).toNat
  let i := d.rd (Fld.LT_IVAL.Interval n)
  if bitsOf s 31 30 ≠ 0 ∨ i = 0 then p else min p i

/-- T_min(p): the largest window time of a plane. -/
def Dev.planeTime (d : Dev) (n : Nat) (ws : List BudgetWindow) : Rat := ws.foldl (fun a b => max a (d.windowTime n b)) 0

/-- A window does not fit. -/
def Dev.misfit (d : Dev) (n : Nat) (b : BudgetWindow) : Bool := decide ((d.planPeriod n : Rat) < d.windowTime n b)

/-! ### Pre-expansion (R141, R142) -/

/-- Pool bytes in use. -/
def poolBytes (pool : List PoolCopy) : Nat := pool.foldl (fun a x => a + x.size) 0

/-- A held page refers to a copy: its strip is charged by some plane of some held page. -/
def Dev.copyHeld (d : Dev) (m : Mem) (x : PoolCopy) : Bool :=
  d.job.pages.any (fun p => (List.range 8).any (fun n =>
    (d.pageCharges m p n).any (fun c => c.strip == x.offset && c.headerCrc == x.headerCrc && c.dataCrc == x.dataCrc)))

/-- The least recently used of some copies. -/
def leastUsed : List PoolCopy → Option PoolCopy
  | [] => none
  | x :: xs => some (xs.foldl (fun a y => if y.stamp < a.stamp then y else a) x)

/-- R141: copies that no held page refers to are freed, least recently used first, until `need` bytes fit. -/
def Dev.makeRoom (d : Dev) (m : Mem) (need : Nat) : Nat → Option (List PoolCopy)
  | fuel => go fuel d.dec.pool
where
  go : Nat → List PoolCopy → Option (List PoolCopy)
    | f, pool =>
      if poolBytes pool + need ≤ d.rd Fld.DEC_POOL.SizeGiB * 2 ^ 30 then some pool
      else
        match f with
        | 0 => none
        | f + 1 =>
          match leastUsed (pool.filter (fun x => !d.copyHeld m x)) with
          | none => none
          | some x => go f (pool.filter (fun y => y != x))

/-- The windows of every held page on every plane as the ledger holds them, those of `p` before window `w` included
(R141); pages after `p` are not counted. -/
def Dev.ledgerBefore (d : Dev) (p : Page) (w : Nat) : List (Nat × BudgetWindow) :=
  d.job.pages.flatMap (fun q =>
    if q.key < p.key then
      q.budget.windows.flatMap (fun e =>
        let begun := (d.plane e.1).runs.findSome? (fun r => if r.page = q.key then some r.next else none)
        let skip := match begun with
          | some k => (k - d.planeOffset e.1) / 4096 + 1
          | none => if vgetD q.done e.1 false then e.2.length else 0
        (e.2.drop skip).map (fun b => (e.1, b)))
    else if q.key = p.key then q.budget.windows.flatMap (fun e => (e.2.take w).map (fun b => (e.1, b)))
    else [])

/-- R141: what the expansions already chosen and not yet made cost: engine clocks, and memory bytes. -/
def Dev.queuedCost (d : Dev) (m : Mem) : Nat × Nat :=
  (d.dec.pool.filter (fun x => !x.done)).foldl (fun a x =>
    let h := stripHdr (m.read x.offset 64)
    (a.1 + (chargeOf x.offset h 0 0 false).engine, a.2 + h.comp + x.size)) (0, 0)

/-- R141: spare engine clocks and memory bytes before window `w` of page `p`: the whole device's capacity at the planning
period less what is charged and what the queued expansions cost; each line event counts once, on the plane with the most
windows. -/
def Dev.spareBefore (d : Dev) (m : Mem) (p : Page) (w : Nat) : Rat × Rat :=
  let l := d.ledgerBefore p w
  let queued := d.queuedCost m
  let charged := l.foldl (fun (a : Rat × Rat) e => (a.1 + e.2.engine, a.2 + e.2.memory)) ((queued.1 : Rat), (queued.2 : Rat))
  let time := (List.range 8).foldl (fun (a : Rat) n =>
    max a ((l.filter (fun e => e.1 == n)).foldl (fun (b : Rat) e => b + e.2.lines * (d.planPeriod n : Rat)) 0)) 0
  (16 * (4 / 5) * time - charged.1, (d.rd Fld.DEC_MEMBUDGET.Rate : Rat) * time - charged.2)

/-- Strips of a plane's charges that may be chosen, earlier first uses first: neither continued nor raw already, with a
use in window `w`. -/
def choosable (cs : List Charge) (w : Nat) : List Charge :=
  let here := (cs.filter (fun c => decide (c.share w ≠ 0))).map (fun c => c.strip)
  cs.filter (fun c => c.stream.isNone && decide (0 < c.engine) && here.contains c.strip)

/-- R141: the total engine charge of a strip over the page. -/
def stripTotal (cs : List Charge) (off : Nat) : Nat :=
  cs.foldl (fun a c => if c.strip = off then a + c.engine else a) 0

/-- The best strip to choose: largest total charge, earlier first use on a tie. -/
def bestChoice (all cand : List Charge) : Option Charge :=
  cand.foldl (fun best c =>
    match best with
    | none => some c
    | some b => if stripTotal all b.strip < stripTotal all c.strip then some c else some b) none

/-- The page's windows recorded. -/
def Dev.setWindows (d : Dev) (k : Nat) (ws : List (Nat × List BudgetWindow)) : Dev :=
  d.modPage k (fun p => { p with budget := { p.budget with windows := ws } })

/-- The windows of every enabled plane of a page under the present pool. -/
def Dev.pageWindows (d : Dev) (m : Mem) (p : Page) : List (Nat × List BudgetWindow) :=
  d.planesOn.map (fun n => (n, windowsOf p.length (d.pageCharges m p n)))

/-- R141: strips chosen for one plane and window until it fits, the pool stops it, or none is left; `skip`: strips
whose expansion found no spare.  `true`: choosing stops for want of pool. -/
def Dev.chooseStrips (m : Mem) (p : Page) (n w : Nat) : Nat → List Nat → Dev → Dev × Bool
  | 0, _, d => (d, false)
  | f + 1, skip, d =>
    let cs := d.pageCharges m p n
    let ws := windowsOf p.length cs
    match ws[w]? with
    | none => (d, false)
    | some b =>
      if d.misfit n b then
        match bestChoice cs ((choosable cs w).filter (fun c => !skip.contains c.strip)) with
        | none => (d, false)
        | some c =>
          let firstUse := (cs.find? (fun x => x.strip == c.strip)).map (fun x => x.first)
          let spare := (d.setWindows p.key (d.pageWindows m p)).spareBefore m p (firstUse.getD 0 / 4096)
          if spare.1 < c.engine ∨ spare.2 < (c.comp + c.size : Nat) then
            Dev.chooseStrips m p n w f (skip ++ [c.strip]) d
          else
            match d.makeRoom m c.size d.dec.pool.length with
            | none => (d.sticky Fld.DEC_ERR.PoolFull, true)
            | some pool =>
              let x : PoolCopy := ⟨c.strip, c.headerCrc, c.dataCrc, c.size, false, [], d.dec.stamp + 1⟩
              Dev.chooseStrips m p n w f skip
                { d with dec := { d.dec with pool := pool ++ [x], stamp := d.dec.stamp + 1 } }
      else (d, false)

/-- R141: every window that does not fit, in page order. -/
def Dev.preExpand (d : Dev) (m : Mem) (p : Page) : Dev :=
  if d.rd Fld.DEC_POOL.SizeGiB = 0 then d
  else
    let places := (List.range (ceilDiv p.length 4096)).flatMap (fun w => (d.planesOn.filter p.planeMask.toNat.testBit).map (fun n => (n, w)))
    (places.foldl (fun (x : Dev × Bool) e =>
      if x.2 then x else Dev.chooseStrips m p e.1 e.2 ((x.1.pageCharges m p e.1).length + 1) [] x.1) (d, false)).1

/-- The planes of a page that do not fit, with T_min(p). -/
def Dev.overPlanes (d : Dev) (ws : List (Nat × List BudgetWindow)) : List (Nat × Rat) :=
  (ws.map (fun e => (e.1, d.planeTime e.1 e.2))).filter (fun e => decide ((d.planPeriod e.1 : Rat) < e.2))

/-- R143: the page does not fit: the budget source, DEC_LIMITPER and the BudgetShort notice. -/
def Dev.budgetShort (d : Dev) (p : Page) (ws : List (Nat × List BudgetWindow)) (excess : List (Nat × Rat)) : Dev :=
  match excess with
  | [] => d
  | o :: os =>
    let worst := os.foldl (fun (a : Nat × Rat) e => if a.2 < e.2 then e else a) o
    let t := worst.2.ceil.toNat
    let bad := ((ws.find? (fun e => e.1 == worst.1)).map (fun e => e.2.findIdx (fun b => d.misfit worst.1 b))).getD 0
    let rate := 1000000000 / t
    let d := d.modPage p.key (fun q => { q with budget := { q.budget with tooSlow := true, tmin := t } })
    (d.sticky Fld.DEC_ERR.BudgetShort).noticeAt Nt.BudgetShort
      [(0, 4, p.pageId.toNat), (4, 4, p.generation.toNat), (8, 4, t), (12, 4, rate), (16, 1, worst.1), (18, 2, bad)]

/-- R138 to R143: the budget scan of the oldest held page whose scan is pending completes. -/
def Dev.budgetScanDone (d : Dev) (m : Mem) : Dev :=
  match d.job.pages.find? (fun p => p.budget.scanPending) with
  | none => d
  | some p =>
    let d := d.preExpand m p
    let ws := d.pageWindows m p
    let d := d.modPage p.key (fun q => { q with budget := ⟨false, ws, false, 0⟩ })
    d.budgetShort p ws (d.overPlanes ws)

/-- R144: a write of DEC_PLANPER computes the budget of every held page that has not started again. -/
def Dev.planPeriodWritten (d : Dev) : Dev :=
  d.rebudget (fun p => !p.begun && decide (p.planeMask ≠ 0#8) && decide (p.length ≠ 0))

/-- DEC_LIMITPER: the largest T_min of held pages over budget (R143). -/
def Dev.limitPeriod (d : Dev) : Nat :=
  d.job.pages.foldl (fun a p => if p.budget.tooSlow then max a p.budget.tmin else a) 0

/-- DEC_STATUS (Table 34). -/
def Dev.decStatus (d : Dev) : Nat :=
  maskOf 16 (fun e => d.busyEngines.contains e) * 2 ^ 16 +
    (if d.job.pages.any (fun p => p.budget.scanPending) then 4 else 0) +
    (if d.dec.pool.any (fun x => !x.done) then 2 else 0) + (if d.budgetLimit then 1 else 0)

/-- DEC_POOLUSED: MiB of kept copies, rounded up. -/
def Dev.poolUsed (d : Dev) : Nat := ceilDiv (poolBytes (d.dec.pool.filter (fun x => x.done))) (2 ^ 20)

/-- R142: the oldest pre-expansion decode completes; the copy is kept only if it decoded without error, with DataCrc
matching, and its header still has its key. -/
def Dev.preExpansionDone (d : Dev) (m : Mem) (ok : Bool) : Dev :=
  match d.dec.pool.find? (fun x => !x.done) with
  | none => d
  | some x =>
    let bs := m.read x.offset 64
    let h := stripHdr bs
    let lines := linesOf x.offset (64 + h.comp)
    let good := ok && x.fits x.offset h && decide (stripFail d.jobLimit h.plane x.offset bs = none) &&
      decide (h.enc = 1) && !h.continued && !(lines.any (m.bad []))
    let o := inflate Inf.fresh (m.read (x.offset + 64) h.comp) h.decoded false false
    if good && decide (o.error = none) && decide (crc32c o.data = h.dataCrc) then
      { d with dec := { d.dec with
        pool := d.dec.pool.map (fun y => if y = x then { y with done := true, data := o.data } else y) } }.bump
          Fld.DEC_EXPCNT.Count
    else { d with dec := { d.dec with pool := d.dec.pool.filter (fun y => y != x) } }

/-! ### The print record -/

/-- Bytes of the print record buffer in use: line records and compressed data not yet acknowledged by some session. -/
def Dev.recordBytes (d : Dev) : Nat :=
  let lines := d.job.pages.foldl (fun a p =>
    a + p.records.foldl (fun a r => a + r.lines.foldl (fun a l => a + l.length) 0) 0) 0
  let held := d.ojp.sessions.toList.foldl (fun a s =>
    match s with
    | none => a
    | some s =>
      max a (s.unacked.foldl (fun a m => if m.page.isSome then a + m.body.length else a) 0 +
        s.waiting.foldl (fun a m => if m.page.isSome then a + m.body.length else a) 0)) 0
  lines + held

/-- The room of the print record buffer (R124). -/
def recordRoom : Nat := 1008 * 2 ^ 20

/-- DEC_RECUSED. -/
def Dev.recordUsed (d : Dev) : Nat := min 1008 (ceilDiv d.recordBytes (2 ^ 20))

/-- A record changed. -/
def Dev.modRecord (d : Dev) (key n : Nat) (f : RecordSt → RecordSt) : Dev :=
  d.modPage key (fun p => { p with records := p.records.map (fun r => if r.plane = n then f r else r) })

/-- R148, R149: one line record written for a plane's page, or the record truncated for want of room. -/
def Dev.addRecord (d : Dev) (key n : Nat) (line : Bytes) (last : Bool) : Dev :=
  match d.page key with
  | none => d
  | some p =>
    match p.records.find? (fun r => r.plane == n) with
    | none => d
    | some r =>
      if r.finished then d
      else if recordRoom < d.recordBytes + line.length then
        ((d.modRecord key n RecordSt.truncate).sticky Fld.DEC_ERR.RecordOverflow).notice Nt.RecordOverflow []
      else d.modRecord key n (fun r => { r with lines := r.lines ++ [line], next := r.next + 1, finished := last })

/-- The body of a RecordData message (R118). -/
def recordBody (p : Page) (n final offset : Nat) (data : Bytes) : Bytes :=
  natBE 4 p.pageId.toNat ++ natBE 4 p.generation.toNat ++ natBE 1 n ++ natBE 1 final ++ natBE 2 0 ++ natBE 8 offset ++
    data

/-- R86, R118: the most data that a RecordData message of a session carries: header, preamble and tag count. -/
def Session.recordMax (s : Session) : Nat := s.maxMessage - (if s.keyId = 0 then 48 else 64)

/-- R118: data sent to one session in messages of at most its greatest body. -/
def Dev.sendRecord (p : Page) (n i size : Nat) (final : Bool) : Nat → Nat → Bytes → Dev → Dev
  | 0, _, _, d => d
  | f + 1, off, data, d =>
    let here := data.take size
    let rest := data.drop size
    let last := rest.isEmpty
    let d := d.sendSeq i 0x43 (recordBody p n (if final && last then 1 else 0) off here) (some (p.key, n))
    if last then d else Dev.sendRecord p n i size final f (off + here.length) rest d

/-- R146 to R148: a chunk of at most 64 line records of the oldest page with a record on the plane is compressed and sent
to the sessions that receive the record. -/
def Dev.recordChunk (d : Dev) (n : Nat) : Dev :=
  match d.job.pages.find? (fun p => p.records.any (fun r =>
      r.plane == n && !r.ended && (decide (64 ≤ r.lines.length) || r.finished))) with
  | none => d
  | some p =>
    match p.records.find? (fun r => r.plane == n) with
    | none => d
    | some r =>
      let here := r.lines.take 64
      let rest := r.lines.drop 64
      let final := r.finished && rest.isEmpty
      let len := here.foldl (fun a l => a + l.length) 0
      let data := (Config.compressedChunk d.free).take (len + 5 * ceilDiv len 65535 + 13)
      let d := d.draw.modRecord p.key n (fun r => { r with
        lines := rest, sentOffset := r.sentOffset + data.length, ended := final })
      r.waiting.foldl (fun d i =>
        match d.session i with
        | none => d
        | some s => Dev.sendRecord p n i s.recordMax final (data.length + 1) r.sentOffset data d) d

end Sys2Proof.Machine
end

