-- ==== Sys2Proof/Machine/Raster.lean ====
section
/-!
DEFINITION. The raster pipeline (R151 to R165): scaling, registration, stitch blending, transfer curves and per-nozzle
correction of one grid line, its halftoning, and the formatter (R40, R236, R240, R241).
-/
namespace Sys2Proof.Machine

/-! ### Scaling (R153 to R156) -/

/-- Samples of a line as numbers. -/
def samples (bs : Bytes) : List Nat := bs.map (fun b => b.toNat)

/-- R154: grid line 2s + 1 under linear interpolation. -/
def alongWeb (a b : List Nat) : List Nat :=
  let bb := b.toArray
  (a.zipIdx).map (fun (e : Nat × Nat) => (e.1 + bb.getD e.2 0 + 1) / 2)

/-- R155: cross-web scaling at 2×: replication, or linear interpolation. -/
def crossWeb (linear : Bool) : List Nat → List Nat
  | [] => []
  | [x] => [x, x]
  | x :: y :: rest => x :: (if linear then (x + y + 1) / 2 else x) :: crossWeb linear (y :: rest)

/-- R158: the placed doses of columns 0 to width − 1. -/
def place (shift : Int) (width : Nat) (line : List Nat) : List Nat :=
  let arr := line.toArray
  let at_ := fun (x : Int) => if x < 0 then 0 else arr.getD x.toNat 0
  (List.range width).map (fun (c : Nat) =>
    let u : Int := (c : Int) * 16 - shift
    let xi := Int.fdiv u 16
    let f := (u - xi * 16).toNat
    (at_ xi * (16 - f) + at_ (xi + 1) * f + 8) / 16)

/-! ### Blending and correction (R159 to R163) -/

/-- R159: the weight of column `i` of the zone after port `p`. -/
def Dev.stitchWeight (d : Dev) (p i : Nat) : Nat :=
  if i % 2 = 0 then d.inForce (Fld.RAS_STWT.WeightEven p (i / 2)) else d.inForce (Fld.RAS_STWT.WeightOdd p (i / 2))

/-- Byte `e` of a table of bytes in force, four to a word from an address. -/
def Dev.tableByte (d : Dev) (base e : Nat) : Nat :=
  bitsOf (d.actReg (base + 4 * (e / 4))).toNat (8 * (e % 4) + 7) (8 * (e % 4))

/-- R160: the two shares of a shared column's dose: to the lower head, and to the higher. -/
def Dev.stitchSplit (d : Dev) (n p i line col dose : Nat) : Nat × Nat :=
  let w := d.stitchWeight p i
  if d.inForce (Fld.RAS_STCTRL.StitchMode n) = 0 then
    let db := (dose * w + 128) / 256
    (dose - db, db)
  else if d.tableByte (Adr.RAS_MASK n 0) (16 * (line % 16) + col % 16) < w then (0, dose)
  else (dose, 0)

/-- R159, R160: the dose that blending gives nozzle `j` of head `h`. -/
def Dev.blendedDose (d : Dev) (n line h : Nat) (cols : Array Nat) (j : Nat) : Nat :=
  let nh := d.headLen n
  let p := (d.range n).1 + h
  let col := d.startCol n h + j
  let dose := cols.getD col 0
  let after := d.overlap n p
  let before := if h = 0 then 0 else d.overlap n (p - 1)
  if nh - after ≤ j ∧ 0 < after then (d.stitchSplit n p (j - (nh - after)) line col dose).1
  else if j < before then (d.stitchSplit n (p - 1) j line col dose).2
  else dose

/-- R162, R163: curve, gain and offset of one nozzle. -/
def Dev.correctedDose (d : Dev) (n p j dose : Nat) : Nat :=
  let c := d.tableByte (Adr.RAS_CURVE p 0) dose
  if c = 0 ∧ d.inForce (Fld.RAS_STCTRL.ZeroHold n) = 1 then 0
  else
    let w := (d.actReg (0x01000000 + 4 * nozzleNo p j)).toNat
    let g := bitsOf w 7 0
    let o := signedOf 8 (bitsOf w 15 8)
    (clampInt 0 255 (((g * c + 64) / 128 : Nat) + o)).toNat

/-- Stages 4 to 6: the corrected doses of every head of a plane. -/
def Dev.headDoses (d : Dev) (n line : Nat) (cols : List Nat) : List (Nat × List Nat) :=
  let arr := cols.toArray
  ((d.portsOf n).zipIdx).map (fun e =>
    (e.1, (List.range (d.headLen n)).map (fun j => d.correctedDose n e.1 j (d.blendedDose n line e.2 arr j))))

/-! ### Source lines -/

/-- What a plane's ring part says of a source line of a page. -/
inductive SrcState
  | line (l : SrcLine)
  | short
  | notYet
  deriving DecidableEq, Repr

/-- R56, R125: source line `s` of a page: decoded, beyond what the entries supply, or not yet there. -/
def Dev.source (d : Dev) (n key s : Nat) : SrcState :=
  let x := d.decode n
  match x.ring.find? (fun l => l.page == key && l.index == s) with
  | some l => .line l
  | none =>
    if key ≤ x.lastKey ∧ !(x.uses.any (fun u => u.lines.any (fun l => l.page == key && l.index == s))) then .short
    else .notYet

/-- R154: the samples of a source line; one printed blank is ⌈Width / f⌉ samples of 0. -/
def Dev.lineSamples (d : Dev) (n : Nat) (l : SrcLine) : List Nat :=
  if l.fault then List.replicate (ceilDiv (d.width n) (1 + d.inForce (Fld.RAS_SCALE.XFactor n))) 0 else samples l.data

/-- What a grid line needs of the ring: its source line, and the next one where interpolation uses it. -/
inductive GridSource
  | lines (a : SrcLine) (b : Option SrcLine)
  | short
  | notYet
  deriving DecidableEq, Repr

/-- R153, R154: the source of grid line `g` of a page. -/
def Dev.gridSource (d : Dev) (n : Nat) (p : Page) (g : Nat) : GridSource :=
  let yf := d.yFactor n
  let s := g / yf
  match d.source n p.key s with
  | .notYet => .notYet
  | .short => .short
  | .line a =>
    if yf = 2 ∧ d.inForce (Fld.RAS_SCALE.YMode n) = 1 ∧ g % 2 = 1 ∧ s + 1 < d.needLines n p then
      match d.source n p.key (s + 1) with
      | .notYet => .notYet
      | .short => .lines a none
      | .line b => .lines a (some b)
    else .lines a none

/-- Stages 1 to 3: the placed doses of a grid line. -/
def Dev.placed (d : Dev) (n : Nat) (a : SrcLine) (b : Option SrcLine) : List Nat :=
  let sa := d.lineSamples n a
  let along := match b with
    | some l => alongWeb sa (d.lineSamples n l)
    | none => sa
  let across := if d.inForce (Fld.RAS_SCALE.XFactor n) = 1 then
      crossWeb (decide (d.inForce (Fld.RAS_SCALE.XMode n) = 1)) along
    else along
  place (signedOf 16 (d.inForce (Fld.RAS_REG.Shift n))) (d.width n) across

/-- R157: a judged line's scaled width is compared with Width, once per plane per page. -/
def Dev.judgeWidth (d : Dev) (n : Nat) (p : Page) (a : SrcLine) : Dev :=
  let scaled := a.data.length * (1 + d.inForce (Fld.RAS_SCALE.XFactor n))
  if a.judged = false ∨ scaled = d.width n then d
  else
    let d := d.sticky Fld.RAS_ERR.WidthMismatch
    if p.widthPlanes.contains n then d
    else
      (d.modPage p.key (fun q => { q with widthPlanes := q.widthPlanes ++ [n] })).notice Nt.WidthMismatch
        [(1, n), (4, p.pageId.toNat), (4, scaled), (4, d.width n)]

/-! ### Computing a line -/

/-- A plane's raster state. -/
def Dev.raster (d : Dev) (n : Nat) : PlaneRaster := vgetD d.ras.planes n ⟨none, 0, [], []⟩

/-- R167, R175, R190, R195: what happens at grid line 0 of a page. -/
def Dev.firstLine (d : Dev) (n key : Nat) : Dev :=
  let d := (d.linePending n).adopt n
  d.setRaster n { d.raster n with page := some key, line := 0, rowErr := [] }

/-- R125: source lines that no later grid line uses leave the ring. -/
def Dev.freeRing (d : Dev) (n : Nat) (p : Page) (g : Nat) : Dev :=
  let x := d.decode n
  let from_ := (g + 1) / d.yFactor n
  d.setDecode n { x with ring := x.ring.filter (fun l => l.page != p.key || (decide (g + 1 < p.length) && decide (from_ ≤ l.index))) }

/-- A computed line enters the row-stagger buffer. -/
def Dev.keepLine (d : Dev) (n : Nat) (l : StagLine) (rowErr : List (List Int)) : Dev :=
  let x := d.raster n
  d.setRaster n { x with page := some l.page, line := l.line + 1, stag := x.stag ++ [l], rowErr := rowErr }

/-- A line on which every nozzle of the plane carries code 0. -/
def Dev.blankCodes (d : Dev) (n : Nat) : List (List Nat) :=
  (d.portsOf n).map (fun _ => List.replicate (d.headLen n) 0)

/-- R151 to R165: grid line `g` of a page on plane `n`; none where its source is not there yet. -/
def Dev.computeLine (d : Dev) (n : Nat) (p : Page) (g : Nat) : Option Dev :=
  if p.planeMask.toNat.testBit n then
    match d.gridSource n p g with
    | .notYet => none
    | .short =>
      let d := (if g = 0 then d.firstLine n p.key else d).flag p.key 1
      let doses := d.headDoses n g (List.replicate (d.width n) 0)
      let r := d.halftone n g (d.hide n doses) (d.raster n).rowErr
      some ((d.keepLine n ⟨p.key, g, r.1, false⟩ r.2).freeRing n p g)
    | .lines a b =>
      let d := if g = 0 then d.firstLine n p.key else d
      let d := d.judgeWidth n p a
      let doses := d.headDoses n g (d.placed n a b)
      let r := d.halftone n g (d.hide n doses) (d.raster n).rowErr
      some ((d.keepLine n ⟨p.key, g, r.1, a.fault⟩ r.2).freeRing n p g)
  else
    let d := if g = 0 then d.firstLine n p.key else d
    some (d.keepLine n ⟨p.key, g, d.blankCodes n, false⟩ [])

/-! ### Formatting -/

/-- R236: the nozzle's k in slot `m` of lane `l`. -/
def slotK (lanes order l m : Nat) : Nat := if order = 0 then 512 - lanes + l - lanes * m else l + lanes * m

/-- R236: bit `i` of lane `l` of a port's line. -/
def Dev.laneBit (d : Dev) (n : Nat) (codes : Array Nat) (l i : Nat) : Bool :=
  let lanes := d.laneCount n
  let cb := d.codeBits n
  let pc := 512 / lanes * cb
  let q := d.chainLen n - 1 - i / pc
  let chip := orderSlot (d.chainOrder n) q
  let k := slotK lanes (d.inForce (Fld.HP_PORTCFG.KOrder n)) l (i % pc / cb)
  (codes.getD (chip * 512 + k) 0).testBit (cb - 1 - i % cb)

/-- R240: the line's bits, lane-interleaved. -/
def Dev.lineBits (d : Dev) (n : Nat) (codes : List Nat) : List Bool :=
  let arr := codes.toArray
  let lanes := d.laneCount n
  (List.range (d.shiftBits n)).flatMap (fun i => (List.range lanes).map (fun l => d.laneBit n arr l i))

/-- Bits packed into bytes, the first bit in bit 0, at most `fuel` bytes. -/
def packBits : Nat → List Bool → Bytes
  | 0, _ => []
  | f + 1, bs =>
    if bs.isEmpty then []
    else
      BitVec.ofNat 8 (((bs.take 8).zipIdx).foldl (fun a e => if e.1 then a + 2 ^ e.2 else a) 0) :: packBits f (bs.drop 8)

/-- R240: the line check value of a port's line. -/
def Dev.lineCheck (d : Dev) (n : Nat) (codes : List Nat) : Nat :=
  let bits := d.lineBits n codes
  crc32c (packBits (bits.length / 8) bits)

/-- R40: what the rows of one head fire at a page's event: each nozzle's code of its row's line, 0 where that row has no
data. -/
def Dev.partCodes (d : Dev) (n h : Nat) (part : Nat × Nat) : List Nat :=
  let rows := d.rowCount n
  let lines := (d.staggers n).map (fun s =>
    let e := part.2
    let off := d.planeOffset n + s
    if e < off then none
    else ((d.raster n).stag.find? (fun l => l.page == part.1 && l.line == e - off)).map (fun l => (l.codes.getD h []).toArray))
  let arr := lines.toArray
  (List.range (d.headLen n)).map (fun j =>
    match arr.getD (j % rows) none with
    | some cs => cs.getD j 0
    | none => 0)

/-- R40: the parts of a joined event on one head. -/
def Dev.entryCodes (d : Dev) (n h : Nat) (parts : List (Nat × Nat)) : List Nat :=
  match parts with
  | [] => List.replicate (d.headLen n) 0
  | [p] => d.partCodes n h p
  | p :: rest => rest.foldl (fun a q => (a.zip (d.partCodes n h q)).map (fun e => max e.1 e.2)) (d.partCodes n h p)

/-- R241: one whole entry for each port of the plane. -/
def Dev.formEntry (d : Dev) (n : Nat) (parts : List (Nat × Nat)) (count : Int) : Dev :=
  ((d.portsOf n).zipIdx).foldl (fun d e =>
    let codes := d.entryCodes n e.2 parts
    let x := d.port e.1
    d.setPort e.1 { x with queue := x.queue ++ [⟨n, parts, count, codes, d.lineCheck n codes, none⟩] }) d

/-! ### The next event to form -/

/-- The threshold of a run's event (R34). -/
def Dev.runThreshold (d : Dev) (n : Nat) (r : Run) (e : Nat) : Int := threshold r.start (d.pitch n) e

/-- The runs of a plane that still have an entry to form, with the count of that entry. -/
def Dev.toForm (d : Dev) (n : Nat) : List (Run × Int) :=
  ((d.plane n).runs.filter (fun r => r.abandoned.isNone && decide (r.formed ≤ d.lastEvent n r))).map
    (fun r => (r, d.runThreshold n r r.formed))

/-- The lowest count of a list, in serial order (R207). -/
def lowest : List (Run × Int) → Option Int
  | [] => none
  | e :: es => some (es.foldl (fun a x => if posBelow x.2 a then x.2 else a) e.2)

/-- R40: the next event to form: its count and the parts it serves. -/
def Dev.nextForm (d : Dev) (n : Nat) : Option (Int × List (Nat × Nat)) :=
  let l := d.toForm n
  (lowest l).map (fun c => (c, (l.filter (fun e => decide (e.2 = c))).map (fun e => (e.1.page, e.1.formed))))

/-- The event formed: the runs it serves go on to their next one. -/
def Dev.formed (d : Dev) (n : Nat) (parts : List (Nat × Nat)) : Dev :=
  let x := d.plane n
  d.setPlane n { x with runs := x.runs.map (fun r =>
    if parts.any (fun p => p.1 == r.page && p.2 == r.formed) then { r with formed := r.formed + 1 } else r) }

/-- The line that an event's reference row needs, computed if it is not yet there. -/
def Dev.needLine (d : Dev) (n : Nat) (part : Nat × Nat) : Option Dev :=
  match d.page part.1 with
  | none => some d
  | some p =>
    let g := part.2 - d.planeOffset n
    if p.length ≤ g then some d
    else if (d.raster n).stag.any (fun l => l.page == part.1 && l.line == g) then some d
    else d.computeLine n p g

/-- R165: the raster pipeline's next line of a plane, and the entries it makes whole. -/
def Dev.rasterLine (d : Dev) (n : Nat) : Dev :=
  if (d.portsOf n).any (fun p => decide (4 ≤ (d.port p).queue.length)) then d
  else
    match d.nextForm n with
    | none => d
    | some (count, parts) =>
      match parts.foldl (fun (a : Option Dev) p => a.bind (fun d => d.needLine n p)) (some d) with
      | none => d
      | some d => (d.formEntry n parts count).formed n parts

end Sys2Proof.Machine
end

