-- ==== Sys2Proof/Machine/Heads.lean ====
section
/-!
DEFINITION. Head ports (R231 to R262): shifts and their numbers, LAT pulses, the echo check and the latency search, lane
deskew, and the firing counts (R489).
-/
namespace Sys2Proof.Machine

/-! ### Shifts (R241 to R244) -/

/-- R335: in a commanded handoff the shift of H_n is not the old striker's. -/
def Dev.beyondHandoff (d : Dev) (p : Nat) : Bool :=
  match d.planeOf p, (d.port p).queue with
  | some n, e :: _ =>
    d.pair.handoffAt.any (fun h => h.1 == n && e.parts.getLast?.map (·.2) == some h.2)
  | _, _ => false

/-- May the port shift: driven, in an enabled plane, and holding a visible entry (R234, R243)? -/
def Dev.mayShift (d : Dev) (p : Nat) : Bool :=
  d.portDriven p && (d.planeOf p).isSome && !(d.port p).queue.isEmpty && (d.isKeeper || !d.beyondHandoff p)

/-- R243: shift N begins. -/
def Dev.shiftStart (d : Dev) (p : Nat) : Dev :=
  let x := d.port p
  if x.shift = .none ∧ x.latHigh = false ∧ d.mayShift p = true then
    d.setPort p { x with shift := .busy, whole := decide (d.rd (Fld.HP_ECHO.Enable p) = 1) }
  else d

/-- R244: the last CLK edge of the shift; a shift of a discarded entry is never latched (R66). R251: what the returned bits
are compared with. -/
def Dev.shiftComplete (d : Dev) (p : Nat) : Dev :=
  let x := d.port p
  match x.shift with
  | .busy =>
    d.setPort p { x with
      shift := .done
      compare := match x.prev with
        | some e => if x.whole then some (x.n, e) else none
        | none => none }
  | .orphan => d.setPort p { x with shift := .none, prev := none, whole := false, compare := none }
  | _ => d

/-- R232, R251: a port is driven with a break: no compare spans it. -/
def Dev.breakEcho (d : Dev) (p : Nat) : Dev :=
  d.setPort p { d.port p with prev := none, whole := false, compare := none }

/-! ### Firing counts (R489) -/

/-- One more pulse for every nozzle of port `p` whose code is not 0. -/
def countFired (acc : List (Nat × Nat)) (p : Nat) (codes : List Nat) : List (Nat × Nat) :=
  (codes.zipIdx).foldl (fun a e =>
    if e.1 = 0 then a
    else let z := nozzleNo p e.2
      spPut 0 z (min 65535 (spGet 0 a z + 1)) a) acc

/-- R489: a LAT pulse counted for port `p`. -/
def Dev.countPulse (d : Dev) (p : Nat) (codes : List Nat) : Dev :=
  { d with fire := { d.fire with acc := countFired d.fire.acc p codes } }

/-- R489: the accumulators of a port's nozzles are added into their counters, which saturate. -/
def Dev.foldCounts (d : Dev) (p : Nat) : Dev :=
  let mine := d.fire.acc.filter (fun e => e.1 / 4096 == p)
  let cnt := mine.foldl (fun c e => spPut 0 e.1 (min (2 ^ 48 - 1) (spGet 0 c e.1 + e.2)) c) d.fire.cnt
  { d with fire := { d.fire with acc := d.fire.acc.filter (fun e => e.1 / 4096 != p), cnt := cnt } }

/-! ### LAT pulses (R246, R247) -/

/-- R247: the return select that LAT pulse `k` carries. -/
def Dev.selOf (d : Dev) (n k : Nat) : Nat := (k + 1) % d.laneCount n

/-- LAT pulse N of port `p` latches the head entry: the pulse leaves the port, HP_LCVp takes the line's check value, the
entry leaves the queue and the shift number steps on. -/
def Dev.latPulse (d : Dev) (p : Nat) : Dev :=
  let x := d.port p
  match x.queue with
  | [] => d
  | e :: rest =>
    let d := d.emit (match e.test with
      | some z => .latTest p x.n z
      | none => .lat p x.n (d.selOf e.plane x.n) e.lcv)
    let d := (d.wr (Fld.HP_LCV.Value p) e.lcv).countPulse p e.codes
    d.setPort p { x with
      queue := rest, shift := .none, n := (x.n + 1) % 2 ^ 32, latHigh := true
      strobes := x.strobes.filter (fun t => decide (t.parts ≠ e.parts))
      prev := if x.whole then some e else none, whole := false
      lastEv := (e.parts.getLast?).map (·.2) }

/-- LAT falls. -/
def Dev.latFall (d : Dev) (p : Nat) : Dev := d.setPort p { d.port p with latHigh := false }

/-! ### The echo check (R250 to R254) -/

/-- The bits that a port sent on a lane for an entry, in the order sent. -/
def Dev.laneBits (d : Dev) (e : Entry) (lane : Nat) : List Bool :=
  let arr := e.codes.toArray
  (List.range (d.shiftBits e.plane)).map (fun i => d.laneBit e.plane arr lane i)

/-- The first index at which the received bits, taken from `latency` on, differ from those expected. -/
def firstDiff (expected : List Bool) (got : Array Bool) (latency : Nat) : Option Nat :=
  ((expected.zipIdx).find? (fun e => got.getD (e.2 + latency) false != e.1)).map (·.2)

/-- R254: the lowest latency of 0 to 255 at which every returned bit matches. -/
def matchLatency (expected : List Bool) (got : Array Bool) : Option Nat :=
  (List.range 256).find? (fun l => (firstDiff expected got l).isNone)

/-- R254: a returned lane that a search may use. -/
def lanQualifies (expected : List Bool) : Bool :=
  decide (64 ≤ (expected.filter id).length) && decide (64 ≤ (expected.filter (fun b => !b)).length)

/-- R254: a search ends. -/
def Dev.endFind (d : Dev) (p : Nat) (found : Option Nat) : Dev :=
  let d := d.setPort p { d.port p with find := ⟨false, none⟩ }
  match found with
  | some l => d.wr (Fld.HP_ECHO.Latency p) l
  | none => d.sticky (Fld.HP_ECHO.FindFail p)

/-- R252: a compared shift `k` differed at bit `i` of lane `lane`; in a pair it is evidence (R327). -/
def Dev.echoMismatch (d : Dev) (p k lane i : Nat) (e : Entry) : Dev :=
  let d := if p < 32 then d.wr Fld.HP_ECHOERRLO.Ports (d.rd Fld.HP_ECHOERRLO.Ports ||| 2 ^ p)
    else d.wr Fld.HP_ECHOERRHI.Ports (d.rd Fld.HP_ECHOERRHI.Ports ||| 2 ^ (p - 32))
  let d := (d.sticky Fld.HP_ERR.EchoMismatch).bump (Fld.HP_ECHOCNT.Count p)
  let d := if d.inPair then
      { d with pair := { d.pair with evidence := d.pair.evidence ++ e.parts.map (fun q => (e.plane, q.2)) } }
    else d
  match e.parts.getLast? with
  | none => d
  | some part =>
    match d.page part.1 with
    | none => d
    | some g =>
      if g.echoPorts.contains p then d
      else
        (d.modPage g.key (fun q => { q with echoPorts := q.echoPorts ++ [p] })).notice Nt.EchoMismatch
          [(1, p), (4, k), (1, lane), (4, i)]

/-- R250 to R254: the comparison of the bits that HRET returned during shift N completes; `bits` are the samples from the
first CLK edge on. -/
def Dev.echoResult (d : Dev) (p : Nat) (bits : List Bool) : Dev :=
  let x := d.port p
  match x.compare with
  | none => d
  | some (k, e) =>
    let d := d.setPort p { x with compare := none }
    let lane := k % d.laneCount e.plane
    let expected := d.laneBits e lane
    let got := bits.toArray
    if x.find.active then
      if lanQualifies expected then
        match matchLatency expected got with
        | none => d.endFind p none
        | some l =>
          match x.find.last with
          | none => d.setPort p { d.port p with find := ⟨true, some l⟩ }
          | some m => d.endFind p (if l = m then some l else none)
      else d
    else
      match firstDiff expected got (d.rd (Fld.HP_ECHO.Latency p)) with
      | none => d
      | some i => d.echoMismatch p k lane i e

/-- R254: a write of 1 to HP_ECHOp.Find. -/
def Dev.echoFind (d : Dev) (p : Nat) : Dev :=
  if d.rd (Fld.HP_ECHO.Enable p) = 1 then d.setPort p { d.port p with find := ⟨true, none⟩ } else d.endFind p none

/-- R254: 1 s has passed since Find was written. -/
def Dev.findTimeout (d : Dev) (p : Nat) : Dev := if (d.port p).find.active then d.endFind p none else d

/-- R251, R254: HP_ECHOp.Enable cleared: the present shift is not compared. -/
def Dev.echoEnableChanged (d : Dev) (p : Nat) : Dev :=
  if d.rd (Fld.HP_ECHO.Enable p) = 1 then d else d.breakEcho p

/-! ### Lane deskew (R255 to R258) -/

/-- R256: the ports a run calibrates. -/
def Dev.deskewPorts (d : Dev) : List Nat :=
  if d.rd Fld.HP_DSKCTRL.All = 1 then List.range d.part.portCount else [d.rd Fld.HP_DSKCTRL.Port]

/-- R256: a write of 1 to HP_DSKCTRL.Start; `granted`: in a pair, the partner's answer for the ports of the run. -/
def Dev.deskewStart (d : Dev) (granted : Bool) : Dev :=
  let paired := d.inPair
  let d := if paired then d.deskewPorts.foldl (fun d p => d.emit (.pair (.deskewRequest p))) d else d
  if d.hp.deskew.running then d
  else if d.pageInFlight ∨ (paired ∧ granted = false) then d.wr Fld.HP_DSKSTAT.Refused 1
  else
    let d := { d with hp := { d.hp with deskew := { d.hp.deskew with running := true, ports := d.deskewPorts } } }
    ((d.wr Fld.HP_DSKSTAT.Refused 0).wr Fld.HP_DSKSTAT.CalRefMissing 0).wr Fld.HP_DSKSTAT.Busy 1

/-- Bit `p` of a LO and HI register pair set to `v`. -/
def Dev.wrPortBit (d : Dev) (lo hi : FieldRef) (p : Nat) (v : Bool) : Dev :=
  let f := if p < 32 then lo else hi
  let i := p % 32
  let w := d.rd f
  let cleared := if w.testBit i then w - 2 ^ i else w
  d.wr f (if v then cleared + 2 ^ i else cleared)

/-- R257, R258: port `p`'s result: its DONE and PASS bits, DeskewFail, and the journal entry with the ClkSel in force. -/
def Dev.deskewResult (d : Dev) (p : Nat) (pass : Bool) : Dev :=
  let d := d.wrPortBit Fld.HP_DSKDONELO.Ports Fld.HP_DSKDONEHI.Ports p true
  let d := d.wrPortBit Fld.HP_DSKPASSLO.Ports Fld.HP_DSKPASSHI.Ports p pass
  let d := if pass then d else d.sticky Fld.HP_ERR.DeskewFail
  { d with
    hp := { d.hp with deskew := { d.hp.deskew with journalClk := d.inForce Fld.HP_CLK.ClkSel } }
    jnl := { d.jnl with queue := d.jnl.queue ++ [.calibration] } }

/-- R257: a port of the run completes; without CALREF every port of the run fails. -/
def Dev.deskewDone (d : Dev) (p : Nat) (calRef pass : Bool) : Dev :=
  if !d.hp.deskew.running || !d.hp.deskew.ports.contains p then d
  else
    let d := if calRef then d.deskewResult p pass
      else (d.hp.deskew.ports.foldl (fun d q => d.deskewResult q false) d).wr Fld.HP_DSKSTAT.CalRefMissing 1
    let left := if calRef then delNat p d.hp.deskew.ports else []
    let d := { d with hp := { d.hp with deskew := { d.hp.deskew with ports := left, running := !left.isEmpty } } }
    if left.isEmpty then d.wr Fld.HP_DSKSTAT.Busy 0 else d

/-- R256: the partner asks for high impedance on a port. -/
def Dev.deskewGrant (d : Dev) (p : Nat) : Dev :=
  let ok := !d.pageInFlight
  let d := if ok then (d.setPort p { d.port p with granted := true }).breakEcho p else d
  d.emit (.pair (.deskewGrant p ok))

/-- The grants end when pages print again: the partner's run has ended (log 44). -/
def Dev.endGrants (d : Dev) : Dev :=
  { d with hp := { d.hp with ports := d.hp.ports.map (fun p => { p with granted := false }) } }

end Sys2Proof.Machine
end

