-- ==== Sys2Proof/Machine/Timing.lean ====
section
/-!
DEFINITION. The planes' line timing (R34 to R40, R210 to R228): page starts, events falling due and fired, strobes,
abandonment, the data-late stop with its resume, and the end of a page on a plane.
-/
namespace Sys2Proof.Machine

/-! ### The striker's sequence messages (R320) -/

/-- A striker in a pair tells its keeper. -/
def Dev.tellKeeper (d : Dev) (m : SeqMsg) : Dev :=
  if d.inPair ∧ d.pair.role = .striker then d.emit (.pair (.sequence m)) else d

/-! ### Events falling due (R210, R211) -/

/-- R37, R40: events in the order of their counts; events of two pages on one count are one. -/
def insDue (e : LineEv) : List LineEv → List LineEv
  | [] => [e]
  | x :: l =>
    if e.count = x.count then
      { x with parts := x.parts ++ e.parts, measured := e.measured } :: l
    else if posBelow e.count x.count then e :: x :: l
    else x :: insDue e l

/-- R211: the interval measured to event `e` of a run by a forward movement past events `k0` + 1 and following at `ns`. -/
def Run.measured (r : Run) (k0 : Int) (e ns : Nat) : Option Nat :=
  if (e : Int) = k0 + 1 then
    match r.cross with
    | some (k, t) => if (k : Int) = k0 then some (ns - t) else none
    | none => none
  else if k0 + 1 < (e : Int) then some 0
  else none

/-- The last event of a run crossed at a position, −1 before event 0. -/
def Dev.crossedTo (d : Dev) (n : Nat) (r : Run) (pos : Int) : Int :=
  min (lastEventAt r.start (d.pitch n) pos) (d.lastEvent n r)

/-- The events of a run that a forward movement makes due: those not silent (R36) from NextEvent to the last crossed. -/
def Dev.dueOf (d : Dev) (n : Nat) (old pos : Int) (ns : Nat) (overdue : Bool) (r : Run) : List LineEv :=
  if r.abandoned.isSome then []
  else
    let k0 := d.crossedTo n r old
    let lo := max r.next (d.planeOffset n)
    (List.range (d.crossedTo n r pos + 1 - lo).toNat).map (fun i =>
      ⟨[(r.page, lo + i)], d.runThreshold n r (lo + i), ns,
        if overdue then none else r.measured k0 (lo + i) ns, overdue⟩)

/-- R210, R211: a run counts on: NextEvent, where it is not frozen, and the time of its last forward crossing. -/
def Dev.countRun (d : Dev) (n : Nat) (old pos : Int) (ns : Nat) (frozen : Bool) (r : Run) : Run :=
  let k1 := d.crossedTo n r pos
  let seen := match r.cross with
    | some (k, _) => decide (k1 ≤ (k : Int))
    | none => false
  { r with
    next := if frozen && r.abandoned.isNone then r.next else max r.next (k1 + 1).toNat
    cross := if d.crossedTo n r old < k1 ∧ !seen then some (k1.toNat, ns) else r.cross }

/-- R218: the fire times of due events, from the last fire time and the period. -/
def fireTimes (period : Nat) : Option Nat → List LineEv → List Nat
  | _, [] => []
  | prev, e :: es =>
    let f := match prev with
      | some t => max e.ns (t + period)
      | none => e.ns
    f :: fireTimes period (some f) es

/-- The due events of a plane with their fire times. -/
def Dev.dueTimes (d : Dev) (n : Nat) : List (LineEv × Nat) :=
  let x := d.plane n
  x.due.zip (fireTimes (d.period n) x.lastFire x.due)

/-- R218: the lag: events due and not yet fired at the latest edge. -/
def Dev.lag (d : Dev) (n : Nat) : Nat := ((d.dueTimes n).filter (fun e => decide (d.lt.ns < e.2))).length

/-! ### The end of a page on a plane -/

/-- A raster line leaves the row-stagger buffer: lines of a page up to `line`. -/
def Dev.dropStag (d : Dev) (n key line : Nat) : Dev :=
  let x := d.raster n
  d.setRaster n { x with stag := x.stag.filter (fun l => l.page != key || decide (line < l.line)) }

/-- R43, R175: a plane with no page left becomes idle and adopts the pending nozzle states. -/
def Dev.settlePlane (d : Dev) (n : Nat) : Dev :=
  let x := d.plane n
  if x.runs.isEmpty then (d.setPlane n { x with state := .idle, due := [], resume := none, heldStrobed := [] }).adopt n
  else if x.runs.all (fun r => r.abandoned.isSome) ∧ x.state = .running then d.setPlane n { x with state := .abandoned }
  else d

/-- R69: a plane has finished a page. -/
def Dev.endRun (d : Dev) (n key : Nat) : Dev :=
  let x := d.plane n
  let d := d.setPlane n { x with runs := x.runs.filter (fun r => r.page != key), lastNext := x.nextEvent }
  let d := d.modPage key (fun p => { p with done := vmodN p.done n (fun _ => true) })
  (d.dropStag n key (2 ^ 32)).settlePlane n

/-! ### The print record's lines (R148) -/

/-- Pairs of codes packed into bytes, even j in the low nibble. -/
def nibbles : List Nat → Bytes
  | [] => []
  | [a] => [BitVec.ofNat 8 (a % 16)]
  | a :: b :: l => BitVec.ofNat 8 (a % 16 + 16 * (b % 16)) :: nibbles l

/-- Table 33: a line record. -/
def lineRecord (line flags ports : Nat) (codes : List (List Nat)) : Bytes :=
  natLE 4 line ++ natLE 2 flags ++ natLE 2 ports ++ codes.flatMap nibbles

/-- R148: the record of a page line whose most downstream row has fired, or would have: `first` is the first event that
did not fire, where the page is abandoned. -/
def Dev.recordLine (d : Dev) (n key line : Nat) (first : Option Nat) (last : Bool) : Dev :=
  let x := d.plane n
  let st := (d.raster n).stag.find? (fun l => l.page == key && l.line == line)
  let staggers := (d.staggers n).toArray
  let rows := d.rowCount n
  let fired := fun (j : Nat) => match first with
    | none => true
    | some a => decide (d.planeOffset n + line + staggers.getD (j % rows) 0 < a)
  let codes := match st with
    | some l => l.codes.map (fun cs => (cs.zipIdx).map (fun e => if fired e.2 then e.1 else 0))
    | none => d.blankCodes n
  let blank := match st with
    | some l => l.blank
    | none => false
  let flags := (if blank then 1 else 0) + (if first.isSome then 2 else 0) + (if x.resumed then 4 else 0)
  let d := d.addRecord key n (lineRecord line flags (d.range n).2 codes) last
  d.setPlane n { d.plane n with resumed := false }

/-- The page line that the most downstream row fires at an event of a page on a plane; none before the first. -/
def Dev.downLine (d : Dev) (n e : Nat) : Option Nat :=
  let first := d.planeOffset n + d.maxStagger n
  if first ≤ e then some (e - first) else none

/-- R78: the leading plane fires, or in an abandoned page passes, the last line of a page on its reference row. -/
def Dev.lastLines (d : Dev) (n : Nat) (parts : List (Nat × Nat)) : Dev :=
  if d.leading = some n then
    parts.foldl (fun d part =>
      match (d.plane n).runs.find? (fun r => r.page == part.1), d.page part.1 with
      | some r, some g =>
        if part.2 + 1 = d.planeOffset n + r.length ∧ g.status.toNat.testBit 9 = false then d.chainDry part.1 else d
      | _, _ => d) d
  else d

/-- One page's part of an event is behind the plane: its line record, its line's place in the row-stagger buffer, and at
its last event the page itself (R40, R69, R148). -/
def Dev.passPart (d : Dev) (n : Nat) (first : Option Nat) (part : Nat × Nat) : Dev :=
  match (d.plane n).runs.find? (fun r => r.page == part.1) with
  | none => d
  | some r =>
    let ended := decide (d.lastEvent n r ≤ part.2)
    let d := if first.isSome then d.lastLines n [part] else d
    let d := match d.downLine n part.2 with
      | some l => (d.recordLine n part.1 l first (decide (l + 1 = r.length))).dropStag n part.1 l
      | none => d
    if ended then d.endRun n part.1 else d

/-- R219: an abandoned run has counted on from event `lo` to before `hi`. -/
def Dev.passAbandoned (d : Dev) (n key first lo hi : Nat) : Dev :=
  (List.range (hi - lo)).foldl (fun d i => d.passPart n (some first) (key, lo + i)) d

/-! ### Abandonment (R219) -/

/-- A row of a page has a line in an event. -/
def Dev.hasLine (d : Dev) (n length e : Nat) : Bool :=
  (d.staggers n).any (fun s => decide (d.planeOffset n + s ≤ e ∧ e < d.planeOffset n + s + length))

/-- R244: a port keeps the entries of events already fired; a shift of a discarded entry is never latched. -/
def Port.keepOnly (x : Port) (keep : Entry → Bool) : Port :=
  let stay := x.queue.filter keep
  let headStays := match x.queue with
    | e :: _ => keep e
    | [] => true
  { x with
    queue := stay
    shift := if headStays then x.shift
      else match x.shift with
        | .busy => .orphan
        | .orphan => .orphan
        | _ => .none }

/-- The ports of a plane keep only the entries with a property. -/
def Dev.keepEntries (d : Dev) (n : Nat) (keep : Entry → Bool) : Dev :=
  (d.portsOf n).foldl (fun d p => d.setPort p ((d.port p).keepOnly keep)) d

/-- A plane's decoding of an abandoned page ends. -/
def Dev.endDecode (d : Dev) (n key : Nat) : Dev :=
  let x := d.decode n
  d.setDecode n { x with
    cursor := match x.cursor with
      | some c => if c.page ≤ key then none else some c
      | none => none
    lastKey := max x.lastKey key
    uses := x.uses.map (fun u => if u.page = key then { u with lines := [] } else u)
    ring := x.ring.filter (fun l => l.page != key) }

/-- The speed windows that run now began before this abandonment (R221). -/
def Dev.windowsBefore (d : Dev) : Dev :=
  { d with lt := { d.lt with
    overspeed := true
    channels := d.lt.channels.map (fun c => { c with windowAfterAbandon := false }) } }

/-- One page abandoned on a plane at an event. -/
def Dev.abandonPage (d : Dev) (n key e : Nat) : Dev :=
  let d := (d.flag key 6).endDecode n key
  let d := d.tellKeeper (.abandon (Fin.ofNat 8 n) e)
  let id := match d.page key with
    | some p => p.pageId.toNat
    | none => 0
  let x := d.plane n
  let d := d.setPlane n { x with runs := x.runs.map (fun r => if r.page = key then { r with abandoned := some e } else r) }
  d.notice Nt.Abandoned [(4, id), (1, n), (4, e)]

/-- R219: plane `n` abandons the pages of `pages`, each at its event; its due events that are dropped are those not in
`kept`. -/
def Dev.abandon (d : Dev) (n : Nat) (kept : List LineEv) (pages : List (Nat × Nat)) : Dev :=
  let x := d.plane n
  let d := d.setPlane n { x with due := kept }
  let d := pages.foldl (fun d e => d.abandonPage n e.1 e.2) d
  let d := (d.sticky Fld.LT_ERR.Abandoned).windowsBefore
  let open_ := (d.plane n).open_.map (fun o => o.parts) ++ kept.map (fun e => e.parts)
  let d := d.keepEntries n (fun e => e.test.isSome || open_.contains e.parts)
  let off := d.planeOffset n
  let x := d.plane n
  let d := d.setPlane n { x with
    state := if x.runs.all (fun r => r.abandoned.isSome) then .abandoned else x.state
    runs := x.runs.map (fun r => if r.abandoned.isSome then r else { r with formed := max r.next off }) }
  (d.plane n).runs.foldl (fun d r =>
    match r.abandoned with
    | some a => if pages.any (fun e => e.1 == r.page) then d.passAbandoned n r.page a a r.next else d
    | none => d) d

/-- The pages with a line in some of the events, each with the first such event. -/
def Dev.pagesIn (d : Dev) (n : Nat) (evs : List LineEv) : List (Nat × Nat) :=
  (evs.flatMap (fun e => e.parts)).foldl (fun acc part =>
    match (d.plane n).runs.find? (fun r => r.page == part.1) with
    | none => acc
    | some r =>
      if r.abandoned.isNone && d.hasLine n r.length part.2 && !(acc.any (fun a => a.1 == part.1)) then acc ++ [part]
      else acc) []

/-- R219: the lag is held to LagLimit; a keeper abandons only at its striker's word (R320). -/
def Dev.checkLag (d : Dev) (n : Nat) : Dev :=
  if d.lag n ≤ d.rd (Fld.LT_MINPER.LagLimit n) ∨ d.isKeeper then d
  else
    let ts := d.dueTimes n
    let dropped := (ts.filter (fun e => decide (d.lt.ns < e.2))).map (·.1)
    let kept := (ts.filter (fun e => decide (e.2 ≤ d.lt.ns))).map (·.1)
    d.abandon n kept (d.pagesIn n dropped)

/-! ### Crossings -/

/-- Does a plane fire nothing now: stopped, on a faulty channel, held by HALT_REQ outside the stop (Table 41), or the
device sweeps (R275)? -/
def Dev.frozen (d : Dev) (n : Nat) : Bool :=
  let s := (d.plane n).state
  decide (s = .stopped) || (d.lt.haltReq && decide (s ≠ .armed)) || d.dd.running ||
    decide (d.rd (Fld.LT_CHSTAT.Fault (d.channelOf n)) = 1 ∧ s ≠ .armed)

/-- R211: LT_IVALn shows the last measured interval. -/
def Dev.showInterval (d : Dev) (n : Nat) (old pos : Int) (ns : Nat) : Dev :=
  (d.plane n).runs.foldl (fun d r =>
    let k0 := d.crossedTo n r old
    let k1 := d.crossedTo n r pos
    if k1 ≤ k0 then d
    else match r.measured k0 k1.toNat ns with
      | some i => d.wr (Fld.LT_IVAL.Interval n) (min 0xFFFFFFFF i)
      | none => d) d

/-- R260: the strobe set takes effect at line event 0 of a page, which a run of `before` that had not passed it now has. -/
def Dev.eventZero (d : Dev) (n : Nat) (before : List Run) : Dev :=
  if before.any (fun r => decide (r.next = 0) && (d.plane n).runs.any (fun q => q.page == r.page && decide (0 < q.next))) then
    d.strobePending n
  else d

/-- Abandoned runs go on counting: what they pass is recorded, and the page ends with its last event. -/
def Dev.passCounted (d : Dev) (n : Nat) (before : List Run) : Dev :=
  before.foldl (fun d r =>
    match r.abandoned with
    | none => d
    | some a =>
      match (d.plane n).runs.find? (fun q => q.page == r.page) with
      | some q => d.passAbandoned n r.page a (max a r.next) q.next
      | none => d) d

/-- R210: a forward movement of plane `n`'s channel from `old` to `pos`, which it reached at `ns`. -/
def Dev.crossPlane (d : Dev) (old pos : Int) (ns : Nat) (overdue : Bool) (n : Nat) : Dev :=
  if d.planeIdle n then d
  else
    let d := d.showInterval n old pos ns
    let x := d.plane n
    let fz := d.frozen n
    let new := if fz then [] else x.runs.flatMap (d.dueOf n old pos ns overdue)
    let d := d.setPlane n { x with
      due := new.foldl (fun l e => insDue e l) x.due
      runs := x.runs.map (d.countRun n old pos ns fz) }
    ((d.eventZero n x.runs).passCounted n x.runs).checkLag n

/-! ### The data-late stop (R222 to R228) -/

/-- The lowest of some events that have not been crossed: the next event to fall due on a plane. -/
def Dev.nextDue (d : Dev) (n : Nat) : Option LineEv :=
  let l := ((d.plane n).runs.filter (fun r => r.abandoned.isNone && decide (r.next ≤ d.lastEvent n r))).map (fun r =>
    let e := max r.next (d.planeOffset n)
    (⟨[(r.page, e)], d.runThreshold n r e, 0, none, false⟩ : LineEv))
  (l.foldl (fun acc e => insDue e acc) []).head?

/-- R222: a plane's resume event: the lowest not strobed by every port, with the ports that strobed it. -/
def Dev.resumeOf (d : Dev) (n : Nat) : Option (List (Nat × Nat) × Int × List Nat) :=
  let x := d.plane n
  match x.open_, x.due, x.resume with
  | o :: _, _, _ => some (o.parts, o.count, o.strobed)
  | [], _, some r => some (r.1, r.2, x.heldStrobed)
  | [], e :: _, none => some (e.parts, e.count, [])
  | [], [], none => (d.nextDue n).map (fun e => (e.parts, e.count, []))

/-- The lowest event of a page that a plane has fired or made due and has not finished; its NextEvent where there is none. -/
def PlaneLine.backTo (x : PlaneLine) (r : Run) : Nat :=
  let es := (x.open_.flatMap (fun o => o.parts) ++ x.due.flatMap (fun e => e.parts)).filter (fun p => p.1 == r.page)
  es.foldl (fun a p => min a p.2) r.next

/-- R222: a plane with a page to fire enters Stopped, with NextEvent frozen at R. -/
def Dev.stopPlane (d : Dev) (n : Nat) : Dev :=
  let x := d.plane n
  if x.runs.all (fun r => r.abandoned.isSome) then d
  else
    match d.resumeOf n with
    | none => d
    | some (parts, count, strobed) =>
      let d := d.setPlane n { x with
        state := .stopped, due := [], open_ := [], resume := some (parts, count), heldStrobed := strobed
        runs := x.runs.map (fun r => if r.abandoned.isSome then r else { r with next := x.backTo r }) }
      let d := (d.portsOf n).foldl (fun d p => d.setPort p { d.port p with strobes := [] }) d
      d.wr (Fld.LT_RESUME.Event n) (evName parts).2

/-- The planes in the present stop. -/
def Dev.stoppedPlanes (d : Dev) : List Nat :=
  d.planesOn.filter (fun n => decide ((d.plane n).state = .stopped ∨ (d.plane n).state = .armed))

/-- R223: the back-up target of a channel with a stopped plane. -/
def Dev.setTarget (d : Dev) (c : Nat) : Dev :=
  let rs := (d.stoppedPlanes.filter (fun n => d.channelOf n == c)).filterMap (fun n => (d.plane n).resume)
  match rs with
  | [] => d
  | r :: rest =>
    let low := rest.foldl (fun a q => if posBelow q.2 a then q.2 else a) r.2
    { d with lt := { d.lt with targets := vmodN d.lt.targets c (fun _ => wrap48 (low - d.rd (Fld.LT_BACKUP.Counts c))) } }

/-- The PageId of a held page. -/
def Dev.pageIdOf (d : Dev) (k : Nat) : Nat :=
  match d.page k with
  | some p => p.pageId.toNat
  | none => 0

/-- R222, R228: the DataLate notice. -/
def Dev.dataLateNotice (d : Dev) (plane port : Nat) (ev : Nat × Nat) : Dev :=
  let target := if plane < 8 then vgetD d.lt.targets (d.channelOf plane) 0 else 0
  d.noticeAt Nt.DataLate
    [(0, 1, plane), (1, 1, port), (4, 4, ev.2), (8, 4, d.pageIdOf ev.1), (12, 6, patternOf 48 target)]

/-- R222: the stop begins; the notice names the late plane, port and event. -/
def Dev.beginStop (d : Dev) (plane port : Nat) (ev : Nat × Nat) : Dev :=
  let inFlight := (List.range 8).flatMap (fun n => (d.plane n).runs.map (fun r => r.page))
  let d := d.planesOn.foldl Dev.stopPlane d
  let d := (List.range 4).foldl Dev.setTarget d
  let d := { d with lt := { d.lt with haltReq := true } }
  let d := ((d.sticky Fld.LT_ERR.DataLate).bump Fld.LT_LATECNT.Count).flagAll inFlight.eraseDups 8
  let ev := if plane < 8 ∧ port = 0xFF then
      match (d.plane plane).resume with
      | some r => evName r.1
      | none => ev
    else ev
  let d := d.tellKeeper (.dataLate plane port (d.stoppedPlanes.map (fun n =>
    (Fin.ofNat 8 n, match (d.plane n).resume with
      | some r => (evName r.1).2
      | none => 0))))
  d.dataLateNotice plane port ev

/-- R224, R244: a port holds its shift data for the resume event. -/
def Dev.portHolds (d : Dev) (n p : Nat) (parts : List (Nat × Nat)) : Bool :=
  let x := d.port p
  let shifted := decide (x.shift = .done) || d.isKeeper
  if (d.plane n).heldStrobed.contains p then
    match x.queue with
    | [] => (d.nextForm n).isNone
    | _ :: _ => shifted
  else
    match x.queue with
    | [] => false
    | e :: _ => decide (e.parts = parts) && shifted

/-- A run measures no interval from a crossing that its counter has since backed below (R226). -/
def Dev.dropAhead (d : Dev) (n : Nat) (pos : Int) (r : Run) : Run :=
  match r.cross with
  | some (k, _) => if d.crossedTo n r pos < (k : Int) then { r with cross := none } else r
  | none => r

/-- R224, R226, R228: a stopped plane becomes Armed; the next forward crossings are timed anew. -/
def Dev.arm (d : Dev) (n : Nat) : Dev :=
  let x := d.plane n
  match x.resume with
  | none => d
  | some (parts, _) =>
    let (key, e) := evName parts
    match x.runs.find? (fun r => r.page == key) with
    | none => d
    | some r =>
      let c := d.channelOf n
      let back : Int := (e : Int) - d.rd Fld.LT_DLCTRL.ReArm
      let mark := wrap48 (r.start + ceilDivI (back * d.pitch n) 65536)
      let pos := (d.chan (Fin.ofNat 4 c)).pos
      if x.state = .stopped ∧ d.rd (Fld.LT_CHSTAT.Fault c) = 0 ∧ posLe pos mark = true ∧
          (d.portsOf n).all (fun p => d.portHolds n p parts) = true then
        d.setPlane n { x with state := .armed, runs := x.runs.map (d.dropAhead n pos) }
      else d

/-- R225, R228: HALT_REQ may fall. -/
def Dev.mayRelease (d : Dev) : Bool :=
  let armed := d.planesOn.filter (fun n => decide ((d.plane n).state = .armed))
  d.lt.haltReq && !(d.planesOn.any (fun n => decide ((d.plane n).state = .stopped))) &&
    armed.all (fun n =>
      let c := d.channelOf n
      posLe (d.chan (Fin.ofNat 4 c)).pos (vgetD d.lt.targets c 0) && decide (d.rd (Fld.LT_CHSTAT.Fault c) = 0)) &&
    d.lt.faultStop.all (fun c => decide (d.rd (Fld.LT_CHSTAT.Fault c) = 0))

/-- R225, Table 41: HALT_REQ falls; a running plane's events that its counter has passed are due at once. -/
def Dev.release (d : Dev) : Dev :=
  if d.mayRelease then
    let d := { d with lt := { d.lt with haltReq := false, faultStop := [] } }
    d.planesOn.foldl (fun d n =>
      if (d.plane n).state = .running then
        let pos := (d.chan (Fin.ofNat 4 (d.channelOf n))).pos
        d.crossPlane pos pos d.lt.ns true n
      else d) d
  else d

/-- R224, R225: what a movement, a completed shift or a strobe may bring about in a stop. -/
def Dev.rearm (d : Dev) : Dev := if d.lt.haltReq then (d.planesOn.foldl Dev.arm d).release else d

/-- R222: a data-late stop for a late port. -/
def Dev.dataLate (d : Dev) (plane port : Nat) (ev : Nat × Nat) : Dev :=
  if d.isKeeper then d else (d.beginStop plane port ev).rearm

/-- The lowest plane on a channel with a page in flight, 0xFF for none. -/
def Dev.lowestBusy (d : Dev) (c : Nat) : Nat := ((d.planesOn' c).find? (fun n => !d.planeIdle n)).getD 0xFF

/-- R228, R324: a channel becomes faulty. -/
def Dev.channelFault (d : Dev) (c : Fin 4) : Dev :=
  if d.rd (Fld.LT_CHSTAT.Fault c.val) = 1 then d
  else
    let d := (d.wr (Fld.LT_CHSTAT.Fault c.val) 1).sticky (Fld.LT_CHSTAT.FaultSeen c.val)
    let d := d.sticky Fld.LT_ERR.ChannelFault
    let d := d.noticeTrouble Nt.ChannelFault [(1, c.val)]
    if d.isKeeper then
      { d with pair := { d.pair with begun := d.pair.begun &&& ~~~(BitVec.ofNat 8 (maskOf 8 (fun n => (d.planesOn' c.val).contains n))) } }
    else
      let d := { d with lt := { d.lt with faultStop := insNat c.val d.lt.faultStop } }
      (d.beginStop (d.lowestBusy c.val) 0xFF (0, 0)).rearm

/-- R228: a write of ClearFault. -/
def Dev.clearFault (d : Dev) (c : Fin 4) : Dev :=
  let d := (d.wr (Fld.LT_CHSTAT.Fault c.val) 0).setChan c { d.chan c with doubles := [] }
  d.rearm

/-! ### Strobes (R216, R217, R222, R246) -/

/-- R244: the port's shift for the event of a strobe is complete. -/
def Dev.strobeReady (d : Dev) (p : Nat) (s : PlacedStrobe) : Bool :=
  let x := d.port p
  d.portDriven p && decide (x.shift = .done) &&
    match x.queue with
    | e :: _ => decide (e.parts = s.parts)
    | [] => false

/-- The first port with a strobe at this instant whose shift is not complete. -/
def Dev.latePort (d : Dev) (at256 : Nat) : Option (Nat × PlacedStrobe) :=
  (List.range 64).findSome? (fun p =>
    match (d.port p).strobes with
    | s :: _ => if s.at256 = at256 ∧ d.roleDrives p = true ∧ d.strobeReady p s = false then some (p, s) else none
    | [] => none)

/-- An event that every port of the plane has strobed is behind it (R40, R69). -/
def Dev.finishEvent (d : Dev) (n : Nat) (parts : List (Nat × Nat)) : Dev :=
  let x := d.plane n
  let d := d.setPlane n { x with open_ := x.open_.filter (fun o => decide (o.parts ≠ parts)) }
  parts.foldl (fun d part => d.passPart n none part) d

/-- A port has strobed an event of a plane. -/
def Dev.markStrobed (d : Dev) (n p : Nat) (parts : List (Nat × Nat)) : Dev :=
  let x := d.plane n
  let d := d.setPlane n { x with open_ := x.open_.map (fun o =>
    if o.parts = parts then { o with strobed := insNat p o.strobed } else o) }
  if (d.plane n).open_.any (fun o => decide (o.parts = parts) && (d.portsOf n).all (fun q => o.strobed.contains q)) then
    d.finishEvent n parts
  else d

/-- R216, R222: port `p` strobes at the time of its first placed strobe, unless a port is late at that instant.  A keeper
never strobes (R323). -/
def Dev.strobe (d : Dev) (p : Nat) : Dev :=
  match (d.port p).strobes, d.planeOf p with
  | s :: _, some n =>
    if d.roleDrives p = false then d
    else match d.latePort s.at256 with
    | some (q, t) => d.dataLate ((d.planeOf q).getD n) q (evName t.parts)
    | none => ((d.latPulse p).markStrobed n p s.parts).rearm
  | _, _ => d

/-- R217: strobes of the plane that lie beyond the fire time of its next event are strobed at once and counted. -/
def Dev.clip (d : Dev) (n f : Nat) : Dev :=
  (d.portsOf n).foldl (fun d p =>
    match (d.port p).strobes with
    | s :: rest =>
      if d.roleDrives p = true ∧ f * 256 < s.at256 ∧ (d.plane n).state ≠ .stopped then
        let d := (d.bump Fld.LT_CLIPCNT.Count).sticky Fld.LT_ERR.StrobeClip
        (d.setPort p { d.port p with strobes := { s with at256 := f * 256 } :: rest }).strobe p
      else d
    | [] => d) d

/-- R216: the interval that scales an event's strobe offsets, as a fraction in ns. -/
def Dev.strobeInterval (d : Dev) (n : Nat) (e : LineEv) (f : Nat) : Nat × Nat :=
  let c := d.channelOf n
  let still := decide (d.rd (Fld.LT_SPEED.Still c) = 1 ∨ d.rd (Fld.LT_SPEED.Settling c) = 1)
  if e.overdue || decide (e.ns < f) || still then (d.period n, 1)
  else
    match e.measured with
    | some i => (i, 1)
    | none => (d.rateInterval n).getD (d.period n, 1)

/-- R216: a strobe is placed on port `p`. -/
def Dev.placeStrobe (d : Dev) (f : Nat) (parts : List (Nat × Nat)) (iv : Nat × Nat) (p : Nat) : Dev :=
  let x := d.port p
  let off := d.inForce (Fld.HP_STROBE.Offset p)
  d.setPort p { x with strobes := x.strobes ++ [⟨parts, f * 256 + roundDiv (off * iv.1) iv.2⟩] }

/-- R218: plane `n` fires its oldest due event: the clipped strobes of the one before (R217), and the strobes of its
ports (R216), but for those that strobed it before a stop (R226).  A keeper computes the same times (R323). -/
def Dev.lineEvent (d : Dev) (n : Nat) : Dev :=
  match d.dueTimes n with
  | [] => d
  | (e, f) :: _ =>
    let d := d.clip n f
    let x := d.plane n
    match x.due with
    | [] => d
    | _ :: rest =>
      let held := if x.state = .armed then x.heldStrobed else []
      let iv := d.strobeInterval n e f
      let d := d.setPlane n { x with
        due := rest, lastFire := some f
        open_ := x.open_ ++ [⟨e.parts, e.count, held⟩]
        state := if x.state = .armed then .running else x.state
        resumed := x.resumed || decide (x.state = .armed)
        resume := if x.state = .armed then none else x.resume
        heldStrobed := if x.state = .armed then [] else x.heldStrobed }
      let d := ((d.portsOf n).filter (fun p => !held.contains p)).foldl
        (fun d p => d.placeStrobe f e.parts iv p) d
      d.lastLines n e.parts

/-! ### Page starts (R68, R213 to R215, R275) -/

/-- R275: a page start during a sweep is counted, the first of them with a notice. -/
def Dev.rejectStart (d : Dev) : Dev :=
  let d := (d.bump Fld.DD_PSREJ.Count).sticky Fld.DD_ERR.PageStartRejected
  if d.dd.rejected then d
  else ({ d with dd := { d.dd with rejected := true } }).notice Nt.PageStartRejected []

/-- R215: the first plane of a channel for which a page start at S is early. -/
def Dev.earlyPlane (d : Dev) (c : Nat) (s : Int) : Option Nat :=
  (d.planesOn' c).find? (fun n =>
    match (d.plane n).runs.getLast? with
    | none => false
    | some r =>
      posLe (threshold s (d.pitch n) (d.planeOffset n)) (d.runThreshold n r (d.planeOffset n + r.length - 1)))

/-- R68, R76: the page that a page-start event on a channel begins. -/
def Dev.startable (d : Dev) (c : Nat) : Option Page :=
  match d.unbegun c with
  | [] => none
  | p :: _ =>
    let before := (d.job.pages.takeWhile (fun q => q.key != p.key)).getLast?
    match before with
    | none => some p
    | some q => if q.endsDry && d.leadBusy then none else some p

/-- R40: entries formed for counts at or beyond a new page's first event are formed anew with it. -/
def Dev.reform (d : Dev) (n : Nat) (first : Int) : Dev :=
  let x := d.plane n
  let stay := fun (e : Entry) => e.test.isSome || posBelow e.count first ||
    x.due.any (fun q => decide (q.parts = e.parts)) || x.open_.any (fun o => decide (o.parts = e.parts)) ||
    decide (x.resume.map (·.1) = some e.parts)
  let gone := ((d.portsOf n).flatMap (fun p => (d.port p).queue.filter (fun e => !stay e))).flatMap (fun e => e.parts)
  let d := d.keepEntries n stay
  d.setPlane n { x with runs := x.runs.map (fun r =>
    { r with formed := (gone.filter (fun q => q.1 == r.page)).foldl (fun a q => min a q.2) r.formed }) }

/-- R118, R148: the print record streams of a page that begins. -/
def Dev.startRecords (d : Dev) (p : Page) : Dev :=
  let subs := d.subscribers 3
  if p.printRecord ∧ p.begun = false ∧ subs ≠ [] then
    d.modPage p.key (fun q => { q with records :=
      (d.planesOn.filter (fun n => p.planeMask.toNat.testBit n)).map (fun n => ⟨n, 0, [], 0, false, false, false, subs⟩) })
  else d

/-- A page begins on a plane. -/
def Dev.beginOn (d : Dev) (p : Page) (s : Int) (n : Nat) : Dev :=
  let first := threshold s (d.pitch n) (d.planeOffset n)
  let d := d.reform n first
  let x := d.plane n
  let d := d.setPlane n { x with
    runs := x.runs ++ [⟨p.key, s, p.length, 0, d.planeOffset n, none, none⟩]
    state := if x.state = .idle ∨ x.state = .abandoned then .running else x.state }
  let d := if d.isKeeper && d.pair.resynced then { d with pair := { d.pair with begun := d.pair.begun ||| bit8 n } } else d
  if p.planeMask.toNat.testBit n ∧ (vgetD p.tables n (0, 0)).2 = 0 then (d.flag p.key 1).flag p.key 11 else d

/-- R68, R72: a page begins on a channel at S. -/
def Dev.beginPage (d : Dev) (c : Nat) (s : Int) (p : Page) : Dev :=
  let d := d.startRecords p
  let d := d.modPage p.key (fun q => { q with
    started := vmodN q.started c (fun _ => true)
    startTime := match q.startTime with
      | some t => some t
      | none => some d.now })
  let d := if d.leading.map d.channelOf = some c then
      (d.setJob (fun j => { j with dry := false })).wr Fld.JOB_CURPAGE.PageId p.pageId.toNat
    else d
  (d.planesOn' c).foldl (fun d n => d.beginOn p s n) d

/-- R68, R215: an accepted page-start event on channel `c` at S. -/
def Dev.startAt (d : Dev) (c : Fin 4) (s : Int) : Dev :=
  let d := d.setsAtPageStart
  if d.planesOn' c.val = [] then d
  else
    match d.earlyPlane c.val s with
    | some n =>
      ((d.bump Fld.LT_EARLYCNT.Count).sticky Fld.LT_ERR.EarlyStart).notice Nt.EarlyStart
        [(1, c.val), (8, patternOf 64 s), (1, n)]
    | none =>
      match d.startable c.val with
      | none => d.bump Fld.JOB_MISSCNT.Count
      | some p =>
        let d := d.tellKeeper (.pageStart c (BitVec.ofInt 48 s) d.now)
        (d.endGrants).beginPage c.val s p

/-- R213, R275, R320: a page-start event of the device's own sources. -/
def Dev.pageStartEvent (d : Dev) (c : Fin 4) (s : Int) : Dev :=
  if d.dd.running then d.rejectStart
  else if d.isKeeper then d
  else d.startAt c (wrap48 s)

end Sys2Proof.Machine
end

