-- ==== Sys2Proof/Machine/Channels.lean ====
section
/-!
DEFINITION. Position channels and probes (R199 to R214): counting, high-water mark and reversals, double transitions,
SSI frames, index latches, probe latches, speed reports with SPEED_WARN and the overspeed source (R212, R220, R221), and
the channel commands of LT_CHCTRLc.
-/
namespace Sys2Proof.Machine

/-- LT_CHCFGc.Mode. -/
def Dev.mode (d : Dev) (c : Fin 4) : Nat := d.rd (Fld.LT_CHCFG.Mode c.val)

/-! ### The speed report (R212) -/

/-- LT_SPEEDc and the bits of LT_CHSTATc that follow it. -/
def Dev.showSpeed (d : Dev) (c : Fin 4) (still settling : Bool) (count : Int) : Dev :=
  let b := fun (x : Bool) => if x then 1 else 0
  let d := (d.wr (Fld.LT_SPEED.Still c.val) (b still)).wr (Fld.LT_SPEED.Settling c.val) (b settling)
  let d := d.wr (Fld.LT_SPEED.Count c.val) (patternOf 24 (clampInt (-8388608) 8388607 count))
  let d := (d.wr (Fld.LT_CHSTAT.Still c.val) (b still)).wr (Fld.LT_CHSTAT.Settling c.val) (b settling)
  d.setChan c { d.chan c with still := still, settling := settling }

/-- A window starts from a count (R212, R221). -/
def Dev.startWindow (d : Dev) (c : Fin 4) (from_ : Int) : Dev :=
  d.setChan c { d.chan c with windowStart := from_, windowAfterAbandon := true }

/-- R212: the window restarts at the first count after standstill or at a reversal, which is the window's first: it starts
from the count before. -/
def Dev.restartWindow (d : Dev) (c : Fin 4) (before : Int) : Dev := (d.showSpeed c false true 0).startWindow c before

/-- R220: a running plane exceeds the SPEED_WARN rate. -/
def Dev.warnRate (d : Dev) : Bool := d.planesOn.any (fun n => decide ((d.plane n).state = .running) && d.aboveWarn n)

/-- R220: SPEED_WARN follows the rate; WarnSeen is set when it rises. -/
def Dev.judgeWarn (d : Dev) : Dev :=
  let w := d.warnRate
  let d := if w && !d.lt.speedWarn then d.sticky Fld.LT_ERR.WarnSeen else d
  { d with lt := { d.lt with speedWarn := w } }

/-- R221: the overspeed source is released. -/
def Dev.releaseOverspeed (d : Dev) (may : Bool) : Dev :=
  if d.lt.overspeed && may && !(d.planesOn.any d.aboveWarn) then { d with lt := { d.lt with overspeed := false } } else d

/-- R212: a speed window ends. -/
def Dev.speedWindowEnd (d : Dev) (c : Fin 4) : Dev :=
  let x := d.chan c
  if x.still then d
  else
    let d := (d.showSpeed c false false (wrap48 (x.pos - x.windowStart))).startWindow c x.pos
    d.judgeWarn.releaseOverspeed x.windowAfterAbandon

/-- R221: every channel that times an enabled plane reports Still. -/
def Dev.allStill (d : Dev) : Bool := d.planesOn.all (fun n => (d.chan (Fin.ofNat 4 (d.channelOf n))).still)

/-- R212: no count has changed for LT_STILLc.Timeout. -/
def Dev.stillTimeout (d : Dev) (c : Fin 4) : Dev :=
  let d := d.showSpeed c true false 0
  d.judgeWarn.releaseOverspeed d.allStill

/-! ### Counting (R207, R209) -/

/-- R209: the high-water mark and the reversals at a new count; the result says whether one was recorded.  After a
reversal back to forward the next one is judged from the highest count since. -/
def Channel.marks (x : Channel) (hyst : Nat) : Channel × Bool :=
  let x := if posBelow x.hwm x.pos then { x with hwm := x.pos } else x
  if x.reverse then
    if posBelow x.pos x.mark then ({ x with mark := x.pos }, false)
    else if (hyst : Int) < wrap48 (x.pos - x.mark) then ({ x with reverse := false, mark := x.pos, idxReversed := true }, true)
    else (x, false)
  else if posBelow x.mark x.pos then ({ x with mark := x.pos }, false)
  else if (hyst : Int) < wrap48 (x.mark - x.pos) then ({ x with reverse := true, mark := x.pos, idxReversed := true }, true)
  else (x, false)

/-- R211: a recorded reversal ends every measurement of the channel's planes. -/
def Dev.forgetCrossings (d : Dev) (c : Fin 4) : Dev :=
  (d.planesOn' c.val).foldl (fun d n =>
    let x := d.plane n
    d.setPlane n { x with runs := x.runs.map (fun r => { r with cross := none }) }) d

/-- A counter moves to a new count, which the counting edge gave at `ns`: marks, speed window, line events, and what a
stop waits for (R209 to R212, R224, R225). -/
def Dev.moveChannel (d : Dev) (c : Fin 4) (pos : Int) (ns : Nat) : Dev :=
  let old := (d.chan c).pos
  let d := { d with lt := { d.lt with ns := max d.lt.ns ns } }
  if pos = old then d
  else
    let wasStill := (d.chan c).still
    let d := if wasStill then d.restartWindow c old else d
    let m := ({ d.chan c with pos := pos } : Channel).marks (d.rd (Fld.LT_SPDCFG.Hyst c.val))
    let d := d.setChan c m.1
    let d := if m.2 then
        ((d.wr (Fld.LT_CHSTAT.Reverse c.val) (if m.1.reverse then 1 else 0)).restartWindow c old).forgetCrossings c
      else d
    let d := if posBelow old pos then (d.planesOn' c.val).foldl (Dev.crossPlane · old pos ns false) d else d
    d.rearm

/-- The counter steps by whole counts (R207). -/
def Dev.count (d : Dev) (c : Fin 4) (by_ : Int) (ns : Nat) : Dev := d.moveChannel c (wrap48 ((d.chan c).pos + by_)) ns

/-! ### Double transitions and bad frames (R201, R204) -/

/-- R201: one more of them; more than Limit within Window ms make the channel faulty. -/
def Dev.faultMark (d : Dev) (c : Fin 4) (ns : Nat) : Dev :=
  let d := { d with lt := { d.lt with ns := max d.lt.ns ns } }
  let w := d.rd (Fld.LT_DT.Window c.val) * 1000000
  let l := (d.chan c).doubles.filter (fun t => decide (ns < t + w)) ++ [ns]
  let d := d.setChan c { d.chan c with doubles := l }
  if d.rd (Fld.LT_DT.Limit c.val) < l.length then d.channelFault c else d

/-- R201: a double transition leaves the count. -/
def Dev.doubleTransition (d : Dev) (c : Fin 4) (ns : Nat) : Dev :=
  ((d.bump (Fld.LT_DTCNT.Count c.val)).sticky (Fld.LT_CHSTAT.Double c.val)).faultMark c ns

/-- A count of one, reversed by Invert. -/
def Dev.unit (d : Dev) (c : Fin 4) (up : Bool) : Int :=
  if xor up (decide (d.rd (Fld.LT_CHCFG.Invert c.val) = 1)) then 1 else -1

/-- R200: accepted levels of A and B. -/
def Dev.quadratureEdge (d : Dev) (c : Fin 4) (a b : Bool) (ns : Nat) : Dev :=
  let x := d.chan c
  let d := d.setChan c { x with a := a, b := b }
  if d.mode c ≠ 1 then d
  else if a ≠ x.a ∧ b ≠ x.b then d.doubleTransition c ns
  else if a = x.a ∧ b = x.b then d
  else
    let swap := decide (d.rd (Fld.LT_CHCFG.Swap c.val) = 1)
    let up := if swap then xor b x.a else xor a x.b
    d.count c (d.unit c up) ns

/-- R202: an accepted STEP edge, with DIR of the sample before it and whether DIR changed with it. -/
def Dev.stepEdge (d : Dev) (c : Fin 4) (rising dir changed : Bool) (ns : Nat) : Dev :=
  if d.mode c ≠ 2 ∨ rising = decide (d.rd (Fld.LT_CHCFG.StepEdge c.val) = 1) then d
  else if changed then d.doubleTransition c ns
  else d.count c (d.unit c dir) ns

/-! ### SSI (R203, R204) -/

/-- The binary of a Gray code word of at most 48 bits. -/
def grayBinary (w : Nat) : Nat := (List.range 48).foldl (fun a i => a ^^^ (w >>> (i + 1))) w

/-- The channel's SSI side changed. -/
def Dev.setSsi (d : Dev) (c : Fin 4) (f : SsiSt → SsiSt) : Dev :=
  d.setChan c { d.chan c with ssi := f (d.chan c).ssi }

/-- R309: the device clocks its SSI channels; in a pair only the striker does. -/
def Dev.clocksSsi (d : Dev) : Bool := !d.pair.mode || decide (d.pair.role = .striker)

/-- R203, R309: a frame starts; the sensor latches at this edge. A keeper samples the striker's clock. -/
def Dev.ssiFrameStart (d : Dev) (c : Fin 4) (ns : Nat) : Dev :=
  if d.mode c ≠ 3 then d
  else
    let d := d.setSsi c (fun s => { s with startNs := ns, dropped := false })
    if d.clocksSsi then d.emit (.ssiClock c.val (d.rd (Fld.LT_SSI.Bits c.val))) else d

/-- R204: the counter is loaded with the first good word. -/
def Dev.ssiLoad (d : Dev) (c : Fin 4) (w : Nat) : Dev :=
  let x := d.chan c
  d.setChan c { x with
    pos := wrap48 w, hwm := wrap48 w, mark := wrap48 w, windowStart := x.windowStart + (w - x.pos)
    ssi := { x.ssi with loaded := true, word := w, latchNs := x.ssi.startNs, pos := wrap48 w, step := none } }

/-- R204, R309: a received frame. -/
def Dev.ssiFrame (d : Dev) (c : Fin 4) (raw : Nat) (startHigh stopLow : Bool) (ns : Nat) : Dev :=
  if d.mode c ≠ 3 ∨ (d.chan c).ssi.dropped = true then d
  else if !startHigh || !stopLow then (d.sticky (Fld.LT_CHSTAT.FrameErr c.val)).faultMark c ns
  else
    let bits := d.rd (Fld.LT_SSI.Bits c.val)
    let w := raw % 2 ^ bits
    let w := if d.rd (Fld.LT_SSI.Gray c.val) = 1 then grayBinary w else w
    let s := (d.chan c).ssi
    if s.loaded then
      let diff := signedOf bits (patternOf bits ((w : Int) - s.word))
      let p := wrap48 (s.pos + diff)
      let d := d.setSsi c (fun s => { s with
        word := w, pos := p, step := some (diff, s.startNs - s.latchNs), latchNs := s.startNs, advancing := true })
      d.moveChannel c p ns
    else d.ssiLoad c w

/-- R204: between frames the counter advances at the speed of the last two good frames, in whole counts, for at most one
Period. -/
def Dev.ssiCountAdvance (d : Dev) (c : Fin 4) (ns : Nat) : Dev :=
  let s := (d.chan c).ssi
  match s.step with
  | none => d
  | some (diff, t) =>
    if d.mode c ≠ 3 ∨ s.advancing = false ∨ t = 0 ∨ d.rd (Fld.LT_SSIPOLL.Period c.val) * 10 < ns - s.latchNs then d
    else d.moveChannel c (wrap48 (s.pos + Int.tdiv (diff * ((ns - s.latchNs : Nat) : Int)) t)) ns

/-- R204: one Period has passed without a good frame. -/
def Dev.ssiHoldExpiry (d : Dev) (c : Fin 4) : Dev := d.setSsi c (fun s => { s with advancing := false })

/-! ### Index and probes (R205, R208, R214) -/

/-- R208: an edge of Z. -/
def Dev.indexLatch (d : Dev) (c : Fin 4) (rising : Bool) : Dev :=
  let x := d.chan c
  if (d.mode c ≠ 1 ∧ d.mode c ≠ 2) ∨ rising = decide (d.rd (Fld.LT_CHCFG.ZPol c.val) = 1) then d
  else
    let same := x.idxSeen && !x.idxReversed && decide (x.idxDir = x.reverse)
    let dist := (wrap48 (x.pos - x.idx)).natAbs
    let d := d.setChan c { x with idx := x.pos, idxSeen := true, idxReversed := false, idxDir := x.reverse }
    if !same then d
    else
      let d := d.wr (Fld.LT_IDXDIST.Distance c.val) (min 0xFFFFFFFF dist)
      let cpr := d.rd (Fld.LT_CPR.Cpr c.val)
      if 0 < cpr ∧ d.rd (Fld.LT_CPR.Tolerance c.val) < ((dist : Int) - cpr).natAbs then
        (d.sticky (Fld.LT_CHSTAT.Drift c.val)).notice Nt.Drift [(1, c.val), (4, min 0xFFFFFFFF dist)]
      else d

/-- R205: the edges a probe latches. -/
def probeTakes (sel : Nat) (rising : Bool) : Bool :=
  match sel with
  | 1 => rising
  | 2 => !rising
  | 3 => true
  | _ => false

/-- R214: the latch is not a page-start event. -/
def Dev.probeRejects (d : Dev) (k : Fin 4) (c : Fin 4) (latch : Int) : Bool :=
  let behind := wrap48 ((d.chan c).hwm - latch)
  let gap := d.rd (Fld.LT_PRBGAP.MinGap k.val)
  let near := match d.lt.probes[k].lastStart with
    | some s => let x := wrap48 (latch - s); decide (0 ≤ x ∧ x ≤ (gap : Int) ∧ gap ≠ 0)
    | none => false
  decide ((d.rd (Fld.LT_SPDCFG.Hyst c.val) : Int) < behind) || near

/-- A probe's state set. -/
def Dev.setProbe (d : Dev) (k : Fin 4) (x : Probe) : Dev :=
  { d with lt := { d.lt with probes := d.lt.probes.set k.val x k.isLt } }

/-- R205, R213, R214: an edge on PROBEk. -/
def Dev.probeLatch (d : Dev) (k : Fin 4) (rising : Bool) : Dev :=
  if probeTakes (d.rd (Fld.LT_PRBCFG.Edge k.val)) rising then
    let c : Fin 4 := Fin.ofNat 4 (d.rd (Fld.LT_PRBCFG.Channel k.val))
    let latch := (d.chan c).pos
    let x := d.lt.probes[k]
    let d := (d.setProbe k { x with latch := latch }).bump (Fld.LT_PRBCNT.Count k.val)
    if d.rd (Fld.LT_PRBCFG.PageStart k.val) = 0 then d
    else if d.probeRejects k c latch then d.bump (Fld.LT_PRBREJ.Count k.val)
    else if d.dd.running || d.isKeeper then d.pageStartEvent c latch
    else
      let d := d.setProbe k ⟨latch, some latch⟩
      d.pageStartEvent c (latch + signedOf 32 (d.rd (Fld.LT_PRBOFF.StartOffset k.val)))
  else d

/-! ### LT_CHCTRLc and LT_CHCFGc (R199, R207) -/

/-- R207: the counter loaded from LT_POSSETc. -/
def Dev.setPos (d : Dev) (c : Fin 4) : Dev :=
  if d.channelBusy c.val then d.sticky Fld.LT_ERR.CfgBusy
  else
    let v := d.rd (Fld.LT_POSSETLO.SetLo c.val) + 2 ^ 32 * d.rd (Fld.LT_POSSETHI.SetHi c.val)
    let p := signedOf 48 v
    let x := d.chan c
    (d.setChan c { x with
      pos := p, hwm := p, mark := p, reverse := false, windowStart := wrap48 (x.windowStart + (p - x.pos))
      ssi := { x.ssi with pos := wrap48 (x.ssi.pos + (p - x.pos)) } }).wr (Fld.LT_CHSTAT.Reverse c.val) 0

/-- R213: a write of PageStart: S is the counter. -/
def Dev.pageStart (d : Dev) (c : Fin 4) : Dev := d.pageStartEvent c (d.chan c).pos

/-- R199, R204, R209: LT_CHCFGc changed its mode from `was`. -/
def Dev.modeChanged (d : Dev) (c : Fin 4) (was : Nat) : Dev :=
  let now := d.mode c
  if now = was then d
  else
    let x := d.chan c
    let x := if was = 0 then { x with hwm := x.pos, mark := x.pos, reverse := false } else x
    let x := if now = 3 then { x with ssi := ⟨false, 0, 0, 0, none, 0, false, false⟩ } else x
    (d.setChan c x).wr (Fld.LT_CHSTAT.Reverse c.val) (if x.reverse then 1 else 0)

/-- R207: a read of LT_POSLOc gives the low bits and captures the high ones. -/
def Dev.posloRead (d : Dev) (c : Fin 4) : Dev :=
  d.wr (Fld.LT_POSHI.PosHi c.val) (patternOf 48 (d.chan c).pos / 2 ^ 32)

/-- LT_PSTATEn.State (Table 43). -/
def PlaneState.code : PlaneState → Nat
  | .idle => 0
  | .running => 1
  | .abandoned => 2
  | .stopped => 3
  | .armed => 4

end Sys2Proof.Machine
end

