-- ==== Sys2Proof/Machine/Motion.lean ====
section
/-!
DEFINITION. Motion axes (R280 to R300): profiles and their planning, the commanded position, the regulator, the load
angle, limits, commands by axis state, homing, lifts and standstill.  What an axis event does to a sweep is in Axes.lean.
-/
namespace Sys2Proof.Machine

/-! ### State and registers -/

/-- One axis. -/
def Dev.axis (d : Dev) (a : Fin 8) : AxisSt := d.mot.axes[a]

/-- One axis set. -/
def Dev.setAxis (d : Dev) (a : Fin 8) (x : AxisSt) : Dev :=
  { d with mot := { d.mot with axes := d.mot.axes.set a.val x a.isLt } }

/-- MOT_STATa.State. -/
def AxisState.code : AxisState → Nat
  | .disabled => 0
  | .rest => 1
  | .standstill => 2
  | .moving => 3
  | .stopping => 4
  | .homing => 5

/-- The commanded position. -/
def Dev.axisPos (d : Dev) (a : Fin 8) : Int := signedOf 32 (d.rd (Fld.MOT_POS.Position a.val))

/-- MOT_POSa written; it wraps (R288). -/
def Dev.setAxisPos (d : Dev) (a : Fin 8) (p : Int) : Dev := d.wr (Fld.MOT_POS.Position a.val) (patternOf 32 p)

/-- The velocity MOT_VELa shows. -/
def Dev.axisVel (d : Dev) (a : Fin 8) : Int := signedOf 32 (d.rd (Fld.MOT_VEL.Velocity a.val))

/-- MOT_VELa written. -/
def Dev.setAxisVel (d : Dev) (a : Fin 8) (v : Int) : Dev := d.wr (Fld.MOT_VEL.Velocity a.val) (patternOf 32 v)

/-- MOT_STATa follows the axis. -/
def Dev.showAxis (d : Dev) (a : Fin 8) : Dev :=
  let x := d.axis a
  ((d.wr (Fld.MOT_STAT.State a.val) x.state.code).wr (Fld.MOT_STAT.Homed a.val) (if x.homed then 1 else 0)).wr
    (Fld.MOT_STAT.OwnerLost a.val) (if x.ownerLost then 1 else 0)

/-- R283: the device owns the axis; a single device owns every axis. -/
def Dev.ownsAxis (d : Dev) (a : Fin 8) : Bool :=
  !d.pair.mode || decide (d.rd (Fld.MOT_AXCFG.Owner a.val) = d.devNum)

/-- The four words that the owner reports (R283). -/
def Dev.axisWords (d : Dev) (a : Fin 8) : List Word :=
  [d.reg (Adr.MOT_POS a.val), d.reg (Adr.MOT_VEL a.val), d.reg (Adr.MOT_LOAD a.val), d.reg (Adr.MOT_STAT a.val)]

/-- R283: the owner reports a change of its status to its partner. -/
def Dev.reportAxis (before d : Dev) (a : Fin 8) : Dev :=
  if d.inPair && d.ownsAxis a && decide (before.axisWords a ≠ d.axisWords a) then
    d.emit (.pair (.axisStatus a.val (d.reg (Adr.MOT_POS a.val)) (d.reg (Adr.MOT_VEL a.val))
      (d.reg (Adr.MOT_LOAD a.val)) (d.reg (Adr.MOT_STAT a.val))))
  else d

/-! ### Sines and angles -/

/-- sin of an angle in units of 1/2^40 rad, in units of 1/2^40. -/
def sinFix (x : Int) : Int := sinSeries 20 0 (Int.fdiv (x * x) sinScale) x

/-- A quarter turn in units of 1/2^40 rad. -/
def quarterTurn : Int := 1727108826179

/-- sin(m × 90° / 512). -/
def sin512 (m : Nat) : Int := sinFix (Int.fdiv ((m : Int) * quarterTurn) 512)

/-- The number of half-step marks at or below the angle of (a, b) in the first quadrant, by bisection in `lo`..`hi`: the
angle in 1/1,024 turn, rounded to the nearest. -/
def quadrantAngle (a b : Int) : Nat → Nat → Nat → Nat
  | 0, lo, _ => lo
  | f + 1, lo, hi =>
    if hi ≤ lo then lo
    else
      let m := (lo + hi + 1) / 2
      if b * sin512 (2 * m - 1) ≤ a * sin512 (513 - 2 * m) then quadrantAngle a b f m hi else quadrantAngle a b f lo (m - 1)

/-- R287, R295: atan2(a, b) in 1/1,024 turn, 0 to 1,023; `z` where both are 0. -/
def angle1024 (z : Nat) (a b : Int) : Nat :=
  if a = 0 ∧ b = 0 then z % 1024
  else if 0 ≤ a ∧ 0 < b then quadrantAngle a b 12 0 256 % 1024
  else if 0 < a ∧ b ≤ 0 then (256 + quadrantAngle (-b) a 12 0 256) % 1024
  else if a ≤ 0 ∧ b < 0 then (512 + quadrantAngle (-a) (-b) 12 0 256) % 1024
  else (768 + quadrantAngle b (-a) 12 0 256) % 1024

/-! ### Profiles (R289 to R292) -/

/-- The least `r` with `n ≤ r * r`. -/
def sqrtUp (n : Nat) : Nat := let r := isqrt n; if r * r < n then r + 1 else r

/-- R289: T of a change of speed by `dv`, in ns, rounded up. -/
def rampTime (shape amax jmax dv : Nat) : Nat :=
  let byA := if shape = 0 then ceilDiv (2 * dv * 1000000000) amax else ceilDiv (15 * dv * 1000000000) (8 * amax)
  let byJ := if shape = 0 then sqrtUp (ceilDiv (6283185307179586 * dv) jmax)
    else sqrtUp (ceilDiv (57735 * dv * 100000000000) jmax)
  max byA byJ

/-- The limits in force for an axis: shape, Amax, Jmax, Vmax. -/
structure Limits where
  shape : Nat
  amax : Nat
  jmax : Nat
  vmax : Nat
  deriving DecidableEq, Repr

/-- R289: the limits that a command reads. -/
def Dev.limitsOf (d : Dev) (a : Fin 8) : Limits :=
  ⟨d.rd (Fld.MOT_PROF.Shape a.val), d.rd (Fld.MOT_AMAX.Amax a.val), d.rd (Fld.MOT_JMAX.Jmax a.val),
    d.rd (Fld.MOT_VMAX.Vmax a.val)⟩

/-- T of a change of speed by `dv` under the limits. -/
def Limits.time (l : Limits) (dv : Nat) : Nat := rampTime l.shape l.amax l.jmax dv

/-- Twice the microsteps, in 1/10^9, that ramps from `v` to `vp` and from `vp` to 0 cover. -/
def Limits.cover (l : Limits) (v vp : Nat) : Nat := (v + vp) * l.time (max v vp - min v vp) + vp * l.time vp

/-- The largest speed in `lo`..`hi` whose ramps fit in a distance, by bisection. -/
def Limits.peak (l : Limits) (v dist : Nat) : Nat → Nat → Nat → Nat
  | 0, lo, _ => lo
  | f + 1, lo, hi =>
    if hi ≤ lo then lo
    else
      let m := (lo + hi + 1) / 2
      if l.cover v m ≤ 2 * dist * 1000000000 then l.peak v dist f m hi else l.peak v dist f lo (m - 1)

/-- R290, R291: the parts of a move of `dist` microsteps from speed `v`. -/
def Limits.parts (l : Limits) (v dist : Nat) : List Ramp :=
  let room := 2 * dist * 1000000000
  let vp := if l.cover v l.vmax ≤ room then l.vmax else l.peak v dist 33 (max v 1) (max v (max 1 l.vmax))
  let left := room - l.cover v vp
  [⟨v, vp, l.time (max v vp - min v vp)⟩, ⟨vp, vp, ceilDiv left (2 * vp)⟩, ⟨vp, 0, l.time vp⟩]

/-- R291: the stopping distance from speed `v`, in microsteps, rounded up. -/
def Limits.stopping (l : Limits) (v : Nat) : Nat := ceilDiv (v * l.time v) 2000000000

/-- A whole number of microsteps below a distance, and whether a fraction is left. -/
structure Travel where
  whole : Nat
  rest : Bool
  deriving DecidableEq, Repr

/-- The distance of a finished part, twice and in 1/10^9 microstep. -/
def Ramp.cover (r : Ramp) : Nat := (r.v0 + r.v1) * r.t

/-- R289, Table 56: twice the distance in 1/10^9 microstep covered `x` ns into a part, rounded down. -/
def Ramp.coverAt (shape : Nat) (r : Ramp) (x : Nat) : Int :=
  let dv : Int := (r.v1 : Int) - r.v0
  if r.t ≤ x then r.cover
  else if shape = 0 then
    let s : Int := Int.fdiv (x * sinScale) r.t
    let half := sinFix (Int.fdiv (2 * quarterTurn * s) sinScale)
    let sq := Int.fdiv (half * half) sinScale
    let g := Int.fdiv (s * s) sinScale - Int.fdiv (sq * sinScale * sinScale) (quarterTurn * quarterTurn * 4)
    2 * r.v0 * x + Int.fdiv (dv * r.t * g) sinScale
  else
    2 * r.v0 * x + Int.fdiv (dv * (5 * (x : Int) ^ 4 * (r.t : Int) ^ 2 - 6 * (x : Int) ^ 5 * r.t + 2 * (x : Int) ^ 6))
      ((r.t : Int) ^ 5)

/-- Table 56: the speed `x` ns into a part, rounded down. -/
def Ramp.speedAt (shape : Nat) (r : Ramp) (x : Nat) : Int :=
  let dv : Int := (r.v1 : Int) - r.v0
  if r.t ≤ x then r.v1
  else if shape = 0 then
    let s : Int := Int.fdiv (x * sinScale) r.t
    let ang := Int.fdiv (2 * quarterTurn * s) sinScale
    let sc := Int.fdiv (2 * sinFix ang * sinFix (quarterTurn - ang)) sinScale
    r.v0 + Int.fdiv (dv * (s - Int.fdiv (sc * sinScale) (4 * quarterTurn))) sinScale
  else
    r.v0 + Int.fdiv (dv * (10 * (x : Int) ^ 3 * (r.t : Int) ^ 2 - 15 * (x : Int) ^ 4 * r.t + 6 * (x : Int) ^ 5))
      ((r.t : Int) ^ 5)

/-- Twice the distance covered `x` ns into a list of parts, and the speed there. -/
def rampsAt (shape : Nat) : List Ramp → Nat → Int × Int
  | [], _ => (0, 0)
  | r :: rs, x =>
    if x < r.t then (r.coverAt shape x, r.speedAt shape x)
    else let y := rampsAt shape rs (x - r.t); (r.cover + y.1, y.2)

/-- How long a plan lasts. -/
def Plan.total (p : Plan) : Nat := p.ramps.foldl (fun a r => a + r.t) 0

/-- A plan has run its time. -/
def Plan.ended (p : Plan) : Bool := decide (p.total ≤ p.elapsed)

/-- The commanded position and velocity of a plan at its elapsed time; `up` says whether a fraction is rounded up, which the
spec leaves open between the ends of a move.  A move ends exactly on its target (R290). -/
def Plan.now (p : Plan) (roundUp : Bool) : Int × Int :=
  let y := rampsAt p.shape p.ramps p.elapsed
  let q := Int.fdiv y.1 2000000000
  let frac := decide (q * 2000000000 ≠ y.1)
  let go := (if frac && roundUp then q + 1 else q).toNat
  let go := match p.reach with
    | some n => if p.ended then n else min go n
    | none => go
  let v : Int := if p.ended then 0 else y.2
  if p.up then (p.start + go, v) else (p.start - go, -v)

/-! ### Limits (R293, R294) -/

/-- LIMk is active. -/
def Dev.limitActive (d : Dev) (k : Nat) : Bool :=
  decide (k < 16) && decide (d.mot.limits.toNat.testBit k = (d.rd Fld.MOT_LIMPOL.Polarity).testBit k)

/-- The input that guards the end of an axis in a direction. -/
def Dev.limitInputOf (d : Dev) (a : Fin 8) (up : Bool) : Nat :=
  if up then d.rd (Fld.MOT_AXCFG.LimHi a.val) else d.rd (Fld.MOT_AXCFG.LimLo a.val)

/-- A move in a direction runs towards an active limit, or both limits are active. -/
def Dev.limitRefuses (d : Dev) (a : Fin 8) (up : Bool) : Bool := d.limitActive (d.limitInputOf a up)

/-- Both limits of an axis are active. -/
def Dev.bothLimits (d : Dev) (a : Fin 8) : Bool := d.limitRefuses a true && d.limitRefuses a false

/-! ### Coming to rest -/

/-- R299: the axis comes to rest; with StandTime 0 it enters standstill at once. -/
def Dev.toRest (d : Dev) (a : Fin 8) : Dev :=
  let x := d.axis a
  let s : AxisState := if d.rd (Fld.MOT_STAND.StandTime a.val) = 0 then .standstill else .rest
  ((d.setAxisVel a 0).setAxis a { x with
    state := s, plan := none, waiting := false, backing := false, deltas := [], overshoot := 0 }).showAxis a

/-- R294, R296: the axis stops at once; its position is held and is referenced no longer. -/
def Dev.haltAxis (d : Dev) (a : Fin 8) : Dev :=
  let x := d.axis a
  ((d.setAxisVel a 0).setAxis a { x with
    state := .rest, plan := none, waiting := false, backing := false, homed := false, deltas := [], overshoot := 0 }).showAxis a

/-- The coils are energised: the integrators restart (R285). -/
def AxisSt.energised (x : AxisSt) : AxisSt := { x with accA := 0, accB := 0, dutyA := 0, dutyB := 0 }

/-- R299: at standstill in mode 1 or 2 the coils are off. -/
def Dev.coilsOff (d : Dev) (a : Fin 8) : Bool :=
  let x := d.axis a
  decide (x.state = .disabled) ||
    (decide (x.state = .standstill) && decide (d.rd (Fld.MOT_STAND.StandMode a.val) ≠ 0))

/-! ### Moves -/

/-- A plan set in a state; from coils that are off the ramp waits 2 ms after energising (R288). -/
def Dev.beginPlan (d : Dev) (a : Fin 8) (s : AxisState) (p : Plan) : Dev :=
  let off := d.coilsOff a
  let x := d.axis a
  let x := if off then x.energised else x
  (d.setAxis a { x with state := s, plan := some p, waiting := off, deltas := [], overshoot := 0 }).showAxis a

/-- The wrapped distance to a target. -/
def Dev.toTarget (d : Dev) (a : Fin 8) (target : Int) : Int := signedOf 32 (patternOf 32 (target - d.axisPos a))

/-- R290: a move from rest. -/
def Dev.moveFromRest (d : Dev) (a : Fin 8) (target : Int) : Dev :=
  let dist := d.toTarget a target
  if dist = 0 then d.toRest a
  else
    d.beginPlan a .moving
      ⟨(d.limitsOf a).shape, d.axisPos a, decide (0 < dist), (d.limitsOf a).parts 0 dist.natAbs, some dist.natAbs, 0, none⟩

/-- R291: a Move while moving. -/
def Dev.retarget (d : Dev) (a : Fin 8) (target : Int) : Dev :=
  let x := d.axis a
  match x.plan with
  | none => d.moveFromRest a target
  | some p =>
    let v := (d.axisVel a).natAbs
    let dist := d.toTarget a target
    let ahead := if p.up then dist else -dist
    let l := d.limitsOf a
    let q : Plan :=
      if (l.stopping v : Int) < ahead then ⟨l.shape, d.axisPos a, p.up, l.parts v ahead.toNat, some ahead.toNat, 0, none⟩
      else ⟨l.shape, d.axisPos a, p.up, [⟨v, 0, l.time v⟩], none, 0, some target⟩
    (d.setAxis a { x with plan := some q }).showAxis a

/-- R292: the axis ramps to rest. -/
def Dev.rampToRest (d : Dev) (a : Fin 8) : Dev :=
  let x := d.axis a
  let v := (d.axisVel a).natAbs
  let up := match x.plan with
    | some p => p.up
    | none => true
  (d.setAxis a { x with
    state := .stopping, waiting := false, backing := false
    plan := some ⟨(d.limitsOf a).shape, d.axisPos a, up, [⟨v, 0, (d.limitsOf a).time v⟩], none, 0, none⟩ }).showAxis a

/-- R288: a refused command. -/
def Dev.refuseMove (d : Dev) (f : Option FieldRef) : Dev :=
  let d := d.sticky Fld.MOT_ERR.Refused
  match f with
  | some g => d.sticky g
  | none => d

/-- R298: the interlock of a lift. -/
def Dev.interlocked (d : Dev) (a : Fin 8) : Bool :=
  let n := d.rd (Fld.MOT_AXCFG.LiftPlane a.val)
  decide (d.rd (Fld.MOT_AXCFG.Role a.val) = 1) && decide (d.rd (Fld.MOT_AXCFG.Interlock a.val) = 1) &&
    (!d.planeIdle n || !(d.raster n).stag.isEmpty)

/-- Table 55: a Move, GoPrint or GoService to a target. -/
def Dev.moveTo (d : Dev) (a : Fin 8) (target : Int) : Dev :=
  let x := d.axis a
  let up := decide (0 < d.toTarget a target)
  if x.state = .disabled ∨ x.state = .stopping ∨ x.state = .homing then d.refuseMove none
  else if d.interlocked a then d.refuseMove (some Fld.MOT_ERR.LiftBusy)
  else if d.bothLimits a || (decide (d.toTarget a target ≠ 0) && d.limitRefuses a up) then
    d.refuseMove (some Fld.MOT_ERR.LimitRefused)
  else if x.state = .moving then d.retarget a target
  else d.moveFromRest a target

/-- R298: GoPrint and GoService. -/
def Dev.goTo (d : Dev) (a : Fin 8) (target : Int) : Dev :=
  if (d.axis a).state ≠ .disabled ∧ (d.axis a).homed = false then d.refuseMove (some Fld.MOT_ERR.NotHomed)
  else d.moveTo a target

/-- MOT_LIFTPa. -/
def Dev.printPos (d : Dev) (a : Fin 8) : Int := signedOf 32 (d.rd (Fld.MOT_LIFTP.PrintPos a.val))

/-- MOT_LIFTSa. -/
def Dev.servicePos (d : Dev) (a : Fin 8) : Int := signedOf 32 (d.rd (Fld.MOT_LIFTS.ServicePos a.val))

/-- Table 55: Stop. -/
def Dev.stopAxis (d : Dev) (a : Fin 8) : Dev :=
  match (d.axis a).state with
  | .moving => d.rampToRest a
  | .homing => d.rampToRest a
  | _ => d

/-- Table 55: Disable. -/
def Dev.disableAxis (d : Dev) (a : Fin 8) : Dev :=
  let x := d.axis a
  let still := decide (x.state = .rest) || decide (x.state = .standstill)
  if x.state = .disabled then d
  else
    ((d.setAxisVel a 0).setAxis a { x.energised with
      state := .disabled, homed := x.homed && still, plan := none, waiting := false, backing := false
      deltas := [], overshoot := 0 }).showAxis a

/-- Table 55: Enable. -/
def Dev.enableAxis (d : Dev) (a : Fin 8) : Dev :=
  let x := d.axis a
  if x.state = .disabled then (d.setAxis a { x.energised with state := .rest }).showAxis a else d

/-! ### Homing (R297) -/

/-- R297: homing fails. -/
def Dev.homeFail (d : Dev) (a : Fin 8) : Dev :=
  let d := (d.sticky (Fld.MOT_STAT.HomeFail a.val)).sticky Fld.MOT_ERR.HomeFail
  d.notice Nt.HomeFail [(1, a.val)]

/-- R297: the axis has come to rest HomeBackoff from its home. -/
def Dev.homeDone (d : Dev) (a : Fin 8) : Dev :=
  let d := d.setAxisPos a (signedOf 32 (d.rd (Fld.MOT_HOMEP.HomePos a.val)))
  (d.setAxis a { d.axis a with homed := true }).toRest a

/-- R297: the home is found: the axis stops and backs off. -/
def Dev.homeFound (d : Dev) (a : Fin 8) : Dev :=
  let up := decide (d.rd (Fld.MOT_HOME.HomeDir a.val) = 1)
  let n := d.rd (Fld.MOT_HOMEB.HomeBackoff a.val)
  let d := d.setAxisVel a 0
  if n = 0 then d.homeDone a
  else
    let x := d.axis a
    (d.setAxis a { x with
      state := .homing, backing := true, waiting := false, deltas := [], overshoot := 0
      plan := some ⟨(d.limitsOf a).shape, d.axisPos a, !up, (d.limitsOf a).parts 0 n, some n, 0, none⟩ }).showAxis a

/-- R297: the speed of the search. -/
def Dev.homeSpeed (d : Dev) (a : Fin 8) : Nat :=
  let v := d.rd (Fld.MOT_HOMEV.HomeVel a.val)
  if d.rd (Fld.MOT_HOME.HomeMode a.val) = 0 then max v (d.rd (Fld.MOT_STALLV.StallMinVel a.val)) else v

/-- Table 55, R297: Home. -/
def Dev.homeAxis (d : Dev) (a : Fin 8) : Dev :=
  let x := d.axis a
  if x.state ≠ .rest ∧ x.state ≠ .standstill then d.refuseMove none
  else if d.interlocked a then d.refuseMove (some Fld.MOT_ERR.LiftBusy)
  else if d.bothLimits a then d.refuseMove (some Fld.MOT_ERR.LimitRefused)
  else
    let mode := d.rd (Fld.MOT_HOME.HomeMode a.val)
    let up := decide (d.rd (Fld.MOT_HOME.HomeDir a.val) = 1)
    let d := (d.setAxis a { x with homed := false }).showAxis a
    if mode = 0 ∧ d.rd (Fld.MOT_STALL.StallAngle a.val) = 0 then d.homeFail a
    else if mode = 1 ∧ d.limitRefuses a up = true then d.homeFound a
    else
      let v := d.homeSpeed a
      d.beginPlan a .homing
        ⟨(d.limitsOf a).shape, d.axisPos a, up, [⟨0, v, (d.limitsOf a).time v⟩, ⟨v, v, ceilDiv (2 ^ 33 * 1000000000) (max v 1)⟩], none, 0, none⟩

/-! ### The regulator (R285 to R287) -/

/-- W(u) of an axis, with W(256) taken as 4,095. -/
def Dev.microstep (d : Dev) (a : Fin 8) (u : Nat) : Nat :=
  if 256 ≤ u then 4095
  else if u % 2 = 0 then d.rd (Fld.MOT_USTEP.EntryEven a.val (u / 2))
  else d.rd (Fld.MOT_USTEP.EntryOdd a.val (u / 2))

/-- Table 54: the two phases' table values with their signs at a commanded position. -/
def Dev.phases (d : Dev) (a : Fin 8) (pos : Int) : Int × Int :=
  let e := patternOf 10 pos
  let u := e % 256
  let w : Int := d.microstep a u
  let c : Int := d.microstep a (256 - u)
  match e / 256 with
  | 0 => (w, c)
  | 1 => (c, -w)
  | 2 => (-w, -c)
  | _ => (-c, w)

/-- R286: the amplitude of the present state, in mA. -/
def Dev.amplitude (d : Dev) (a : Fin 8) : Nat :=
  let x := d.axis a
  match x.state with
  | .homing => if x.backing then d.rd (Fld.MOT_CUR.RunCurrent a.val) else d.rd (Fld.MOT_HOME.HomeCurrent a.val)
  | .standstill => d.rd (Fld.MOT_CUR.HoldCurrent a.val)
  | _ => d.rd (Fld.MOT_CUR.RunCurrent a.val)

/-- R286: iref for a table value. -/
def Dev.iref (d : Dev) (a : Fin 8) (w : Int) : Int :=
  let n := roundDiv (d.amplitude a * 1000 * w.natAbs) (d.rd (Fld.MOT_SENSE.CurScale a.val) * 4095)
  let n : Int := min 2047 n
  if w < 0 then -n else n

/-- R285: one period of a phase's regulator: the new integrator and duty. -/
def Dev.regulate (d : Dev) (a : Fin 8) (iref imeas acc : Int) : Int × Int :=
  let e := iref - imeas
  let acc := clampInt (-261888) 261888 (acc + d.rd (Fld.MOT_PI.Ki a.val) * e)
  (acc, clampInt (-1023) 1023 (Int.fdiv (d.rd (Fld.MOT_PI.Kp a.val) * e + acc) 256))

/-- The PWM period in ns. -/
def Dev.pwmNs (d : Dev) (a : Fin 8) : Nat := 1000000 / d.rd (Fld.MOT_PWM.PwmFreq a.val)

/-- Table 53: the two phases' on-times in ns of the next period, positive for 1/0: an on-time or off-time below 100 ns is
omitted. -/
def onTime (period : Nat) (duty : Int) : Int :=
  let on := duty.natAbs * period / 1024
  let on := if on < 100 then 0 else if period - on < 100 then period else on
  if duty < 0 then -(on : Int) else on

/-! ### The load angle (R295, R296) -/

/-- R295: a phase's back-EMF, in 1/1,000 µV × ns, from voltage and current counts. -/
def Dev.emf (d : Dev) (a : Fin 8) (v i iprev : Int) : Int :=
  let p : Int := d.pwmNs a
  let vs : Int := d.rd (Fld.MOT_SENSE.VoltScale a.val)
  let cs : Int := d.rd (Fld.MOT_SENSE.CurScale a.val)
  v * vs * 1000 * p - d.rd (Fld.MOT_MOTOR.Resistance a.val) * (i * cs) * p -
    d.rd (Fld.MOT_MOTOR.Inductance a.val) * ((i - iprev) * cs) * 1000000

/-- R295: the load angle of this period. -/
def Dev.loadAngle (d : Dev) (a : Fin 8) (up : Bool) (ia ib va vb : Int) : Int :=
  let x := d.axis a
  let ph := d.phases a (d.axisPos a)
  let phic : Int := angle1024 (Config.zeroAngle d.free) ph.1 ph.2
  let phie : Int := angle1024 (Config.zeroAngle (d.free + 1)) (d.emf a va ia x.ia) (d.emf a vb ib x.ib)
  let diff := if up then phic - phie else phie - phic
  (patternOf 10 diff : Int) - 256

/-- A sum of whole numbers. -/
def sumInt (l : List Int) : Int := l.foldl (· + ·) 0

/-- R295, R296: the averaged load angle, and whether a stall is declared. -/
def Dev.judgeLoad (d : Dev) (a : Fin 8) (delta : Int) : Dev × Bool :=
  let x := d.axis a
  let n := d.rd (Fld.MOT_STALL.StallFilt a.val)
  let l := (x.deltas ++ [delta]).drop ((x.deltas.length + 1) - n)
  let avg := Int.fdiv (sumInt l) (max l.length 1)
  let limit := d.rd (Fld.MOT_STALL.StallAngle a.val)
  let fast := decide (d.rd (Fld.MOT_STALLV.StallMinVel a.val) ≤ (d.axisVel a).natAbs)
  let n := if fast && decide (limit ≠ 0) && decide ((limit : Int) < avg) then x.overshoot + 1 else 0
  let d := (d.wr (Fld.MOT_LOAD.Delta a.val) (patternOf 16 avg)).setAxis a { x with deltas := l, overshoot := n }
  (d, decide (d.rd (Fld.MOT_STALL.StallCount a.val) ≤ n))

/-- R288: the 2 ms after energising have passed. -/
def Dev.energiseDelay (d : Dev) (a : Fin 8) : Dev :=
  let x := d.axis a
  if x.waiting then d.setAxis a { x with waiting := false } else d

/-- R299: StandTime at rest has passed. -/
def Dev.standstill (d : Dev) (a : Fin 8) : Dev :=
  let x := d.axis a
  if x.state = .rest then (d.setAxis a { x with state := .standstill }).showAxis a else d

/-! ### ADC calibration (R301) -/

/-- R301: CAL_ADCCTRL.Start. -/
def Dev.adcCalStart (d : Dev) : Dev :=
  let mask := d.rd Fld.CAL_ADCCTRL.Mask
  if d.mot.calRun.isSome then d
  else if (List.range 8).any (fun a => mask.testBit a && !d.coilsOff (Fin.ofNat 8 a)) then
    d.wr Fld.CAL_ADCSTAT.Refused 1
  else
    let d := { d with mot := { d.mot with calRun := some (BitVec.ofNat 8 mask) } }
    ((d.wr Fld.CAL_ADCSTAT.Refused 0).wr Fld.CAL_ADCSTAT.VcalMissing 0).wr Fld.CAL_ADCSTAT.Busy 1

/-- R301, R302: the run completes. -/
def Dev.adcCalDone (d : Dev) (vcal : Bool) (results : List AdcResult) : Dev :=
  match d.mot.calRun with
  | none => d
  | some mask =>
    let m := mask.toNat
    let pass := maskOf 8 (fun a => m.testBit a && vcal && results.any (fun r => r.axis.val == a && r.pass))
    let d := d.wr Fld.CAL_ADCDONE.Done (d.rd Fld.CAL_ADCDONE.Done ||| m)
    let d := d.wr Fld.CAL_ADCPASS.Pass ((d.rd Fld.CAL_ADCPASS.Pass &&& (255 - m)) ||| pass)
    let d := if vcal then d else d.wr Fld.CAL_ADCSTAT.VcalMissing 1
    let d := { d with
      mot := { d.mot with calRun := none }
      jnl := { d.jnl with queue := d.jnl.queue ++ [JnlChange.calibration] } }
    d.wr Fld.CAL_ADCSTAT.Busy 0

end Sys2Proof.Machine
end

