-- ==== Sys2Proof/Machine/Sweep.lean ====
section
/-!
DEFINITION. Drop detection (R263 to R278): sweeps and their segments, the test pacer, gate pulses, verdicts, and the end of
a gate's sweep.
-/
namespace Sys2Proof.Machine

/-- A gate. -/
def Dev.gate (d : Dev) (g : Fin 4) : GateSt := d.dd.gates[g]

/-- A gate set. -/
def Dev.setGate (d : Dev) (g : Fin 4) (x : GateSt) : Dev :=
  { d with dd := { d.dd with gates := d.dd.gates.set g.val x g.isLt } }

/-- The gate is in the sweep. -/
def GateSt.active (x : GateSt) : Bool := decide (x.phase ≠ .idle) && decide (x.phase ≠ .ended)

/-- R278: the stoker sheds drop-detection scheduling (Table 110). -/
def Dev.shedsSweeps (d : Dev) : Bool := decide (3 ≤ d.boot.level)

/-- The carriage axis of a gate. -/
def Dev.carriage (d : Dev) (g : Fin 4) : Fin 8 := Fin.ofNat 8 (d.rd (Fld.DD_GATECFG.Axis g.val))

/-- The lift axis of a gate, where the stoker moves it. -/
def Dev.liftOf (d : Dev) (g : Fin 4) : Option (Fin 8) :=
  if d.rd (Fld.DD_GATECFG.LiftEn g.val) = 1 then some (Fin.ofNat 8 (d.rd (Fld.DD_GATECFG.LiftAxis g.val))) else none

/-! ### Segments (R265) -/

/-- The nozzles of a plane in a range that print columns `c0` to `c0` + `cols` − 1, ascending; none in state 3. -/
def Dev.segment (d : Dev) (n first last c0 cols : Nat) : List Nat :=
  ((d.portsOf n).zipIdx).flatMap (fun e =>
    let s := d.startCol n e.2
    let lo := c0 - s
    let hi := min (d.headLen n) (c0 + cols - s)
    ((List.range (hi - lo)).map (fun i => nozzleNo e.1 (lo + i))).filter (fun z =>
      decide (first ≤ z ∧ z ≤ last)))

/-- The first segment at or after a column that holds a nozzle of the range, over at most `fuel` segments. -/
def Dev.findSegment (d : Dev) (n first last cols : Nat) : Nat → Nat → Option Nat
  | 0, _ => none
  | f + 1, c0 =>
    if d.width n ≤ c0 then none
    else if (d.segment n first last c0 cols).isEmpty then d.findSegment n first last cols f (c0 + cols)
    else some c0

/-- The next segment of a gate from a column on. -/
def Dev.nextSegment (d : Dev) (x : GateSt) (c0 : Nat) : Option Nat :=
  let cols := d.rd Fld.DD_FIELD.Columns
  d.findSegment x.plane x.first x.last cols (d.width x.plane / max cols 1 + 1) c0

/-- R265: the carriage target of a segment. -/
def Dev.segmentTarget (d : Dev) (g : Fin 4) (c0 : Nat) : Int :=
  signedOf 32 (d.rd (Fld.DD_ORIGIN.Origin g.val)) +
    ((c0 + d.rd Fld.DD_FIELD.Columns / 2) * d.rd (Fld.DD_SPC.StepsPerColumn g.val) / 65536 : Nat)

/-! ### The end of a gate's sweep and of the sweep -/

/-- The test lines waiting in the ports of a plane go (R276). -/
def Dev.dropTests (d : Dev) (n : Nat) : Dev := d.keepEntries n (fun e => e.test.isNone)

/-- The sweep ends with its last gate. -/
def Dev.endSweep (d : Dev) : Dev :=
  if d.dd.running && d.dd.gates.toList.all (fun x => !x.active) && !d.dd.held then
    { d with dd := { d.dd with running := false, stopping := false, gates := d.dd.gates.map (fun x => { x with phase := .idle }) } }
  else d

/-- A gate's sweep ends: its lift returns to the print position, and at a Stop its carriage to Origin (R266, R276). -/
def Dev.endGate (d : Dev) (g : Fin 4) : Dev :=
  let x := d.gate g
  let d := (d.dropTests x.plane).setGate g { x with phase := .ended, todo := [], shots := [] }
  let d := d.wr (Fld.DD_PROG.Active g.val) 0
  let d := match d.liftOf g with
    | some a => d.moveTo a (d.printPos a)
    | none => d
  let d := if d.dd.stopping then d.moveTo (d.carriage g) (signedOf 32 (d.rd (Fld.DD_ORIGIN.Origin g.val))) else d
  d.endSweep

/-- R276: a fault of an axis, or a move it refuses, ends the gate's sweep. -/
def Dev.gateAxisFault (d : Dev) (g : Fin 4) (a : Fin 8) : Dev :=
  ((d.sticky Fld.DD_ERR.CarriageFault).notice Nt.CarriageFault [(1, g.val), (1, a.val)]).endGate g

/-- The stoker moves an axis for a gate; a refused move ends the gate's sweep. -/
def Dev.gateMove (d : Dev) (g : Fin 4) (a : Fin 8) (target : Int) (phase done : GatePhase) : Dev :=
  let cleared := d.wr Fld.MOT_ERR.Refused 0
  let e := cleared.moveTo a target
  if e.rd Fld.MOT_ERR.Refused = 1 then e.gateAxisFault g a
  else
    let e := if d.rd Fld.MOT_ERR.Refused = 1 then e.wr Fld.MOT_ERR.Refused 1 else e
    let at_ := (e.axis a).state ≠ .moving
    e.setGate g { e.gate g with phase := if at_ then done else phase }

/-- R265: the carriage moves to the segment that begins at a column, or the gate's sweep is over. -/
def Dev.toSegment (d : Dev) (g : Fin 4) (c0 : Nat) : Dev :=
  let x := d.gate g
  if d.dd.stopping then d.endGate g
  else if d.shedsSweeps then d.setGate g { x with phase := .waiting, column := c0 }
  else
    match d.nextSegment x c0 with
    | none => d.endGate g
    | some c =>
      let ns := (d.segment x.plane x.first x.last c (d.rd Fld.DD_FIELD.Columns)).filter (fun z =>
        decide (d.pendingState z ≠ 3#2))
      let d := d.setGate g { x with column := c, nozzles := ns, todo := ns, shots := [], strays := 0, retry := false }
      d.gateMove g (d.carriage g) (d.segmentTarget g c) .moving .settling

/-! ### Starting (R267, R270, R274) -/

/-- R267: a gate of the mask does nothing: its plane is disabled or its range holds no nozzle of the plane. -/
def Dev.gateEmpty (d : Dev) (g : Fin 4) : Bool :=
  let n := d.rd (Fld.DD_GATECFG.Plane g.val)
  let first := d.rd (Fld.DD_FIRST.Nozzle g.val)
  let last := d.rd (Fld.DD_LAST.Nozzle g.val)
  !d.enabled n || !((d.portsOf n).any (fun p =>
    decide (first ≤ nozzleNo p (d.headLen n - 1) ∧ nozzleNo p 0 ≤ last ∧ first ≤ last)))

/-- The gates of a mask, ascending. -/
def gatesOf (mask : Nat) : List (Fin 4) := ([0, 1, 2, 3] : List (Fin 4)).filter (fun g => mask.testBit g.val)

/-- R267: a lower gate of the mask names the same plane. -/
def Dev.gateClash (d : Dev) (mask : Nat) (g : Fin 4) : Bool :=
  (gatesOf mask).any (fun h => decide (h.val < g.val) &&
    decide (d.rd (Fld.DD_GATECFG.Plane h.val) = d.rd (Fld.DD_GATECFG.Plane g.val)))

/-- R270: the pacer's period raised for the sweep's gates, and Shots of 0 clamped; WinEnd above WinStart (R271). -/
def Dev.paceFor (d : Dev) (gs : List (Fin 4)) : Dev :=
  let d := gs.foldl (fun d g =>
    let s := d.rd (Fld.DD_WIN.WinStart g.val)
    if d.rd (Fld.DD_WIN.WinEnd g.val) ≤ s then d.wr (Fld.DD_WIN.WinEnd g.val) (min 65535 (s + 1)) else d) d
  let least := gs.foldl (fun a g => max a (d.rd (Fld.DD_WIN.WinEnd g.val) + 11)) 100
  let d := d.wr Fld.DD_PACER.Period (min 65535 (max least (d.rd Fld.DD_PACER.Period)))
  if d.rd Fld.DD_PACER.Shots = 0 then d.wr Fld.DD_PACER.Shots 1 else d

/-- R265, R266: a gate begins its sweep, with its lift where the stoker moves one. -/
def Dev.beginGate (d : Dev) (g : Fin 4) : Dev :=
  let n := d.rd (Fld.DD_GATECFG.Plane g.val)
  let d := d.setGate g ⟨.moving, n, d.rd (Fld.DD_FIRST.Nozzle g.val), d.rd (Fld.DD_LAST.Nozzle g.val), 0, [], [], [], 0, false⟩
  let d := d.wr (Fld.DD_PROG.Active g.val) 1
  match d.liftOf g with
  | none => d.toSegment g 0
  | some a =>
    let d := d.gateMove g a (d.servicePos a) .lifting .settling
    if (d.gate g).phase = .settling then d.toSegment g 0 else d

/-- The gates of a mask begin, those that have nothing to do ending at once (R267). -/
def Dev.beginGates (d : Dev) (mask : Nat) : Dev :=
  let d := if (gatesOf mask).any (d.gateClash mask) then d.sticky Fld.DD_ERR.GateConflict else d
  let gs := (gatesOf mask).filter (fun g => !d.gateClash mask g && !d.gateEmpty g)
  (gs.foldl Dev.beginGate (d.paceFor gs)).endSweep

/-- R274: a sweep cannot start. -/
def Dev.sweepRefused (d : Dev) : Bool :=
  d.pageInFlight || (List.range 8).any (fun n => !(d.raster n).stag.isEmpty) || d.dd.running || d.isKeeper

/-- R274, R278: a write of Start; during the stoker's shedding it is accepted and waits. -/
def Dev.ddStart (d : Dev) : Dev :=
  if d.sweepRefused then d.sticky Fld.DD_ERR.Refused
  else
    let d := { d with dd := { d.dd with running := true, stopping := false, rejected := false } }
    if d.shedsSweeps then { d with dd := { d.dd with held := true } } else d.beginGates (d.rd Fld.DD_CTRL.GateMask)

/-- R278: the load is relieved: a waiting Start begins and waiting gates go on. -/
def Dev.resumeSweep (d : Dev) : Dev :=
  if d.shedsSweeps then d
  else
    let d := if d.dd.held then ({ d with dd := { d.dd with held := false } }).beginGates (d.rd Fld.DD_CTRL.GateMask) else d
    ([0, 1, 2, 3] : List (Fin 4)).foldl (fun d g =>
      if (d.gate g).phase = .waiting then d.toSegment g (d.gate g).column else d) d

/-- R277: an automatic sweep of every enabled gate: one whose plane is enabled. -/
def Dev.sweepSchedule (d : Dev) : Dev :=
  let idle := decide (d.job.seq = .idle) || (d.job.dry && d.allIdle)
  if d.rd Fld.DD_SCHED.Interval = 0 ∨ d.shedsSweeps = true ∨ idle = false ∨ d.sweepRefused = true then d
  else
    let d := d.notice Nt.SweepStart []
    let d := { d with dd := { d.dd with running := true, stopping := false, rejected := false } }
    d.beginGates (maskOf 4 (fun g => !d.gateEmpty (Fin.ofNat 4 g)))

/-- R276: a write of Stop: a gate whose nozzle has been fired goes on to its verdict; every other ends at once. -/
def Dev.ddStop (d : Dev) : Dev :=
  if !d.dd.running then d
  else
    let d := { d with dd := { d.dd with stopping := true, held := false } }
    (([0, 1, 2, 3] : List (Fin 4)).foldl (fun d g =>
      let x := d.gate g
      if x.active && x.shots.isEmpty then d.endGate g else d) d).endSweep

/-- R333: a handoff ends the sweep. -/
def Dev.abandonSweep (d : Dev) : Dev :=
  if !d.dd.running then d
  else
    let d := { d with dd := { d.dd with stopping := true, held := false } }
    (([0, 1, 2, 3] : List (Fin 4)).foldl (fun d g => if (d.gate g).active then d.endGate g else d) d).endSweep

/-! ### Firing (R268, R269) -/

/-- R268: the code of a test shot on a plane. -/
def Dev.testLevel (d : Dev) (n : Nat) : Nat :=
  min (max 1 (d.rd Fld.DD_PACER.TestLevel)) (2 ^ d.codeBits n - 1)

/-- R268: a test line written into every port of the plane. -/
def Dev.writeTest (d : Dev) (n z : Nat) : Dev :=
  (d.portsOf n).foldl (fun d p =>
    let codes := (List.range (d.headLen n)).map (fun j => if nozzleNo p j = z then d.testLevel n else 0)
    let x := d.port p
    if 4 ≤ x.queue.length then d
    else d.setPort p { x with queue := x.queue ++ [⟨n, [], 0, codes, d.lineCheck n codes, some z⟩] }) d

/-- R176: the test firing of a nozzle begins: host writes before it count no longer. -/
def Dev.beginTest (d : Dev) (z : Nat) : Dev :=
  { d with ras := { d.ras with hostWrites := delNat z d.ras.hostWrites } }

/-- R265: the gate's settle time is over and its segment's firing starts. -/
def Dev.carriageSettled (d : Dev) (g : Fin 4) : Dev :=
  let x := d.gate g
  if x.phase ≠ .settling then d
  else
    match x.todo with
    | [] => d.toSegment g (x.column + d.rd Fld.DD_FIELD.Columns)
    | z :: _ =>
      ((d.setGate g { x with phase := .firing }).wr (Fld.DD_PROG.Nozzle g.val) z).writeTest x.plane z

/-- R269: the test line of nozzle `z` is complete on every port of its plane. -/
def Dev.testReady (d : Dev) (n z : Nat) : Bool :=
  (d.portsOf n).all (fun p =>
    let x := d.port p
    d.portDriven p && decide (x.shift = .done) && match x.queue with
      | e :: _ => decide (e.test = some z)
      | [] => false)

/-- R268: one gate at a tick: LAT rises 30 ns after it, and the next test line is formed. -/
def Dev.gateTick (d : Dev) (ns : Nat) (g : Fin 4) : Dev :=
  let x := d.gate g
  match x.phase, x.todo with
  | .firing, z :: more =>
    let shots := d.rd Fld.DD_PACER.Shots
    if shots ≤ x.shots.length ∨ d.testReady x.plane z = false then d
    else
      let d := if x.shots.isEmpty then d.beginTest z else d
      let d := (d.portsOf x.plane).foldl Dev.latPulse d
      let d := d.setGate g { x with shots := x.shots ++ [⟨ns + 30, none⟩] }
      if x.shots.length + 1 < shots then d.writeTest x.plane z
      else
        match more with
        | y :: _ => if d.dd.stopping then d else d.writeTest x.plane y
        | [] => d
  | _, _ => d

/-- R268: a tick of the test pacer. -/
def Dev.pacerTick (d : Dev) (ns : Nat) : Dev := ([0, 1, 2, 3] : List (Fin 4)).foldl (fun d g => d.gateTick ns g) d

/-! ### Pulses and verdicts (R271 to R273) -/

/-- A pulse in the window of a shot: the first is its hit. -/
def hitShot (start stop ns : Nat) : List TestShot → Option (List TestShot)
  | [] => none
  | s :: l =>
    if s.lat + start * 1000 ≤ ns ∧ ns < s.lat + stop * 1000 then
      some ((match s.hit with
        | some _ => s
        | none => { s with hit := some (ns - s.lat) }) :: l)
    else (hitShot start stop ns l).map (s :: ·)

/-- R271: too many stray pulses: the segment is fired once more, or the gate's sweep ends; a sweep that stops fires nothing
more (R276). -/
def Dev.noisy (d : Dev) (g : Fin 4) : Dev :=
  let x := d.gate g
  if x.retry then
    let seg := x.column / max 1 (d.rd Fld.DD_FIELD.Columns)
    ((d.sticky Fld.DD_ERR.GateNoise).notice Nt.GateNoise [(1, g.val), (4, seg)]).endGate g
  else if d.dd.stopping then d
  else
    let d := (d.dropTests x.plane).setGate g { x with retry := true, strays := 0, shots := [], todo := x.nozzles }
    match x.nozzles with
    | z :: _ => (d.wr (Fld.DD_PROG.Nozzle g.val) z).writeTest x.plane z
    | [] => d

/-- R271: an accepted pulse of a gate at `ns`. -/
def Dev.gatePulse (d : Dev) (g : Fin 4) (ns : Nat) : Dev :=
  let x := d.gate g
  match hitShot (d.rd (Fld.DD_WIN.WinStart g.val)) (d.rd (Fld.DD_WIN.WinEnd g.val)) ns x.shots with
  | some l => d.setGate g { x with shots := l }
  | none =>
    let d := d.bump (Fld.DD_STRAY.Count g.val)
    if x.phase = .firing then
      let d := d.setGate g { x with strays := x.strays + 1 }
      if 16 < x.strays + 1 then d.noisy g else d
    else d

/-- R272: the verdict of a nozzle from its shots. -/
def Dev.verdict (d : Dev) (shots : List TestShot) : BitVec 2 :=
  let hits := shots.filterMap (fun s => s.hit)
  let h := hits.length
  let healthyMin := min (d.rd Fld.DD_VERDICT.HealthyMin) (d.rd Fld.DD_PACER.Shots)
  let weakMin := min (d.rd Fld.DD_VERDICT.WeakMin) healthyMin
  let late := d.rd Fld.DD_VERDICT.LateLimit
  let inTime := decide (late = 0) || decide (hits.foldl (· + ·) 0 ≤ late * 1000 * h)
  if healthyMin ≤ h ∧ inTime = true then 0#2 else if weakMin ≤ h then 1#2 else 2#2

/-- R173, R176, R273: the verdict on a nozzle is written to the pending map. -/
def Dev.writeVerdict (d : Dev) (z : Nat) (v : BitVec 2) : Dev :=
  let d := d.bump Fld.DD_TESTED.Count
  if d.ras.hostWrites.contains z then
    ({ d with ras := { d.ras with hostWrites := delNat z d.ras.hostWrites } }.sticky Fld.HT_ERR.StateDiscard).notice
      Nt.StateDiscard [(4, z)]
  else if d.pendingState z = v ∨ d.pendingState z = 3#2 then d
  else
    let d := (d.setNozzleState z v 1).bump Fld.DD_CHANGED.Count
    if d.inPair ∧ d.pair.role = .striker then d.emit (.pair (.verdict z v)) else d

/-- R272: the last window of the nozzle in hand closes. -/
def Dev.windowClose (d : Dev) (g : Fin 4) : Dev :=
  let x := d.gate g
  match x.phase, x.todo with
  | .firing, z :: more =>
    if x.shots.length < d.rd Fld.DD_PACER.Shots then d
    else
      let d := (d.setGate g { x with shots := [], todo := more }).writeVerdict z (d.verdict x.shots)
      if d.dd.stopping then d.endGate g
      else
        match more with
        | y :: _ => d.wr (Fld.DD_PROG.Nozzle g.val) y
        | [] => d.toSegment g (x.column + d.rd Fld.DD_FIELD.Columns)
  | _, _ => d

/-- DD_STATUS.State (Table 52). -/
def Dev.ddState (d : Dev) : Nat :=
  let gs := d.dd.gates.toList
  if !d.dd.running then 0
  else if d.dd.stopping then 4
  else if d.dd.held || (gs.any (fun x => decide (x.phase = .waiting)) &&
      !(gs.any (fun x => decide (x.phase = .firing ∨ x.phase = .moving ∨ x.phase = .settling ∨ x.phase = .lifting)))) then 3
  else if gs.any (fun x => decide (x.phase = .firing)) then 2
  else 1

end Sys2Proof.Machine
end

