-- ==== Sys2Proof/Machine/Axes.lean ====
section
/-!
DEFINITION. The axis events with what they do to a sweep (R276): the PWM period, limit inputs, the completion of moves, and
the commands with their forwarding to an axis's owner (R283).
-/
namespace Sys2Proof.Machine

/-- R276: a stall or limit fault of an axis ends the sweeps of the gates it serves. -/
def Dev.axisFault (d : Dev) (a : Fin 8) : Dev :=
  ([0, 1, 2, 3] : List (Fin 4)).foldl (fun d g =>
    if (d.gate g).active && (decide (d.carriage g = a) || decide (d.liftOf g = some a)) then d.gateAxisFault g a else d) d

/-- R296: a stall outside homing. -/
def Dev.stall (d : Dev) (a : Fin 8) : Dev :=
  let delta := d.rd (Fld.MOT_LOAD.Delta a.val)
  let d := ((d.haltAxis a).sticky (Fld.MOT_STAT.Stall a.val)).sticky Fld.MOT_ERR.Stall
  (d.notice Nt.Stall [(1, a.val), (8, patternOf 64 (d.axisPos a)), (4, patternOf 32 (signedOf 16 delta))]).axisFault a

/-- R285, R286: the axis samples and regulates its currents. -/
def Dev.regulateAxis (d : Dev) (a : Fin 8) (ia ib : Int) : Dev :=
  let x := d.axis a
  if d.coilsOff a then d.setAxis a { x with ia := ia, ib := ib, dutyA := 0, dutyB := 0 }
  else
    let ph := d.phases a (d.axisPos a)
    let ra := d.regulate a (d.iref a ph.1) ia x.accA
    let rb := d.regulate a (d.iref a ph.2) ib x.accB
    d.setAxis a { x with ia := ia, ib := ib, accA := ra.1, dutyA := ra.2, accB := rb.1, dutyB := rb.2 }

/-- R289, R290: the commanded position advances by one period. -/
def Dev.advanceAxis (d : Dev) (a : Fin 8) : Dev :=
  let x := d.axis a
  match x.plan with
  | none => d
  | some p =>
    if x.waiting then d
    else
      let p := { p with elapsed := p.elapsed + d.pwmNs a }
      let y := p.now (Config.profileRound d.free)
      (((d.draw).setAxisPos a y.1).setAxisVel a y.2).setAxis a { x with plan := some p }

/-- R297: the search has gone HomeRange microsteps without a home. -/
def Dev.homeRangeOver (d : Dev) (a : Fin 8) : Bool :=
  let x := d.axis a
  match x.plan with
  | some p => decide (x.state = .homing) && !x.backing &&
      decide (d.rd (Fld.MOT_HOMER.HomeRange a.val) ≤ (signedOf 32 (patternOf 32 (d.axisPos a - p.start))).natAbs)
  | none => false

/-- R285, R289, R295, R296: one PWM period of an axis the device owns; `ia` to `vb` are the ADC readings. -/
def Dev.pwmPeriod (d : Dev) (a : Fin 8) (ia ib va vb : Int) : Dev :=
  if !d.ownsAxis a || !d.domOn 12 then d
  else
    let d0 := d
    let x := d.axis a
    let ia := ia - 2048
    let ib := ib - 2048
    let moving := decide (d.axisVel a ≠ 0) && decide (x.state = .moving ∨ x.state = .stopping ∨ x.state = .homing)
    let up := match x.plan with
      | some p => p.up
      | none => true
    let delta := d.loadAngle a up ia ib (va - 2048) (vb - 2048)
    let d := (d.regulateAxis a ia ib).advanceAxis a
    let d := if moving then { d with free := d.free + 2 } else d
    let d :=
      if moving then
        let j := d.judgeLoad a delta
        if !j.2 then j.1
        else if x.state = .homing then
          (if d.rd (Fld.MOT_HOME.HomeMode a.val) = 0 ∧ x.backing = false then j.1.homeFound a else j.1)
        else j.1.stall a
      else d
    let d := if d.homeRangeOver a then (d.rampToRest a).homeFail a else d
    d0.reportAxis d a

/-- R290, R291, R297: the motion of an axis has ended. -/
def Dev.settleAxis (d : Dev) (a : Fin 8) : Dev :=
  let x := d.axis a
  match x.plan with
  | none => d
  | some p =>
    if !p.ended || x.waiting then d
    else
      let d := match p.reach with
        | some n => d.setAxisPos a (if p.up then p.start + n else p.start - n)
        | none => d
      match p.next with
      | some t => (d.setAxisVel a 0).moveFromRest a t
      | none => if x.backing then d.homeDone a else d.toRest a

/-- R265, R266: an axis at rest lets the gates that waited for it go on. -/
def Dev.gatesAfterMove (d : Dev) (a : Fin 8) : Dev :=
  if (d.axis a).state ≠ .rest ∧ (d.axis a).state ≠ .standstill then d
  else
    ([0, 1, 2, 3] : List (Fin 4)).foldl (fun d g =>
      let x := d.gate g
      if x.phase = .lifting ∧ d.liftOf g = some a then d.toSegment g 0
      else if x.phase = .moving ∧ d.carriage g = a then d.setGate g { x with phase := .settling }
      else d) d

/-- R290: MOVE_COMPLETE. -/
def Dev.moveComplete (d : Dev) (a : Fin 8) : Dev :=
  let e := (d.settleAxis a)
  d.reportAxis (e.gatesAfterMove a) a

/-! ### Limit inputs (R293, R294) -/

/-- R294, R297: the limit that guards the end towards which an axis moves is active. -/
def Dev.limitHit (d : Dev) (a : Fin 8) (k : Nat) : Dev :=
  let x := d.axis a
  if x.state = .homing ∧ x.backing = false ∧ d.rd (Fld.MOT_HOME.HomeMode a.val) = 1 then d.homeFound a
  else
    let d := ((d.haltAxis a).sticky (Fld.MOT_STAT.LimitHit a.val)).sticky Fld.MOT_ERR.LimitHit
    (d.notice Nt.LimitHit [(1, a.val), (1, k)]).axisFault a

/-- One axis after the active limits changed. -/
def Dev.checkLimit (d : Dev) (a : Fin 8) : Dev :=
  let x := d.axis a
  let moving := decide (x.state = .moving ∨ x.state = .stopping ∨ x.state = .homing)
  match x.plan with
  | none => d
  | some p =>
    let k := d.limitInputOf a p.up
    if moving && d.limitActive k && d.ownsAxis a then d.reportAxis (d.limitHit a k) a else d

/-- The eight axes. -/
def axes8 : List (Fin 8) := [0, 1, 2, 3, 4, 5, 6, 7]

/-- R294: inputs that have become active stop the axes moving towards them: `was` is the mask of active inputs before. -/
def Dev.limitsChanged (d : Dev) (was : Nat) : Dev :=
  axes8.foldl (fun d a =>
    match (d.axis a).plan with
    | none => d
    | some p => if was.testBit (d.limitInputOf a p.up) then d else d.checkLimit a) d

/-- MOT_LIMSTAT. -/
def Dev.limitMask (d : Dev) : Nat := maskOf 16 d.limitActive

/-- R293: an accepted level of LIMk. -/
def Dev.limitInput (d : Dev) (k : Fin 16) (level : Bool) : Dev :=
  let was := d.limitMask
  let l := d.mot.limits.toNat
  let cleared := if l.testBit k.val then l - 2 ^ k.val else l
  let d := { d with mot := { d.mot with limits := BitVec.ofNat 16 (if level then cleared + 2 ^ k.val else cleared) } }
  d.limitsChanged was

/-! ### Commands (R283, R288) -/

/-- Table 55: one command on the device that owns the axis. -/
def Dev.axisOp (d : Dev) (a : Fin 8) (op : Nat) : Dev :=
  let e := match op with
    | 1 => d.moveTo a (signedOf 32 (d.rd (Fld.MOT_TGT.Target a.val)))
    | 2 => d.stopAxis a
    | 3 => d.homeAxis a
    | 4 => d.disableAxis a
    | 5 => d.enableAxis a
    | 6 => d.goTo a (d.printPos a)
    | 7 => d.goTo a (d.servicePos a)
    | _ => d
  d.reportAxis e a

/-- R283: a write of MOT_CMDa.Op: performed here by the owner, passed on to it otherwise; refused where it is lost. -/
def Dev.axisCommand (d : Dev) (a : Fin 8) (op : Nat) : Dev :=
  if d.ownsAxis a then d.axisOp a op
  else if op = 0 then d
  else if (d.axis a).ownerLost then d.sticky Fld.MOT_ERR.Refused
  else d.emit (.pair (.axisCommand a.val op))

/-- R283: a command passed on by the partner. -/
def Dev.axisForward (d : Dev) (a : Fin 8) (op : Nat) : Dev := if d.ownsAxis a then d.axisOp a op else d

/-- R283: the owner's report. -/
def Dev.axisReport (d : Dev) (a : Fin 8) (pos vel load stat : Word) : Dev :=
  if d.ownsAxis a then d
  else
    (((d.setReg (Adr.MOT_POS a.val) pos).setReg (Adr.MOT_VEL a.val) vel).setReg (Adr.MOT_LOAD a.val) load).setReg
      (Adr.MOT_STAT a.val) stat

/-- R283: the partner has failed: the axes it owns are lost. -/
def Dev.loseAxes (d : Dev) : Dev :=
  axes8.foldl (fun d a =>
    if d.ownsAxis a then d else (d.setAxis a { d.axis a with ownerLost := true }).wr (Fld.MOT_STAT.OwnerLost a.val) 1) d

/-- R299: the MOTION domain goes ember: every axis enters standstill with its bridges off. -/
def Dev.motionEmber (d : Dev) : Dev :=
  axes8.foldl (fun d a =>
    let x := d.axis a
    if x.state = .disabled then d
    else ((d.setAxis a { x.energised with state := .standstill, plan := none, waiting := false }).setAxisVel a 0).showAxis a) d

/-- R299: the MOTION domain goes cold: every axis is Disabled and not Homed. -/
def Dev.motionCold (d : Dev) : Dev :=
  axes8.foldl (fun d a =>
    let x := d.axis a
    ((d.setAxis a { x.energised with state := .disabled, homed := false, plan := none, waiting := false, backing := false }
      ).setAxisVel a 0).showAxis a) d

end Sys2Proof.Machine
end

