-- ==== Sys2Proof/Machine/Pair.lean ====
section
/-!
DEFINITION. Pair operation (R306 to R342): settling the roles, loss of the partner, taking the head lines, commanded
handoff, fatal faults, the rally and its arbitration, the LAT monitor and the self-test.
-/
namespace Sys2Proof.Machine

/-- The pair's state changed. -/
def Dev.setPair (d : Dev) (f : PairSt → PairSt) : Dev := { d with pair := f d.pair }

/-- PAIR_STATUS.State (Table 70). -/
def PairState.code : PairState → Nat
  | .negotiating => 0
  | .paired => 1
  | .solo => 2
  | .syncing => 3
  | .isolated => 4
  | .suspect => 5
  | .selfTest => 6
  | .failed => 7
  | .yielding => 8

/-- PAIR_STATUS.Role (Table 70), OpenReply.Role (Table 24). -/
def Role.code : Role → Nat
  | .single => 0
  | .striker => 1
  | .keeper => 2

/-- PAIR_STATUS (Table 70). -/
def Dev.pairStatus (d : Dev) : Nat :=
  d.pair.partnerState * 2 ^ 20 + d.pair.state.code * 2 ^ 16 + (if d.pair.strkIn then 2 ^ 9 else 0) +
    (if d.strkOut then 2 ^ 8 else 0) + d.devNum % 2 * 4 + d.pair.role.code

/-- The enabled planes with a page in flight. -/
def Dev.busyPlanes (d : Dev) : List Nat := d.planesOn.filter (fun n => !d.planeIdle n)

/-- R332: the keeper is Ready on every enabled plane with a page in flight. -/
def Dev.readyBusy (d : Dev) : Bool := d.busyPlanes.all (fun n => d.readyMask.toNat.testBit n)

/-! ### Addresses of the pair (R341) -/

/-- An IPv6 address as its four register words hold it, word 0 the highest. -/
def Dev.ip6Of (d : Dev) (f : Nat → FieldRef) : Nat :=
  ((d.rd (f 0) * 2 ^ 32 + d.rd (f 1)) * 2 ^ 32 + d.rd (f 2)) * 2 ^ 32 + d.rd (f 3)

/-- The pair MAC address. -/
def Dev.pairMac (d : Dev) : Nat := d.rd Fld.NET_PMACLO.MacLo + d.rd Fld.NET_PMACHI.MacHi * 2 ^ 32

/-- The four host ports. -/
def hostPorts : List (Fin 4) := [0, 1, 2, 3]

/-- R341, R361: the addresses of the pair announced on one port: a gratuitous ARP and an unsolicited neighbour
advertisement for those it has. -/
def Dev.announcePairOn (d : Dev) (p : Fin 4) : Dev :=
  let mac := BitVec.ofNat 48 d.pairMac
  let v4 := d.rd Fld.NET_PIP4.Addr
  let v6 := d.ip6Of Fld.NET_PIP6.Addr
  let d := if v4 = 0 then d else d.sendFrame p (.announceAddress p mac false v4)
  if v6 = 0 then d else d.sendFrame p (.announceAddress p mac true v6)

/-- R341: the pair address announced on every host port. -/
def Dev.announcePair (d : Dev) : Dev := hostPorts.foldl Dev.announcePairOn d

/-! ### Becoming striker, keeper, Solo or Isolated -/

/-- R233: a fault release or a lost role at port `p`: LAT low, a shift in progress never latched, no echo compare. -/
def Port.released (x : Port) : Port :=
  { x with
    latHigh := false, prev := none, whole := false, compare := none
    shift := .none }

/-- Every head port is released. -/
def Dev.releasePorts (d : Dev) : Dev :=
  { d with hp := { d.hp with ports := d.hp.ports.map Port.released } }

/-- R309: the frame in progress on each SSI channel is discarded, and is neither good nor bad. -/
def Dev.dropFrames (d : Dev) : Dev :=
  { d with lt := { d.lt with channels := d.lt.channels.map (fun x => { x with ssi := { x.ssi with dropped := true } }) } }

/-- The device becomes striker: it drives the lines once STRK_IN is low, and announces the pair address. -/
def Dev.becomeStriker (d : Dev) (st : PairState) : Dev :=
  (d.setPair (fun p => { p with
      role := .striker, state := st, driving := true, takePending := false, handedPorts := [], handoffAt := []
      partnerReady := 0#8, gap := false, lacking := [], dueStreams := [] })).announcePair

/-- R339, R340: what the device knew of continued streams is not carried over a resynchronisation. -/
def Dev.forgetStreams (d : Dev) : Dev := { d with dec := { d.dec with streams := [], heldStreams := [] } }

/-- R339: the device becomes keeper and resynchronises. -/
def Dev.becomeKeeper (d : Dev) : Dev :=
  (d.forgetStreams.releasePorts).setPair (fun p => { p with
    role := .keeper, state := .syncing, driving := false, resynced := false, begun := 0#8, takePending := false
    handedPorts := [], handoffAt := [], copied := 0, gap := true, lacking := [] })

/-- The roles are settled (R437): start-up may go on. -/
def Dev.rolesSettled (d : Dev) : Dev := { d with boot := { d.boot with rolesSettled := true } }

/-- R317: the device becomes Isolated: its ports and STRK_OUT released. -/
def Dev.isolate (d : Dev) : Dev :=
  let abort := decide (d.pair.state = .syncing)
  let d := (d.releasePorts).setPair (fun p => { p with
    role := .keeper, state := .isolated, driving := false, takePending := false, soloChecks := 0, handedPorts := []
    handoffAt := [], validStore := p.resynced || p.validStore && !abort, begun := 0#8 })
  let d := d.sticky Fld.PAIR_ERR.Isolated
  if abort then d.sticky Fld.PAIR_ERR.ResyncAbort else d

/-- R310, R312: the device goes Solo. -/
def Dev.goSolo (d : Dev) : Dev :=
  (d.becomeStriker .solo).setPair (fun p => { p with soloChecks := if d.devNum % 2 = 0 then 2 else 1 })

/-! ### Hellos (R310, R311) -/

/-- The hello this device sends. -/
def Dev.ownHello (d : Dev) : Hello :=
  ⟨d.devNum % 2, d.pair.state.code, d.pair.validStore, d.rd Fld.PAIR_CFG.Prefer, d.rd Fld.PAIR_CFG.JoinWait⟩

/-- R311: a difference of Prefer or JoinWait is reported with both values. -/
def Dev.helloMismatch (d : Dev) (own theirs : Nat) : Dev :=
  if own = theirs then d
  else (d.sticky Fld.PAIR_ERR.CfgMismatch).noticeTrouble Nt.PairConflict [(4, own), (4, theirs)]

/-- Table 62, first two rows: both devices starting; Prefer of device 0 decides. -/
def Dev.settleByPrefer (d : Dev) (h : Hello) : Dev :=
  let prefer := if d.devNum % 2 = 0 then d.rd Fld.PAIR_CFG.Prefer else h.prefer
  if prefer = d.devNum % 2 then d.becomeStriker .paired else d.becomeKeeper

/-- R310: an Isolated device that had not completed its resynchronisation holds no valid pair state: it starts with no page
held, no stream and no copy (log 157). -/
def Dev.emptyJob (d : Dev) : Dev :=
  { d with
    job := { d.job with seq := .idle, target := .none, pages := [], faultAt := none, dry := false }
    dec := { d.dec with planes := Vector.replicate 8 ⟨none, 0, [], []⟩, streams := [], heldStreams := [], pool := [], waits := [] }
    ras := { d.ras with planes := Vector.replicate 8 ⟨none, 0, [], []⟩ }
    lt := { d.lt with planes := Vector.replicate 8 resetPlane }
    hp := { d.hp with ports := d.hp.ports.map (fun x => { x with queue := [], strobes := [], prev := none, lastEv := none }) } }

/-- R310: planes with a page in flight on a device that was Isolated take a data-late stop. -/
def Dev.restartPlanes (d : Dev) : Dev :=
  match d.busyPlanes with
  | [] => d
  | n :: _ => (d.beginStop n 0xFF (0, 0)).rearm

/-- R310: an Isolated device that becomes striker takes the lines once STRK_IN is low. -/
def Dev.strikerFromIsolated (d : Dev) : Dev :=
  let wait := d.pair.strkIn
  let d := (d.becomeStriker .paired).setPair (fun p => { p with driving := !wait, takePending := wait })
  d.restartPlanes

/-- Is the partner, by its hello, starting: negotiating, or Isolated without valid content (R310)? -/
def helloStarting (h : Hello) : Bool := decide (h.state = 0) || (decide (h.state = 4) && !h.storeValid)

/-- R310 to R312: a partner's hello. -/
def Dev.hello (d : Dev) (h : Hello) : Dev :=
  if !d.pair.mode || d.failed || d.pair.locked then d
  else
    let d := d.setPair (fun p => { p with partnerState := h.state })
    if h.number % 2 = d.devNum % 2 then
      ((((d.isolate).setPair (fun p => { p with locked := true })).sticky Fld.PAIR_ERR.DevselConflict).noticeTrouble
        Nt.PairConflict []).rolesSettled
    else
      let d := d.helloMismatch (d.rd Fld.PAIR_CFG.Prefer) h.prefer
      let d := d.helloMismatch (d.rd Fld.PAIR_CFG.JoinWait) h.joinWait
      let d := d.rolesSettled
      match d.pair.state with
      | .negotiating =>
        if helloStarting h then d.settleByPrefer h else d.becomeKeeper
      | .isolated =>
        if helloStarting h then (if d.pair.validStore then d.strikerFromIsolated else d.emptyJob.settleByPrefer h)
        else if h.state = 4 then d
        else d.becomeKeeper
      | .solo => d.setPair (fun p => { p with state := .paired })
      | _ => d

/-- R310: the hello finds an Isolated device that had not completed its resynchronisation, with a starting partner. -/
def Dev.startsEmpty (d : Dev) (h : Hello) : Bool :=
  d.pair.mode && !d.failed && !d.pair.locked && decide (h.number % 2 ≠ d.devNum % 2 ∧ d.pair.state = .isolated) &&
    helloStarting h && !d.pair.validStore

/-- R310: each of two such devices starts with an empty job store: nothing written, nothing poisoned. -/
def Mem.emptied (m : Mem) : Mem := { m with store := [], poison := [] }

/-- R310: JoinWait has passed with no hello. -/
def Dev.joinWaitExpiry (d : Dev) : Dev :=
  if d.pair.mode && decide (d.pair.state = .negotiating) then
    (if d.pair.strkIn then d.isolate else d.goSolo).rolesSettled
  else d

/-- R311: the STRK_IN sample after going Solo. -/
def Dev.soloResample (d : Dev) (level : Bool) : Dev :=
  if d.pair.soloChecks = 0 ∨ d.pair.state ≠ .solo then d
  else if !level then d.setPair (fun p => { p with soloChecks := 0 })
  else if 2 ≤ d.pair.soloChecks then d.setPair (fun p => { p with soloChecks := 1 })
  else d.isolate

/-! ### Taking the head lines (R333, R334) -/

/-- The first event a plane still has to strobe: its number, 0 where none. -/
def Dev.nextStrobe (d : Dev) (n : Nat) : Nat :=
  match d.resumeOf n with
  | some r => (evName r.1).2
  | none => 0

/-- R333: the HandoffDone notice: reason (0 failure, 1 yield, 2 command), old and new device numbers, and each enabled
plane's first event, as far as the Detail holds them. -/
def Dev.handoffNotice (d : Dev) (reason old new : Nat) : Dev :=
  d.notice Nt.HandoffDone
    ([(1, reason), (1, old), (1, new)] ++ (d.planesOn.take 7).map (fun n => (4, d.nextStrobe n)))

/-- The first of some ports, of an enabled plane, with a strobe whose time has passed at the moment of taking. -/
def Dev.passedStrobe (d : Dev) (ports : List Nat) : Option (Nat × Nat × PlacedStrobe) :=
  ports.findSome? (fun p =>
    match d.planeOf p, (d.port p).strobes with
    | some n, s :: _ =>
      if s.at256 ≤ d.lt.ns * 256 ∧ (d.plane n).state = .running then some (n, p, s) else none
    | _, _ => none)

/-- R334: the ports taken: a strobe on one of them whose time has passed starts a data-late stop. -/
def Dev.tookPorts (d : Dev) (ports : List Nat) : Dev :=
  match d.passedStrobe ports with
  | some (n, p, s) => (d.beginStop n p (evName s.parts)).rearm
  | none => d.rearm

/-- R334, R336: the keeper drives every head port, and the ports that it had not taken in a handoff start anew. -/
def Dev.takeLines (d : Dev) (st : PairState) (reason : Nat) : Dev :=
  let ports := (List.range 64).filter (fun p => !d.pair.handedPorts.contains p)
  let d := ports.foldl (fun d p => d.setPort p (d.port p).released) d.abandonSweep.dropFrames
  let d := (d.becomeStriker st).bump Fld.PAIR_HOCNT.Count
  (d.handoffNotice reason (1 - d.devNum % 2) (d.devNum % 2)).tookPorts ports

/-! ### Loss of the partner (R313, R316, R336) -/

/-- R316: PAIR_ERR.PartnerLost, the reports, and the axes the partner owned (R283). -/
def Dev.reportLost (d : Dev) : Dev := ((d.sticky Fld.PAIR_ERR.PartnerLost).noticeTrouble Nt.PartnerLost []).loseAxes

/-- Table 64. -/
def Dev.partnerLost (d : Dev) : Dev :=
  match d.pair.state with
  | .paired | .yielding =>
    let d := d.reportLost
    if d.pair.role = .striker then
      let ports := d.pair.handedPorts
      let d := d.setPair (fun p => { p with
        state := .solo, handedPorts := [], handoffAt := [], mirrors := p.mirrors.map (fun m => { m with left := 0 }) })
      if ports = [] then d else d.tookPorts ports
    else if d.readyBusy || decide (d.pair.state = .yielding) then
      if d.pair.strkIn then d.setPair (fun p => { p with takePending := true }) else d.takeLines .solo 0
    else d.isolate
  | .syncing | .suspect | .selfTest => d.reportLost.isolate
  | _ => d

/-- R313: no valid heartbeat for 24 µs: three periods missed (log 45). -/
def Dev.heartbeatLoss (d : Dev) : Dev :=
  if d.pair.mode then (d.wr Fld.PAIR_HBMISS.Count (d.rd Fld.PAIR_HBMISS.Count + 3)).partnerLost else d

/-- R316: STRK_IN stayed high for 1 ms. -/
def Dev.strkInWaitExpiry (d : Dev) : Dev :=
  if d.pair.takePending && d.isKeeper then d.isolate else d

/-- R307, R316, Table 70: a new accepted level of STRK_IN. -/
def Dev.strkInChange (d : Dev) (level : Bool) : Dev :=
  let d := d.setPair (fun p => { p with strkIn := level })
  if level then
    if d.pair.role = .striker then (d.sticky Fld.PAIR_ERR.StrkConflict).notice Nt.StrkConflict [] else d
  else if d.pair.takePending then
    if d.isKeeper then d.takeLines .solo 0
    else d.setPair (fun p => { p with driving := true, takePending := false })
  else d

/-- R313, R317: a received heartbeat. -/
def Dev.heartbeat (d : Dev) (h : Heartbeat) : Dev :=
  if !d.pair.mode then d
  else
    let d := d.setPair (fun p => { p with
      partnerState := h.state
      partnerReady := if p.role = .striker then h.ready else p.partnerReady })
    match d.pair.state with
    | .isolated => if !d.pair.locked && (h.state == 1 || h.state == 2 || h.state == 8) then d.becomeKeeper else d
    | .solo => if h.state = 3 then d.setPair (fun p => { p with state := .paired }) else d
    | _ => d

/-- R313, R318: the device's own heartbeat, and a striker's time sample with it (log 46). -/
def Dev.heartbeatSend (d : Dev) : Dev :=
  if !d.pair.mode || d.boot.inReset || d.failed then d
  else
    let d := d.emit (.pair (.heartbeat ⟨d.pair.state.code, d.readyMask, BitVec.ofNat 32 (d.rd Fld.PAIR_MISCNT.Count)⟩))
    if d.pair.role = .striker then d.emit (.pair (.time d.now)) else d

/-! ### Fatal faults (R314, R315) -/

/-- R314: the steps of a fatal fault of row `row` of Table 63. -/
def Dev.fatal (d : Dev) (row : Nat) : Dev :=
  let d := (d.releasePorts).setPair (fun p => { p with driving := false, handedPorts := [], takePending := false })
  let d := if d.pair.mode then d.emit (.pair .fatal) else d
  (d.trouble Nt.FatalFault [(1, row)]).setPair (fun p => { p with state := .failed })

/-- A fatal fault detected; the rows of Table 63 count from 1. -/
def Dev.fatalFault (d : Dev) (kind : FatalKind) : Dev := if d.failed ∨ 6 ≤ kind.val then d else d.fatal (kind.val + 1)

/-- R315: the pair guard trips while head-port outputs are driven. -/
def Dev.pairGuard (d : Dev) : Dev :=
  if !d.failed && (List.range 64).any d.portDriven then d.fatal 6 else d

/-- R313: a fatal-fault message of the partner. -/
def Dev.fatalMessage (d : Dev) : Dev :=
  if d.pair.mode then (d.setPair (fun p => { p with partnerState := 7 })).partnerLost else d

/-! ### Suspect and self-test (R330, R331) -/

/-- R330, R331: the keeper becomes Suspect and runs its self-test. -/
def Dev.suspect (d : Dev) : Dev :=
  (d.sticky Fld.PAIR_ERR.Suspect).setPair (fun p => { p with
    state := .selfTest, resynced := false, begun := 0#8, own := [], partner := [], arb := [] })

/-- PAIR_CTRL.SelfTest written: 1 on a keeper (R330). -/
def Dev.selfTest (d : Dev) : Dev :=
  if d.isKeeper && decide (d.pair.state = .paired ∨ d.pair.state = .syncing) then d.suspect else d

/-- R331: the self-test ends. -/
def Dev.selfTestDone (d : Dev) (pass : Bool) : Dev :=
  if d.pair.state ≠ .selfTest then d
  else if pass then d.becomeKeeper
  else (d.sticky Fld.PAIR_ERR.SelfTestFail).fatal 5

/-! ### Commanded handoff (R335, R336) -/

/-- The event of the queue entry a port shifts next, by its count: the head where its shift has not begun. -/
def Port.unbegunEntry (x : Port) : Option Entry :=
  match x.queue with
  | [] => none
  | e :: rest => if x.shift = .none ∨ x.shift = .orphan then some e else rest.head?

/-- The later of two events by count. -/
def laterEv (a b : Int × Nat) : Int × Nat := if posBelow a.1 b.1 then b else a

/-- R335: the lowest event whose shift no port of plane `n` has begun, as its count and number. -/
def Dev.lowestUnbegun (d : Dev) (n : Nat) : Option (Int × Nat) :=
  let next := (d.nextForm n).map (fun f => (f.1, (evName f.2).2))
  (d.portsOf n).foldl (fun acc p =>
    let here := match (d.port p).unbegunEntry with
      | some e => some (e.count, (evName e.parts).2)
      | none => next
    match acc, here with
    | some a, some b => some (laterEv a b)
    | a, none => a
    | none, b => b) none

/-- R335: a plane that is idle, stopped, Armed or abandoned passes at once. -/
def Dev.passesAtOnce (d : Dev) (n : Nat) : Bool := decide ((d.plane n).state ≠ .running)

/-- R335: H_n for each running plane. -/
def Dev.handoffEvents (d : Dev) : List (Nat × Nat) :=
  d.planesOn.filterMap (fun n =>
    if d.passesAtOnce n then none else (d.lowestUnbegun n).map (fun e => (n, e.2 + 1)))

/-- R335: ports of no enabled plane, and those of planes that pass at once. -/
def Dev.portsAtOnce (d : Dev) (at_ : List (Nat × Nat)) : List Nat :=
  allBelow 64 (fun p =>
    match d.planeOf p with
    | none => true
    | some n => !at_.any (fun h => h.1 == n))

/-- Every port has passed. -/
def Dev.allHanded (d : Dev) : Bool := (List.range 64).all (fun p => d.pair.handedPorts.contains p)

/-- R333, R335: the roles swap once every port has passed. -/
def Dev.finishHandoff (d : Dev) : Dev :=
  if d.pair.state ≠ .yielding ∨ d.allHanded = false then d
  else
    let reason := d.pair.handoffReason
    let me := d.devNum % 2
    let d := d.setPair (fun p => { p with handoffReason := 0 })
    if d.isKeeper then
      let d := (d.abandonSweep.dropFrames.becomeStriker .paired).bump Fld.PAIR_HOCNT.Count
      (d.handoffNotice reason (1 - me) me).rearm
    else
      let d := (d.abandonSweep.dropFrames).setPair (fun p => { p with
        role := .keeper, driving := false, handedPorts := [], handoffAt := []
        state := .paired, resynced := true, begun := 0xFF#8, gap := false, lacking := [] })
      let d := (d.bump Fld.PAIR_HOCNT.Count).handoffNotice reason me (1 - me)
      if reason = 1 then d.suspect else d

/-- Some ports pass to the other device: their shifts and compares break off. -/
def Dev.handPorts (d : Dev) (ps : List Nat) : Dev :=
  let d := ps.foldl (fun d p => d.setPort p (d.port p).released) d
  (d.setPair (fun p => { p with handedPorts := ps.foldl (fun l q => insNat q l) p.handedPorts })).finishHandoff

/-- R335: the striker starts a handoff. -/
def Dev.startHandoff (d : Dev) (reason : Nat) : Dev :=
  let at_ := d.handoffEvents
  let d := d.setPair (fun p => { p with state := .yielding, handoffAt := at_, handoffReason := reason, handedPorts := [] })
  let d := d.emit (.pair (.handoff (at_.map (fun e => (Fin.ofNat 8 e.1, e.2)))))
  d.handPorts (d.portsAtOnce at_)

/-- R335: a write of 1 to PAIR_CTRL.Handoff; a keeper passes it to the striker. -/
def Dev.handoff (d : Dev) : Dev :=
  if decide (d.pair.state = .paired) && decide (d.pair.partnerState = 1) && d.readyBusy then
    if d.pair.role = .striker then d.startHandoff 2
    else (d.setPair (fun p => { p with handoffReason := 2 })).emit (.pair (.register Adr.PAIR_CTRL 1#32))
  else d.sticky Fld.PAIR_ERR.HandoffRefused

/-- R335: the keeper acts on the striker's handoff message. -/
def Dev.handoffMessage (d : Dev) (events : List (Fin 8 × Nat)) : Dev :=
  if d.isKeeper && decide (d.pair.state = .paired) then
    let at_ := events.map (fun e => (e.1.val, e.2))
    let reason := if d.pair.handoffReason = 1 then 1 else 2
    let d := d.setPair (fun p => { p with state := .yielding, handoffAt := at_, handoffReason := reason, handedPorts := [] })
    d.handPorts (d.portsAtOnce at_)
  else d

/-- R335: has the LAT pulse before H_n fallen at this port, or has its plane come to rest? -/
def Dev.portPasses (d : Dev) (p : Nat) : Bool :=
  decide (d.pair.state = .yielding) && !d.pair.handedPorts.contains p &&
    match d.planeOf p with
    | some n => d.passesAtOnce n ||
        d.pair.handoffAt.any (fun h => h.1 == n && decide ((d.port p).lastEv.map (· + 1) = some h.2))
    | none => true

/-- LAT fell on a port: in a handoff it may pass. -/
def Dev.latFell (d : Dev) (p : Nat) : Dev :=
  let d := d.latFall p
  if d.portPasses p then d.handPorts [p] else d

/-! ### The LAT monitor (R323) -/

/-- The head entry of port `p` leaves the queue for a pulse of the partner. -/
def Dev.monitorPop (d : Dev) (p : Nat) : Dev :=
  let x := d.port p
  match x.queue with
  | [] => d.setPair (fun q => { q with lateMonitor := q.lateMonitor ++ [p] })
  | e :: rest =>
    let d := d.countPulse p e.codes
    let d := d.setPort p { x with
      queue := rest, n := (x.n + 1) % 2 ^ 32, latHigh := true, compare := x.prev.map (fun q => ((x.n + 1) % 2 ^ 32, q))
      prev := some e, strobes := x.strobes.filter (fun t => decide (t.parts ≠ e.parts))
      lastEv := (e.parts.getLast?).map (·.2) }
    match d.planeOf p with
    | some n => d.markStrobed n p e.parts
    | none => d

/-- R323: an edge of the partner's LAT. -/
def Dev.latMonitorEdge (d : Dev) (p : Nat) (rising : Bool) : Dev :=
  if !d.pair.mode || d.roleDrives p then d
  else if rising then d.monitorPop p
  else d.latFell p

/-- R323: entries formed for pulses the monitor has already counted leave at once. -/
def Dev.settleMonitor (d : Dev) (n : Nat) : Dev :=
  (d.portsOf n).foldl (fun d p =>
    if d.pair.lateMonitor.contains p && !(d.port p).queue.isEmpty then
      (d.setPair (fun q => { q with lateMonitor := q.lateMonitor.erase p })).monitorPop p
    else d) d

/-- R323: a port that has latched an event before this device fired it. -/
def Dev.latchedBefore (d : Dev) (n p : Nat) (parts : List (Nat × Nat)) : Bool :=
  parts.all (fun q => (d.plane n).runs.any (fun r => r.page == q.1 && decide (q.2 < r.formed))) &&
    !(d.port p).queue.any (fun e => decide (e.parts = parts))

/-- A keeper's line event: ports whose pulse the monitor has already counted have strobed it. -/
def Dev.settleFired (d : Dev) (n : Nat) (parts : List (Nat × Nat)) : Dev :=
  (d.portsOf n).foldl (fun d p =>
    if !d.roleDrives p && d.latchedBefore n p parts then
      let x := d.port p
      (d.setPort p { x with strobes := x.strobes.filter (fun t => decide (t.parts ≠ parts)) }).markStrobed n p parts
    else d) d

/-! ### The rally (R325 to R330) -/

/-- R326: may plane `n` rally? -/
def Dev.rallies (d : Dev) (n : Nat) : Bool :=
  decide (d.rd Fld.PAIR_RALLY.Enable = 1) && d.inPair && d.enabled n && d.readyMask.toNat.testBit n && !d.dd.running

/-- R327: evidence against this device for a line. -/
def Dev.hasEvidence (d : Dev) (n e : Nat) : Bool := d.pair.evidence.contains (n, e)

/-- R329: the pages with a row firing at event `e` of the page `id` on plane `n`. -/
def Dev.pagesAt (d : Dev) (n e : Nat) (id : BitVec 32) : List Nat :=
  let runs := (d.plane n).runs
  match runs.find? (fun r => d.pageIdOf r.page == id.toNat) with
  | none => []
  | some r =>
    let c := d.runThreshold n r e
    (runs.filter (fun q =>
      let k := lastEventAt q.start (d.pitch n) c
      decide (0 ≤ k) && d.hasLine n q.length k.toNat && decide (d.runThreshold n q k.toNat = c))).map (fun q => q.page)

/-- The bits of the plane's ports whose values differ. -/
def Dev.differing (d : Dev) (n : Nat) (a b : RallyRec) : Nat :=
  maskOf 64 (fun p => (d.portsOf n).contains p &&
    let i := p - (d.range n).1
    decide (a.lcvs.getD i 0#32 ≠ b.lcvs.getD i 0#32))

/-- R329: a range closes: its registers, the reports and PAIR_ERR. -/
def Dev.closeRange (d : Dev) (r : MisRange) : Dev :=
  let d := d.setPair (fun p => { p with ranges := p.ranges.filter (fun q => q.plane != r.plane) })
  let d := ((d.wr Fld.PAIR_MISFIRST.Plane r.plane).wr Fld.PAIR_MISFIRST.Event r.first).wr Fld.PAIR_MISLAST.Event r.last
  (d.sticky Fld.PAIR_ERR.RallyMismatch).noticeTrouble Nt.RallyMismatch
    ([(1, r.plane), (4, r.first), (4, r.last)] ++ r.pages.map (fun g => (4, g)) ++ [(8, r.portMask)])

/-- R329: a matching line of a plane with an open range. -/
def Dev.matchingLine (d : Dev) (n : Nat) : Dev :=
  match d.pair.ranges.find? (fun r => r.plane == n) with
  | none => d
  | some r =>
    let r' := { r with matching := r.matching + 1 }
    if max 1 (d.rd Fld.PAIR_RALLY.CloseLines) ≤ r'.matching then d.closeRange r'
    else d.setPair (fun p => { p with ranges := p.ranges.map (fun q => if q.plane = n then r' else q) })

/-- R329: a mismatched line joins its plane's range, and the pages that fire in it are flagged. -/
def Dev.joinRange (d : Dev) (n e mask : Nat) (pages : List Nat) : Dev :=
  let d := d.flagAll pages 13
  let ids := pages.map d.pageIdOf
  match d.pair.ranges.find? (fun r => r.plane == n) with
  | none => d.setPair (fun p => { p with ranges := p.ranges ++ [⟨n, e, e, ids, mask, 0⟩] })
  | some r =>
    let r' : MisRange := ⟨n, r.first, e, r.pages ++ ids.filter (fun g => !r.pages.contains g), r.portMask ||| mask, 0⟩
    d.setPair (fun p => { p with ranges := p.ranges.map (fun q => if q.plane = n then r' else q) })

/-- R330: a keeper with too many mismatched lines in the last Window events of a plane becomes Suspect. -/
def Dev.judgeSuspect (d : Dev) (n e : Nat) : Dev :=
  let w := d.rd Fld.PAIR_SUSPECT.Window
  let mis := (d.pair.mis.filter (fun m => m.1 != n || decide (e < m.2 + w))) ++ [(n, e)]
  let d := d.setPair (fun p => { p with mis := mis })
  if d.isKeeper && decide (max 1 (d.rd Fld.PAIR_SUSPECT.Limit) < (mis.filter (fun m => m.1 == n)).length) then d.suspect
  else d

/-- Is this the line in arbitration? -/
def ArbLine.isLine (a : ArbLine) (n e : Nat) : Bool := a.plane == n && a.event == e

/-- R328, Table 67: a mismatched line with the evidence of both devices. -/
def Dev.resolve (d : Dev) (a : ArbLine) (mine theirs : Bool) : Dev :=
  let striker := if d.isKeeper then theirs else mine
  let keeper := if d.isKeeper then mine else theirs
  let d := d.setPair (fun p => { p with
    arb := p.arb.filter (fun x => !x.isLine a.plane a.event)
    evidence := p.evidence.filter (fun x => x != (a.plane, a.event)) })
  if keeper && !striker then d
  else
    let d := d.joinRange a.plane a.event a.mask (d.pagesAt a.plane a.event a.pageId)
    if striker && !keeper && d.readyBusy && decide (d.pair.state = .paired) then
      if d.isKeeper then d.setPair (fun p => { p with handoffReason := 1 }) else d.startHandoff 1
    else d

/-- R327: a line's arbitration goes on: it is resolved once both devices have stated their evidence. -/
def Dev.arbitrate (d : Dev) (n e : Nat) : Dev :=
  match d.pair.arb.find? (fun a => a.isLine n e) with
  | none => d
  | some a =>
    match a.mine, a.theirs with
    | some x, some y => d.resolve a x y
    | _, _ => d

/-- R327: this device states its evidence for a line in arbitration, once. -/
def Dev.stateEvidence (d : Dev) (n e : Nat) : Dev :=
  match d.pair.arb.find? (fun a => a.isLine n e && a.mine.isNone) with
  | none => d
  | some a =>
    let v := d.hasEvidence n e
    let d := d.emit (.pair (.rally ⟨Fin.ofNat 8 n, e, a.pageId, [], v⟩))
    (d.setPair (fun p => { p with
      arb := p.arb.map (fun x => if x.isLine n e then { x with mine := some v } else x) })).arbitrate n e

/-- R327: the echo compares that may cover a line of plane `n` are known: none is enabled, or two lines have been fired
since. -/
def Dev.echoKnown (d : Dev) (n : Nat) (a : ArbLine) (fired : Nat) : Bool :=
  !(d.portsOf n).any (fun p => decide (d.rd (Fld.HP_ECHO.Enable p) = 1)) || decide (a.event + 2 ≤ fired)

/-- R327: the evidence of plane `n`'s lines whose echo compares are known is stated. -/
def Dev.stateKnown (d : Dev) (n fired : Nat) : Dev :=
  (d.pair.arb.filter (fun a => a.plane == n && a.mine.isNone)).foldl
    (fun d a => if d.echoKnown n a fired then d.stateEvidence n a.event else d) d

/-- R325, R327: records of both devices are held: the line matches, or its arbitration begins. -/
def Dev.compareRally (d : Dev) (own theirs : RallyRec) : Dev :=
  let n := own.plane.val
  let same := fun (r : RallyRec) => decide (r.plane = own.plane) && decide (r.event = own.event)
  let d := d.setPair (fun p => { p with
    own := p.own.filter (fun r => !same r), partner := p.partner.filter (fun r => !same r) })
  let mask := d.differing n own theirs
  if mask = 0 then d.matchingLine n
  else
    let d := (d.bump Fld.PAIR_MISCNT.Count).setPair (fun p => { p with
      arb := p.arb ++ [⟨n, own.event, mask, own.pageId, none, none⟩] })
    (d.stateKnown n 0).judgeSuspect n own.event

/-- R325, R327: a rally record of the partner, or its statement for a line in arbitration. -/
def Dev.rallyRecord (d : Dev) (r : RallyRec) : Dev :=
  let n := r.plane.val
  if d.pair.arb.any (fun a => a.isLine n r.event) then
    (d.setPair (fun p => { p with
      arb := p.arb.map (fun a => if a.isLine n r.event then { a with theirs := some r.evidence } else a) })).arbitrate n
      r.event
  else if d.rallies n = false then d
  else
    match d.pair.own.find? (fun o => decide (o.plane = r.plane) && decide (o.event = r.event)) with
    | some o => d.compareRally o r
    | none => d.setPair (fun p => { p with partner := p.partner ++ [r] })

/-- R327, Table 66: a line rendered blank for damaged data feeds this event of a page. -/
def Dev.damagedLine (d : Dev) (n : Nat) (q : Nat × Nat) : Bool :=
  match d.page q.1 with
  | none => false
  | some g =>
    g.status.toNat.testBit 5 && (d.staggers n).any (fun s =>
      (d.raster n).stag.any (fun l => l.page == q.1 && l.line + d.planeOffset n + s == q.2 && l.blank))

/-- R325: this device has formatted a line on every port of plane `n`. -/
def Dev.ownRally (d : Dev) (n : Nat) (parts : List (Nat × Nat)) : Dev :=
  let ev := evName parts
  let fires := parts.any (fun q =>
    match (d.plane n).runs.find? (fun r => r.page == q.1) with
    | some r => d.hasLine n r.length q.2
    | none => false)
  if d.rallies n && fires then
    let lcvs := (d.portsOf n).map (fun p =>
      match (d.port p).queue.find? (fun e => decide (e.parts = parts)) with
      | some e => BitVec.ofNat 32 e.lcv
      | none => 0#32)
    let d := if parts.any (d.damagedLine n) then
        d.setPair (fun p => { p with evidence := p.evidence ++ [(n, ev.2)] }) else d
    let rec_ : RallyRec := ⟨Fin.ofNat 8 n, ev.2, BitVec.ofNat 32 (d.pageIdOf ev.1), lcvs, false⟩
    let d := (d.emit (.pair (.rally rec_))).setPair (fun p => { p with own := p.own ++ [rec_] })
    match d.pair.partner.find? (fun r => decide (r.plane = rec_.plane) && decide (r.event = rec_.event)) with
    | some r => d.compareRally rec_ r
    | none => d
  else d

/-- R325: the partner's record for the device's own did not come within PAIR_RALLY.Wait. -/
def Dev.rallyWaitExpiry (d : Dev) (n e : Nat) : Dev :=
  let mine := fun (r : RallyRec) => decide (r.plane.val = n) && decide (r.event = e)
  if d.pair.own.any mine then
    ((d.setPair (fun p => { p with own := p.own.filter (fun r => !mine r) })).bump Fld.PAIR_MISSCNT.Count).sticky
      Fld.PAIR_ERR.RallyMissing
  else d

/-- R165, R317, R325: the raster pipeline's next line of a plane; an Isolated device computes none. -/
def Dev.rasterStep (d : Dev) (n : Nat) : Dev :=
  if d.pair.state = .isolated then d
  else
    match d.nextForm n with
    | none => d
    | some (count, parts) =>
      let e := d.rasterLine n
      if d.pair.mode && e.nextForm n != some (count, parts) then (e.ownRally n parts).settleMonitor n else e

/-- R218, R323, R327: a line event, on the striker as on the keeper. -/
def Dev.fireLine (d : Dev) (n : Nat) : Dev :=
  match (d.plane n).due with
  | [] => d
  | e :: _ =>
    let x := d.lineEvent n
    if d.pair.mode then (x.settleFired n e.parts).stateKnown n (evName e.parts).2 else x

/-- R327: an echo compare that shows evidence for a line in arbitration has it stated at once. -/
def Dev.echoCompare (d : Dev) (p : Nat) (bits : List Bool) : Dev :=
  let before := d.pair.evidence.length
  let d := d.echoResult p bits
  (d.pair.evidence.drop before).foldl (fun d e => d.stateEvidence e.1 e.2) d

end Sys2Proof.Machine
end

