-- ==== Sys2Proof/Machine/Memory.lean ====
section
/-!
DEFINITION. The memories (R379 to R409): line decoding, the sweeper's DRAM finds, live lines and resend requests, the
remap table, kindling, channel training, replays, refresh and temperature.
-/
namespace Sys2Proof.Machine

/-! ### The line code (R389 to R391) -/

/-- A product by α in GF(2^8) with field polynomial x^8 + x^4 + x^3 + x^2 + 1 (R389). -/
def gfDouble (a : Nat) : Nat := if 128 ≤ a then ((2 * a) % 256) ^^^ 0x1D else 2 * a

/-- a × α^j. -/
def gfShift : Nat → Nat → Nat
  | 0, a => a
  | j + 1, a => gfShift j (gfDouble a)

/-- The syndromes of one beat's ten symbols (R389). -/
def syndromes (beat : List Nat) : Nat × Nat :=
  ((beat.zipIdx).foldl (fun a e => (a.1 ^^^ e.1, a.2 ^^^ gfShift e.2 e.1)) (0, 0))

/-- R390: what poison adds to S1: 0x5A × (α^8 + α^9). -/
def poisonSyndrome : Nat := gfShift 8 0x5A ^^^ gfShift 9 0x5A

/-- R391: the symbol position that one beat's syndrome points at; `none`: zero, `some none`: no position. -/
def beatSymbol (s : Nat × Nat) : Option (Option Nat) :=
  if s = (0, 0) then none
  else if s.1 = 0 then some none
  else some ((List.range 10).find? (fun j => gfShift j s.1 == s.2))

/-- R391: does a reading with these syndromes fit: `none` no, `some none` without errors, `some (some j)` with errors at j? -/
def readingFits (ss : List (Nat × Nat)) : Option (Option Nat) :=
  match (ss.filterMap beatSymbol).eraseDups with
  | [] => some none
  | [some j] => some (some j)
  | _ => none

/-- Table 84. -/
inductive LineRead
  | good
  | corrected (symbol : Nat)
  | poisoned (symbol : Option Nat)
  | uncorrectable
  deriving DecidableEq, Repr

/-- The ten symbols of each of the eight beats of an error pattern. -/
def beatsOf (errors : Bytes) : List (List Nat) :=
  (List.range 8).map (fun b => (sliceB errors (10 * b) 10).map (fun x => x.toNat))

/-- R391, Table 84: a line, poisoned or not, read with an error pattern over its 80 bytes. -/
def decodeLine (poisoned : Bool) (errors : Bytes) : LineRead :=
  let raw := (beatsOf errors).map syndromes
  let plain := if poisoned then raw.map (fun s => (s.1, s.2 ^^^ poisonSyndrome)) else raw
  let poison := plain.map (fun s => (s.1, s.2 ^^^ poisonSyndrome))
  match readingFits plain, readingFits poison with
  | some none, none => .good
  | some (some j), none => .corrected j
  | none, some j => .poisoned j
  | _, _ => .uncorrectable

/-- What the line's data bytes are read wrong by, after the correction of symbol `j`. -/
def residualErrors (symbol : Option Nat) (errors : Bytes) : Bytes :=
  (beatsOf errors).flatMap (fun beat =>
    let s0 := (syndromes beat).1
    ((beat.take 8).zipIdx).map (fun e => BitVec.ofNat 8 (if symbol = some e.2 then e.1 ^^^ s0 else e.1)))

/-- A line written back with the bytes as read. -/
def Mem.spoil (m : Mem) (line : Nat) (by_ : Bytes) : Mem :=
  if by_.all (fun b => b == 0#8) then m
  else m.write line (((m.raw line 64).zip by_).map (fun e => e.1 ^^^ e.2))

/-! ### Memory in general -/

/-- The memory controller's state changed. -/
def Dev.setMemc (d : Dev) (f : MemCtl → MemCtl) : Dev := { d with memc := f d.memc }

/-- The channels populated, as configured. -/
def Dev.populated (d : Dev) : Nat := d.rd Fld.MEM_CFG.Channels

/-- R383: every populated channel has trained. -/
def Dev.memTrained (d : Dev) : Bool := d.populated ≠ 0 && decide (d.rd Fld.MEM_STATUS.TrainOk = d.populated)

/-- The MEM domain is ON (Table 29) and the channels run. -/
def Dev.memRuns (d : Dev) : Bool := d.domOn 5 && d.memTrained

/-! ### Remapping (R402 to R405) -/

/-- R382: spare rows in each bank. -/
def Dev.spareRows (d : Dev) : Nat :=
  match d.chanBits, d.rankBits with
  | 1, 0 => 4
  | 2, 1 => 1
  | _, _ => 2

/-- The remap entries in force. -/
def Dev.remapWords (d : Dev) : List Nat :=
  ((List.range 16).map (fun i => (d.reg (Adr.MEM_REMAP i)).toNat)).filter (fun w => w.testBit 31)

/-- The row a word of MEM_REMAP's layout names: channel, rank, bank group, bank and row. -/
def rowOfWord (w : Nat) : Nat := bitsOf w 29 28 * 2 ^ 28 + bitsOf w 27 27 * 2 ^ 27 + bitsOf w 26 25 * 2 ^ 25 +
  bitsOf w 24 23 * 2 ^ 23 + bitsOf w 16 0

/-- Two row words name rows of one bank. -/
def sameBank (a b : Nat) : Bool := bitsOf a 29 23 == bitsOf b 29 23

/-- Spares of the row's bank that are used or promised. -/
def Dev.sparesUsed (d : Dev) (row : Nat) : Nat :=
  ((d.remapWords.filter (sameBank row)).length) + (d.memc.remaps.filter (sameBank row)).length

/-- The row lies in installed memory. -/
def Dev.rowExists (d : Dev) (row : Nat) : Bool :=
  d.populated.testBit (bitsOf row 29 28) && decide (bitsOf row 27 27 ≤ d.rankBits)

/-- R403, R405: a remap asked for: refused, not made for want of an entry, or begun. -/
def Dev.askRemap (d : Dev) (row : Nat) : Dev :=
  if d.remapWords.any (fun w => rowOfWord w == row) ∨ d.memc.remaps.contains row ∨ d.rowExists row = false ∨
      d.spareRows ≤ d.sparesUsed row then
    d.notice Nt.RemapRefused []
  else if 16 ≤ d.remapWords.length + d.memc.remaps.length then
    (d.sticky Fld.MEM_ERR.RemapFull).notice Nt.RemapFull []
  else d.setMemc (fun c => { c with remaps := c.remaps ++ [row] })

/-- R403: a write of MEM_RMREQ with Go: the row named is the one the register now holds (R5 clamps its channel). -/
def Dev.remapRequest (d : Dev) (value : Nat) : Dev :=
  if value.testBit 31 then d.askRemap (rowOfWord (d.reg Adr.MEM_RMREQ).toNat) else d

/-- R404: the remap in progress completes: the entry is valid, the journal is told, and the notice is raised. -/
def Dev.remapDone (d : Dev) : Dev :=
  match d.memc.remaps with
  | [] => d
  | row :: rest =>
    let used := (d.remapWords.filter (sameBank row)).map (fun w => bitsOf w 18 17)
    let spare := ((List.range 4).find? (fun s => !used.contains s)).getD 0
    let d := d.setMemc (fun c => { c with remaps := rest })
    match (List.range 16).find? (fun i => (d.reg (Adr.MEM_REMAP i)).toNat.testBit 31 = false) with
    | none => d
    | some i =>
      let d := d.setReg (Adr.MEM_REMAP i) (BitVec.ofNat 32 (2 ^ 31 + row + spare * 2 ^ 17))
      let d := d.wr Fld.MEM_RMCNT.Used d.remapWords.length
      let d := { d with jnl := { d.jnl with queue := d.jnl.queue ++ [JnlChange.remap] } }
      d.notice Nt.RemapDone []

/-- R405: MEM_RMCTRL.ClearAll: the journal's entries go; the table in force stays until the next start-up. -/
def Dev.remapClearAll (d : Dev) : Dev :=
  if d.job.seq = .idle then { d with jnl := { d.jnl with area := { d.jnl.area with remap := [] } } } else d

/-! ### Live lines (R400) -/

/-- The strips a held page refers to, with each use's plane and first grid line. -/
def Dev.pageStrips (d : Dev) (m : Mem) (p : Page) : List (Charge × Nat) :=
  (List.range 8).flatMap (fun n => (d.pageCharges m p n).map (fun c => (c, n)))

/-- Does a strip's stored form, header and data, hold the line? -/
def Charge.holds (c : Charge) (line : Nat) : Bool := decide (lineOf c.strip ≤ line ∧ line < c.strip + 64 + c.comp)

/-- The first use of a strip that holds the line, over the held pages. -/
def Dev.stripOfLine (d : Dev) (m : Mem) (line : Nat) : Option (Page × Charge) :=
  d.job.pages.findSome? (fun p => ((d.pageStrips m p).find? (fun c => c.1.holds line)).map (fun c => (p, c.1)))

/-- The line lies in the descriptor or an index table of a held page. -/
def Dev.structLine (d : Dev) (line : Nat) : Bool :=
  d.job.pages.any (fun p =>
    decide (p.offset ≤ line ∧ line < p.offset + 128) ||
    (List.range 8).any (fun n =>
      let t := vgetD p.tables n (0, 0)
      p.planeMask.toNat.testBit n && decide (lineOf t.1 ≤ line ∧ line < t.1 + 8 * t.2)))

/-- R117: the leading plane's lines until grid line `g` of page `p`. -/
def Dev.linesUntil (d : Dev) (p : Page) (g : Nat) : Nat :=
  match d.leading with
  | none => g
  | some n =>
    match (d.plane n).runs.find? (fun r => r.page == p.key) with
    | some r =>
      let before := ((d.plane n).runs.takeWhile (fun q => q.page != p.key)).foldl (fun a q => a + d.runLeft n q) 0
      before + (d.planeOffset n + g - max r.next (d.planeOffset n))
    | none =>
      ((d.plane n).runs.foldl (fun a r => a + d.runLeft n r) 0) +
        (((d.unbegun (d.channelOf n)).takeWhile (fun q => q.key != p.key)).foldl (fun a q => a + q.length) 0) + g

/-- The run of damaged lines of a strip around one of them: its first line and how many. -/
def damagedRun (m : Mem) (c : Charge) (line : Nat) : Nat × Nat :=
  let ls := (linesOf (lineOf c.strip) (c.strip + 64 + c.comp - lineOf c.strip))
  let up := (ls.dropWhile (fun l => l != line)).takeWhile (fun l => m.poison.contains l || l == line)
  let down := ((ls.takeWhile (fun l => l != line)).reverse).takeWhile (fun l => m.poison.contains l)
  (line - 64 * down.length, up.length + down.length)

/-- R117: a ResendRequest to every session subscribed to Resend. -/
def Dev.resendRequest (d : Dev) (m : Mem) (line : Nat) (p : Page) (c : Charge) : Dev :=
  let r := damagedRun m c line
  let id := leAt (m.raw c.strip 64) 0x28 4
  let body := natBE 4 id ++ natBE 4 0 ++ natBE 8 c.strip ++ natBE 8 r.1 ++ natBE 4 (64 * r.2) ++
    natBE 4 (min 0xFFFFFFFE (d.linesUntil p c.first))
  let d := d.setMemc (fun x => { x with resent := (List.range r.2).foldl (fun l i => insNat (r.1 + 64 * i) l) x.resent })
  d.sendAll (d.subscribers 2) 0x42 body none

/-- R400: the stoker's action on a damaged line below JOB_LIMIT, where it is live. -/
def Dev.liveLineAction (d : Dev) (m : Mem) (line : Nat) : Dev :=
  match d.memc.live.find? (fun e => e.1 == line) with
  | none => d
  | some e =>
    let d := d.setMemc (fun c => { c with live := c.live.filter (fun x => x.1 != line) })
    if d.jobLimit ≤ line ∨ m.poison.contains line = false then d
    else
      match d.stripOfLine m line with
      | some (p, c) =>
        if d.pair.mode then d.askRepair line
        else if d.memc.resent.contains line then d
        else d.resendRequest m line p c
      | none =>
        if d.structLine line then
          if d.pair.mode then d.askRepair line
          else if e.2 then d
          else d.noticeTrouble Nt.UncorrectableFind [(8, line)]
        else d

/-- A damaged line waits for the stoker; `told`: its notice has been raised. -/
def Dev.addLive (d : Dev) (line : Nat) (told : Bool) : Dev :=
  d.setMemc (fun c => { c with live := c.live.filter (fun x => x.1 != line) ++ [(line, told)] })

/-! ### The sweeper's DRAM finds (R398, R399) -/

/-- R403: the row of a line corrected in this pass, its column and its symbol counted; what that leads to. -/
def Dev.countRow (d : Dev) (line symbol : Nat) : Dev :=
  let row := d.rowWord line
  let rank := bitsOf row 29 27
  let col := (row, d.lineColumn line)
  let sym := (rank * 16 + symbol, symbol, row)
  let newCol := !d.memc.ceCols.contains col
  let newSym := !d.memc.ceSyms.contains sym
  let d := d.setMemc (fun c => { c with
    ceCols := if newCol then c.ceCols ++ [col] else c.ceCols
    ceSyms := if newSym then c.ceSyms ++ [sym] else c.ceSyms })
  let rows := (d.memc.ceSyms.filter (fun s => s.1 == rank * 16 + symbol)).length
  if 16 ≤ rows then
    if newSym ∧ rows = 16 then
      (d.sticky Fld.MEM_ERR.ComponentFail).notice Nt.ComponentFail [(1, rank / 2), (1, rank % 2), (1, symbol)]
    else d
  else if newCol ∧ (d.memc.ceCols.filter (fun c => c.1 == row)).length = max 1 (d.rd Fld.MEM_RMPOL.RowCeLimit) then
    d.askRemap row
  else d

/-- R403: a line found uncorrectable again within 24 h after a whole-line write replaced it. -/
def Mem.relapsed (m : Mem) (sec line : Nat) : Bool := m.replaced.any (fun e => e.1 == line && decide (sec ≤ e.2 + 86400))

/-- R399, Table 88: the sweeper's find at a line. -/
def Dev.sweeperFind (d : Dev) (m : Mem) (line : Nat) (errors : Bytes) : Dev × Mem :=
  let ch := d.dramChannel line
  match decodeLine (m.poison.contains line) errors with
  | .good => (d, m)
  | .corrected j =>
    let d := ((d.bump (Fld.MEM_CECNT.Count ch)).lastFind 1 line).countRow line j
    (d, { m.spoil line (residualErrors (some j) errors) with poison := delNat line m.poison })
  | .poisoned _ =>
    let d := (d.bump (Fld.MEM_UECNT.Count ch)).lastFind 3 line
    ((if d.pair.repairs.contains line then d else d.addLive line false), m)
  | .uncorrectable =>
    let d := ((d.bump (Fld.MEM_UECNT.Count ch)).lastFind 2 line).sticky Fld.MEM_ERR.DramUnc
    let d := d.noticeTrouble Nt.UncorrectableFind [(8, line)]
    let d := d.setMemc (fun c => { c with resent := delNat line c.resent })
    let d := if m.relapsed d.now.sec line then d.askRemap (d.rowWord line) else d
    (d.addLive line true, (m.spoil line (residualErrors none errors)).poisonLine line)

/-- R398: may the sweeper read the next line now? -/
def Dev.sweeps (d : Dev) (m : Mem) : Bool :=
  decide (d.rd Fld.MEM_CTRL.SweepEn = 1) && d.memRuns && decide (0 < d.installed) &&
    (decide (d.rd Fld.MEM_STATUS.Kindled = 1) || decide (d.memc.sweepNext < m.watermark))

/-- R398: the sweeper goes on to the next line; at the top of memory a pass is complete. -/
def Dev.sweepOn (d : Dev) : Dev :=
  let next := d.memc.sweepNext + 64
  if d.installed ≤ next then
    ((d.setMemc (fun c => { c with sweepNext := 0, ceCols := [] })).bump Fld.MEM_SWPASS.Count).wr Fld.MEM_SWPROG.MiB 0
  else (d.setMemc (fun c => { c with sweepNext := next })).wr Fld.MEM_SWPROG.MiB (next / 2 ^ 20)

/-- R399: a paced read of the sweeper. -/
def Dev.sweeperRead (d : Dev) (m : Mem) (errors : Bytes) : Dev × Mem :=
  if d.sweeps m then
    let r := d.sweeperFind m d.memc.sweepNext errors
    (r.1.sweepOn, r.2)
  else (d, m)

/-- R393: the sweeper reads again a line that another reader found uncorrectable; one that now decodes good counts as
correctable (DEDUCED that it is shown as the latest find too, log 47). -/
def Dev.sweeperReread (d : Dev) (m : Mem) (line : Nat) (errors : Bytes) : Dev × Mem :=
  if d.memc.reread.contains line then
    let d := d.setMemc (fun c => { c with reread := delNat line c.reread })
    if decodeLine (m.poison.contains line) errors = .good then
      (d.countCorrected line, m)
    else d.sweeperFind m line errors
  else (d, m)

/-! ### Training and kindling (R383, R407) -/

/-- R46, R124: JOB_LIMIT: installed capacity less 3 GiB less the pool, never below 4 GiB. -/
def Dev.limitFor (d : Dev) : Nat :=
  let cap := d.installed / 2 ^ 30
  let pool := min d.boot.cfg.poolSize (cap - 7)
  (cap - 3 - pool) * 2 ^ 30

/-- JOB_LIMITLO and JOB_LIMITHI set. -/
def Dev.setLimit (d : Dev) (n : Nat) : Dev :=
  (d.setReg Adr.JOB_LIMITLO (BitVec.ofNat 32 n)).wr Fld.JOB_LIMITHI.LimitHi (n / 2 ^ 32)

/-- The watermark as MEM_KWMLO and MEM_KWMHI show it. -/
def Dev.showMark (d : Dev) (w : Nat) : Dev :=
  (d.wr Fld.MEM_KWMLO.WmLo (w / 64)).wr Fld.MEM_KWMHI.WmHi (w / 2 ^ 32)

/-- R405: the remap table loaded from the journal. -/
def Dev.loadRemap (d : Dev) : Dev :=
  let d := (List.range 16).foldl (fun d i => d.setReg (Adr.MEM_REMAP i) 0#32) d
  let d := d.jnl.area.remap.foldl (fun d e => if e.1 < 16 then d.setReg (Adr.MEM_REMAP e.1) e.2 else d) d
  d.wr Fld.MEM_RMCNT.Used d.remapWords.length

/-- R407: memory as kindling begins: every bit of the old contents is lost. -/
def Mem.fresh (_m : Mem) : Mem := ⟨[], [], 0, [], []⟩

/-- R383, R405, R407: the channels have trained with the given successes. A channel that trains anew while the others run
(R385) does not touch the store. -/
def Dev.trainingDone (d : Dev) (m : Mem) (ok : Nat) : Dev × Mem :=
  let was := d.memTrained
  let good := ok &&& d.populated
  let d := d.wr Fld.MEM_STATUS.TrainOk good
  if d.memTrained then
    if was then (d, m)
    else
      let d := (d.loadRemap.setLimit d.limitFor).showMark 0
      let d := (d.wr Fld.MEM_STATUS.ReservedKindled 0).wr Fld.MEM_STATUS.Kindled 0
      (d.setMemc (fun c => { c with sweepNext := 0, ceCols := [], ceSyms := [], reread := [], live := [], resent := [] }), m.fresh)
  else
    let failed := (if d.populated = 0 then 0xF else d.populated) - good
    ((((d.sticky Fld.MEM_ERR.TrainFail).trouble Nt.DramTrainFail [(1, failed)]).setLimit 0), m)

/-- R407: the region above JOB_LIMIT is kindled. -/
def Dev.reservedKindled (d : Dev) : Dev := if d.memTrained then d.wr Fld.MEM_STATUS.ReservedKindled 1 else d

/-- R407: the watermark reaches JOB_LIMIT. -/
def Dev.kindleDone (d : Dev) (m : Mem) : Dev × Mem :=
  if d.memTrained && decide (d.rd Fld.MEM_STATUS.ReservedKindled = 1) && decide (d.rd Fld.MEM_STATUS.Kindled = 0) then
    (((d.wr Fld.MEM_STATUS.Kindled 1).showMark d.jobLimit).notice Nt.KindleDone [], { m with watermark := d.jobLimit, blocks := [] })
  else (d, m)

/-! ### Replays, refresh and temperature (R384 to R386) -/

/-- A command on a channel's command bus: 0 refresh, 1 ZQ calibration, 2 replay, 3 retraining. -/
def Dev.dramCommand (d : Dev) (kind ch : Nat) : Dev := d.emit (.dramCommand kind ch)

/-- R385: ALERT_n fell on a channel; `accepted`: the replay that follows is accepted. -/
def Dev.alertN (d : Dev) (c : Fin 4) (accepted : Bool) : Dev :=
  if d.memRuns && d.populated.testBit c.val then
    let d := (d.bump Fld.MEM_CAPCNT.Count).dramCommand 2 c.val
    let k := if accepted then 0 else d.memc.replays[c] + 1
    if 4 ≤ k then
      let d := (d.setMemc (fun x => { x with replays := x.replays.set c.val 0 c.isLt })).dramCommand 3 c.val
      (d.sticky Fld.MEM_ERR.CaParityFail).trouble Nt.CaParityFail [(1, c.val)]
    else d.setMemc (fun x => { x with replays := x.replays.set c.val k c.isLt })
  else d

/-- R384: a refresh of a channel's ranks. -/
def Dev.refresh (d : Dev) (c : Fin 4) : Dev := if d.memRuns && d.populated.testBit c.val then d.dramCommand 0 c.val else d

/-- R384: a short ZQ calibration of every rank. -/
def Dev.zqCalibration (d : Dev) : Dev :=
  if d.memRuns then (allBelow 4 (fun c => d.populated.testBit c)).foldl (fun d c => d.dramCommand 1 c) d else d

/-- R386: the highest range read on a channel; 2 is above 85 °C. -/
def Dev.tempPoll (d : Dev) (c : Fin 4) (range : BitVec 2) : Dev :=
  if d.memRuns && d.populated.testBit c.val then
    let d := d.wr (Fld.MEM_TEMP.Range c.val) range.toNat
    let hot := d.rd Fld.MEM_STATUS.Hot
    if 2 ≤ range.toNat then
      (d.wr Fld.MEM_STATUS.Hot (hot ||| 2 ^ c.val)).setMemc (fun x => { x with cool := x.cool.set c.val 0 c.isLt })
    else
      let k := d.memc.cool[c] + 1
      let d := d.setMemc (fun x => { x with cool := x.cool.set c.val (min 2 k) c.isLt })
      if 2 ≤ k ∧ hot.testBit c.val then d.wr Fld.MEM_STATUS.Hot (hot - 2 ^ c.val) else d
  else d

end Sys2Proof.Machine
end

