-- ==== Sys2Proof/Machine/Power.lean ====
section
/-!
DEFINITION. Power domains (R466 to R472): requests and their refusals, entry and exit, what each state loses, and wakes.
Domains are named by their bit numbers of Table 29.
-/
namespace Sys2Proof.Machine

/-- A domain. -/
def Dev.domain (d : Dev) (k : Nat) : Domain := vgetD d.pwr k ⟨.on, false, 0⟩

/-- A domain set. -/
def Dev.setDomain (d : Dev) (k : Nat) (x : Domain) : Dev := { d with pwr := vmodN d.pwr k (fun _ => x) }

/-- The domain is in ember or cold. -/
def DomState.asleep : DomState → Bool
  | .ember => true
  | .cold => true
  | _ => false

/-- The domain enters ember or cold. -/
def DomState.entering : DomState → Bool
  | .toEmber => true
  | .toCold => true
  | _ => false

/-- The domain leaves ember or cold. -/
def DomState.leaving : DomState → Bool
  | .fromEmber => true
  | .fromCold => true
  | _ => false

/-- PWR_STATE's code of a domain (Table 123). -/
def DomState.code : DomState → Nat
  | .on => 0
  | .ember => 1
  | .cold => 2
  | _ => 3

/-- PWR_STATE and PWR_PEND: a field of two bits for each domain. -/
def Dev.domainFields (d : Dev) (f : Domain → Nat) : Nat :=
  (List.range 14).foldl (fun a k => a + f (d.domain k) * 4 ^ k) 0

/-! ### Wakes (R471, R472) -/

/-- Exit begins from ember or cold. -/
def Dev.beginExit (d : Dev) (k : Nat) : Dev :=
  let x := d.domain k
  match x.state with
  | .ember => d.setDomain k { x with state := .fromEmber, woken := false }
  | .cold => d.setDomain k { x with state := .fromCold, woken := false }
  | _ => d

/-- PWR_LASTWAKE and PWR_WAKECNT show a wake. -/
def Dev.showWake (d : Dev) (k source : Nat) : Dev :=
  ((d.wr Fld.PWR_LASTWAKE.Source source).wr Fld.PWR_LASTWAKE.Domain k).bump Fld.PWR_WAKECNT.Count

/-- The part has the domain: on the SN4-131 PAIR stays cold (R4, R469). -/
def Dev.wakeable (d : Dev) (k : Nat) : Bool := !(decide (d.part = .sn131) && k == 4)

/-- R471, R472: a wake of a domain; sources are those of PWR_LASTWAKE. -/
def Dev.wake (d : Dev) (k source : Nat) : Dev :=
  let x := d.domain k
  if d.wakeable k = false then d
  else if x.state.asleep then (d.beginExit k).showWake k source
  else if x.state.entering ∧ x.woken = false then (d.setDomain k { x with woken := true }).showWake k source
  else d

/-! ### Requests (R469) -/

/-- R469: the device is not at rest: a page in flight, row-stagger contents, or a sequencer that is not Idle. -/
def Dev.printBusy (d : Dev) : Bool :=
  d.pageInFlight || decide (d.job.seq ≠ .idle) || (List.range 8).any (fun n => !(d.raster n).stag.isEmpty)

/-- A calibration of the ADC is running (R301). -/
def Dev.adcRuns (d : Dev) : Bool := d.mot.calRun.isSome

/-- R339: a resynchronisation is in progress. -/
def Dev.resyncRuns (d : Dev) : Bool :=
  decide (d.pair.state = .syncing) || (d.pair.mode && decide (d.pair.role = .striker) && decide (d.pair.partnerState = 3))

/-- A DMA channel is moving data. -/
def Dev.dmaMoving (d : Dev) : Bool := d.dma.chans.toList.any (fun c => decide (c.phase = .moving ∨ c.phase = .mirror))

/-- An axis moves, stops or homes. -/
def Dev.axesMove (d : Dev) : Bool :=
  d.mot.axes.toList.any (fun a => decide (a.state = .moving ∨ a.state = .stopping ∨ a.state = .homing))

/-- Table 120: is a request for ember or cold refused now? -/
def Dev.pwrRefused (d : Dev) (k : Nat) : Bool :=
  if k = 1 then d.dd.running || d.hp.deskew.running || d.adcRuns || d.resyncRuns
  else if k = 2 ∨ k = 6 ∨ k = 7 ∨ k = 13 then d.printBusy
  else if k = 5 then d.printBusy || d.dmaMoving
  else if 8 ≤ k ∧ k ≤ 11 then
    d.hp.deskew.running ||
      (d.printBusy && (List.range 16).any (fun i => (d.planeOf (16 * (k - 8) + i)).isSome))
  else if k = 12 then d.axesMove || d.dd.running
  else if k = 4 then d.pair.mode
  else false

/-- R469: a refusal: its bit, PWR_ERR.Refused, and the notice with the domain and the condition (1 Table 120, 2 ember
asked of a cold domain). -/
def Dev.refusePower (d : Dev) (k condition : Nat) : Dev :=
  ((d.wr Fld.PWR_REFUSED.Domains (d.rd Fld.PWR_REFUSED.Domains ||| 2 ^ k)).sticky Fld.PWR_ERR.Refused).notice
    Nt.PowerRefused [(1, k), (1, condition)]

/-- A request for domain `k` was taken. -/
def Dev.powerTaken (d : Dev) (k : Nat) : Dev :=
  let r := d.rd Fld.PWR_REFUSED.Domains
  if r.testBit k then d.wr Fld.PWR_REFUSED.Domains (r - 2 ^ k) else d

/-- R467: what a domain does as it begins to enter ember: axes go to standstill (R299). -/
def Dev.beginEntry (d : Dev) (k : Nat) (st : DomState) : Dev :=
  let x := d.domain k
  let d := d.setDomain k { x with state := st, woken := false }
  if k = 12 then d.motionEmber
  else if 8 ≤ k ∧ k ≤ 11 then
    (List.range 16).foldl (fun d i => d.setPort (16 * (k - 8) + i) (d.port (16 * (k - 8) + i)).released) d
  else d

/-- R387: kindling runs. -/
def Dev.kindling (d : Dev) : Bool := d.memTrained && decide (d.rd Fld.MEM_STATUS.Kindled = 0)

/-- A request for ember (2) or cold (3) on a domain that is ON, in ember or cold. -/
def Dev.requestSleep (d : Dev) (k code : Nat) : Dev :=
  let code := if k = 1 ∨ k = 2 then 2 else code
  let st := (d.domain k).state
  if (code = 2 ∧ st = .ember) ∨ (code = 3 ∧ st = .cold) then d.powerTaken k
  else if code = 2 ∧ st = .cold then (d.sticky Fld.PWR_ERR.ColdToEmber).refusePower k 2
  else if d.pwrRefused k then d.refusePower k 1
  else if k = 5 ∧ code = 2 ∧ d.kindling = true then (d.powerTaken k).setMemc (fun c => { c with emberHeld := true })
  else (d.powerTaken k).beginEntry k (if code = 2 then .toEmber else .toCold)

/-- R469, R472: one field of PWR_REQ. -/
def Dev.powerField (d : Dev) (k code : Nat) : Dev :=
  let x := d.domain k
  if code = 0 ∨ k = 0 ∨ d.wakeable k = false then d
  else if code = 1 then
    let d := (d.powerTaken k).setMemc (fun c => if k = 5 then { c with emberHeld := false } else c)
    if x.state.leaving then d.setDomain k { x with pend := 0 } else d.wake k 1
  else if x.state.leaving ∨ x.state.entering then d.setDomain k { x with pend := code }
  else d.requestSleep k code

/-- R469: a write of PWR_REQ. -/
def Dev.powerRequest (d : Dev) (value : Nat) : Dev :=
  (List.range 14).foldl (fun d k => d.powerField k (bitsOf value (2 * k + 1) (2 * k))) d

/-- A request held through a transition is acted on (R472). -/
def Dev.actPending (d : Dev) (k : Nat) : Dev :=
  let x := d.domain k
  if x.pend = 0 then d else (d.setDomain k { x with pend := 0 }).requestSleep k x.pend

/-! ### What is lost (R467, R468) -/

/-- An address of the NZT or THR windows or of a table held in RASTER's SRAM. -/
def rasterTable (a : Nat) : Bool :=
  isNzt a || isThr a ||
    match regSpecAt a with
    | some (r, _, _) => r.base == Adr.RAS_MASK 0 0 || r.base == Adr.RAS_CURVE 0 0 || r.base == Adr.RAS_STWT 0 0 ||
        r.base == Adr.HT_DROP 0 0
    | none => false

/-- R448, R468: the State of every nozzle as the journal holds it. -/
def Dev.journalStates (d : Dev) : List (Nat × BitVec 2) :=
  if d.boot.cfg.nozzleStates = 1 then d.boot.cfgStates
  else
    let m := d.boot.cfgStates.foldl (fun m e => spPut 0#2 e.1 e.2 m) ([] : List (Nat × BitVec 2))
    let j := d.jnl.area.log.foldl (fun s e => spPut 0#2 e.1 (BitVec.ofNat 2 e.2.1) s) d.jnl.area.states
    j.foldl (fun m e => if spGet 0#2 m e.1 = 3#2 ∧ spGet 0#2 d.boot.cfgStates e.1 = 3#2 then m else spPut 0#2 e.1 e.2 m) m

/-- RASTER leaves cold: tables at their reset values in both copies, lines and row errors gone, states restored. -/
def Dev.loseRaster (d : Dev) : Dev :=
  let keep := fun (e : Nat × Word) => !rasterTable e.1
  let map := d.journalStates
  { d with
    win := d.win.filter keep, act := d.act.filter keep
    ras := { d.ras with
      planes := Vector.replicate 8 ⟨none, 0, [], []⟩, pendingMap := map, adoptedMap := map, statePend := 0#8
      corrWait := 0#8, corrCopy := 0#8, htWait := 0#8, htCopy := 0#8 } }

/-- DECODE loses engines, streams, check units and channels. -/
def Dev.loseDecode (d : Dev) : Dev :=
  { d with
    dec := { d.dec with planes := Vector.replicate 8 ⟨none, d.job.nextKey - 1, [], []⟩, streams := [], heldStreams := [] }
    dma := { d.dma with
      chans := Vector.replicate 16 ⟨.none, none, none, false⟩, waiting := [], units := Vector.replicate 4 ⟨none, 0, 0⟩ } }

/-- A HEADQ domain loses the taps, phases and shift numbers of its ports. -/
def Dev.loseHeads (d : Dev) (q : Nat) : Dev :=
  (List.range 16).foldl (fun d i =>
    let p := 16 * q + i
    d.setPort p { (d.port p).released with n := 0 }) d

/-- POSITION loses its counters and latches. -/
def Dev.losePosition (d : Dev) : Dev :=
  { d with lt := { d.lt with
    channels := d.lt.channels.map (fun c => { c with
      pos := 0, hwm := 0, mark := 0, reverse := false, windowStart := 0, idx := 0, idxSeen := false
      ssi := { c.ssi with loaded := false, step := none, advancing := false } })
    probes := d.lt.probes.map (fun _ => ⟨0, none⟩) } }

/-- R387: MEM goes cold: every bit of the job store is lost and the channels must train again. -/
def Dev.loseMem (d : Dev) : Dev :=
  ((d.wr Fld.MEM_STATUS.TrainOk 0).wr Fld.MEM_STATUS.Kindled 0).wr Fld.MEM_STATUS.ReservedKindled 0

/-- R467: every pair lane goes Off and the link is gone. -/
def Dev.losePairLink (d : Dev) : Dev :=
  let d := (List.range 8).foldl (fun d l => d.wr (Fld.LANE_STAT.State (4 + l)) 0) d
  { d with lane := { d.lane with link := ⟨false, 1, 1, []⟩ } }

/-- R467: what a domain loses when it has entered cold. -/
def Dev.loseContents (d : Dev) (k : Nat) : Dev :=
  if k = 3 then { d with ojp := { d.ojp with sessions := Vector.replicate 16 none } }
  else if k = 5 then d.loseMem
  else if k = 6 then d.loseDecode
  else if k = 7 then d.loseRaster
  else if 8 ≤ k ∧ k ≤ 11 then d.loseHeads (k - 8)
  else if k = 12 then d.motionCold
  else if k = 13 then d.losePosition
  else d

/-- R470, R472: a domain has entered ember or cold; it leaves again at once where it was woken meanwhile. -/
def Dev.domainEntryDone (d : Dev) (k : Nat) : Dev :=
  let x := d.domain k
  let done := match x.state with
    | .toEmber => some DomState.ember
    | .toCold => some DomState.cold
    | _ => none
  match done with
  | none => d
  | some st =>
    let d := d.setDomain k { x with state := st, pend := if x.woken then 0 else x.pend }
    let d := if k = 4 then d.losePairLink else d
    let d := if k = 5 ∧ st = .ember then d.wr Fld.MEM_STATUS.SelfRefresh 1 else d
    let d := if st = .cold then d.loseContents k else d
    if x.woken then d.beginExit k else d.actPending k

/-- R467: domains that lose something in cold. -/
def losesInCold (k : Nat) : Bool := k == 3 || (5 ≤ k && k ≤ 13)

/-- R468, R470: a domain is ON again; MEM out of cold discards every page held and raises MemLost (R387). -/
def Dev.domainExitDone (d : Dev) (k : Nat) : Dev :=
  let x := d.domain k
  if x.state.leaving then
    let cold := decide (x.state = .fromCold)
    let d := d.setDomain k { x with state := .on }
    let d := if k = 5 then d.wr Fld.MEM_STATUS.SelfRefresh 0 else d
    let d := if cold && losesInCold k then (d.sticky Fld.PWR_ERR.DomainLost).notice Nt.DomainLost [(1, k)] else d
    let d := if cold && k == 5 then d.jobAbort.notice Nt.MemLost [] else d
    d.actPending k
  else d

/-- R387: kindling has completed; a held request for ember takes effect. -/
def Dev.kindlingOver (d : Dev) : Dev :=
  if d.memc.emberHeld then (d.setMemc (fun c => { c with emberHeld := false })).requestSleep 5 2 else d

end Sys2Proof.Machine
end

