-- ==== Sys2Proof/Machine/Lanes.lean ====
section
/-!
DEFINITION. Serial lanes (R344 to R363): pair lane training, the Igmal link, host lanes and the ports' coming up and going
down, and the frames the device answers itself.
-/
namespace Sys2Proof.Machine

/-! ### Taps (R347, R353) -/

/-- The transmit taps of a lane: Pre, Main and Post. -/
structure Taps where
  pre : Nat
  main : Nat
  post : Nat
  deriving DecidableEq, Repr

/-- R353: the preset. -/
def presetTaps : Taps := ⟨4, 48, 8⟩

/-- LANE_TXl. -/
def Dev.taps' (d : Dev) (l : Nat) : Taps :=
  ⟨d.rd (Fld.LANE_TX.Pre l), d.rd (Fld.LANE_TX.Main l), d.rd (Fld.LANE_TX.Post l)⟩

/-- LANE_TXl set. -/
def Dev.setTaps (d : Dev) (l : Nat) (t : Taps) : Dev :=
  ((d.wr (Fld.LANE_TX.Pre l) t.pre).wr (Fld.LANE_TX.Main l) t.main).wr (Fld.LANE_TX.Post l) t.post

/-- R347: the swing rules. -/
def Taps.swingOk (t : Taps) : Bool := decide (t.pre + t.main + t.post ≤ 63) && decide (17 + t.pre + t.post ≤ t.main)

/-- R347: Post, then Pre, reduced until both rules hold; `fuel` bounds the steps. -/
def reduceSwing : Nat → Taps → Taps
  | 0, t => t
  | f + 1, t =>
    if t.swingOk then t
    else if 0 < t.post then reduceSwing f { t with post := t.post - 1 }
    else if 0 < t.pre then reduceSwing f { t with pre := t.pre - 1 }
    else t

/-- R353: one tap moved by a request code within its range; the new value and the response code (Table 72). -/
def moveTap (code lo hi v : Nat) (ok : Nat → Bool) : Nat × Nat :=
  if code = 1 then (if hi ≤ v then (v, 2) else if ok (v + 1) then (v + 1, 1) else (v, 3))
  else if code = 2 then (if v ≤ lo then (v, 2) else if ok (v - 1) then (v - 1, 1) else (v, 3))
  else (v, 0)

/-- R353: a request word acted on: the taps and the response word without its Tag. -/
def actRequest (t : Taps) (req : Nat) : Taps × Nat :=
  if bitsOf req 5 4 = 3 then (presetTaps, 0x15)
  else
    let p := moveTap (bitsOf req 5 4) 0 31 t.post (fun v => { t with post := v }.swingOk)
    let t := { t with post := p.1 }
    let m := moveTap (bitsOf req 3 2) 32 63 t.main (fun v => { t with main := v }.swingOk)
    let t := { t with main := m.1 }
    let r := moveTap (bitsOf req 1 0) 0 15 t.pre (fun v => { t with pre := v }.swingOk)
    ({ t with pre := r.1 }, p.2 * 16 + m.2 * 4 + r.2)

/-! ### Pair lane training (R352 to R355) -/

/-- The part has pair lanes (R344). -/
def Dev.hasPairLanes (d : Dev) : Bool := decide (d.part = .sn262)

/-- A pair lane's training state. -/
def Dev.train (d : Dev) (l : Fin 8) : LaneTrain := d.lane.train[l]

/-- A pair lane's training state set. -/
def Dev.setTrain (d : Dev) (l : Fin 8) (x : LaneTrain) : Dev :=
  { d with lane := { d.lane with train := d.lane.train.set l.val x l.isLt } }

/-- Training as it begins. -/
def freshTrain : LaneTrain := ⟨0, none, 0, true, false, 0, 0, 0, none, 0⟩

/-- R352: pair lane `l` begins training at the preset. -/
def Dev.beginTraining (d : Dev) (l : Fin 8) : Dev :=
  let k := 4 + l.val
  if d.hasPairLanes && d.lane.refclk && decide (d.rd (Fld.LANE_CTRL.Enable k) = 1) then
    (((d.setTrain l freshTrain).setTaps k presetTaps).wr (Fld.LANE_STAT.Steps k) 0).wr (Fld.LANE_STAT.State k) 1
  else d

/-- Table 73: the first two blocks of the training frame this end sends. -/
def LaneTrain.frame (x : LaneTrain) (fom : Nat) : Bytes :=
  let body := natLE 2 (x.request.getD (x.tag * 256)) ++ natLE 2 x.response ++ natLE 1 fom ++ natLE 1 x.own
  natLE 8 0x4B5AC3E10F967D28 ++ body ++ natLE 2 (crc16 body)

/-- The tap code of a request: the tap searched and its direction (Table 71). -/
def LaneTrain.code (x : LaneTrain) : Nat :=
  let c := if x.up then 1 else 2
  if x.phase = 1 then c else if x.phase = 2 then c * 4 else c * 16

/-- R354: the lane's training ends with a State; a failed lane shows TrainFail. -/
def Dev.endTraining (d : Dev) (l : Fin 8) (own : Nat) : Dev :=
  let d := d.setTrain l { d.train l with own := own, request := none }
  if own = 2 then (d.sticky Fld.LANE_ERR.TrainFail).wr (Fld.LANE_STAT.State (4 + l.val)) 4 else d

/-- R354: the next request is sent, or the budget is spent. -/
def Dev.sendRequest (d : Dev) (l : Fin 8) (fom : Nat) : Dev :=
  let k := 4 + l.val
  let steps := d.rd (Fld.LANE_STAT.Steps k)
  if max 1 (d.rd Fld.LANE_BUDGET.Steps) ≤ steps then
    d.endTraining l (if d.rd Fld.LANE_FOM.Floor ≤ fom then 1 else 2)
  else
    let x := d.train l
    let tag := (x.tag + 1) % 256
    (d.setTrain l { x with tag := tag, request := some (tag * 256 + x.code), lastFom := fom }).wr (Fld.LANE_STAT.Steps k)
      (steps + 1)

/-- R354: where the search goes on after an answered request. -/
def LaneTrain.searched (x : LaneTrain) (fom : Nat) : LaneTrain :=
  if x.lastFom < fom then { x with improved := true }
  else if x.up && !x.improved then { x with up := false }
  else { x with phase := (x.phase + 1) % 4, up := true, improved := false }

/-- R354: the receiver's side of training: Target reached, or the next request once the last is answered. -/
def Dev.search (d : Dev) (l : Fin 8) (fom respTag : Nat) : Dev :=
  let x := d.train l
  if x.own ≠ 0 then d
  else if d.rd Fld.LANE_FOM.Target ≤ fom then d.endTraining l 1
  else
    match x.request with
    | none => d.sendRequest l fom
    | some _ => if respTag = x.tag then (d.setTrain l (x.searched fom)).sendRequest l fom else d

/-- R353: the transmitter's side: a request with a new Tag is acted on once. -/
def Dev.serveRequest (d : Dev) (l : Fin 8) (req : Nat) : Dev :=
  let x := d.train l
  let tag := req / 256
  if x.farTag = some tag then d
  else
    let r := actRequest (d.taps' (4 + l.val)) req
    (d.setTaps (4 + l.val) r.1).setTrain l { x with farTag := some tag, response := tag * 256 + r.2 }

/-- R354: every end shows State 1. -/
def Dev.allReady (d : Dev) : Bool := d.lane.train.toList.all (fun x => decide (x.own = 1 ∧ x.far = 1))

/-- R354, R355: the link starts: the lanes are up and the hello is sent. -/
def Dev.linkStart (d : Dev) : Dev :=
  if d.allReady && !d.lane.link.up then
    let d := (List.range 8).foldl (fun d l => d.wr (Fld.LANE_STAT.State (4 + l)) 3) d
    let d := { d with lane := { d.lane with link := ⟨true, 1, 1, []⟩ } }
    if d.pair.mode then d.emit (.pair (.hello d.ownHello)) else d
  else d

/-- R352, R353: is the frame whole? -/
def frameOk (bs : Bytes) : Bool :=
  leAt bs 0 8 == 0x4B5AC3E10F967D28 && crc16 (sliceB bs 8 6) == leAt bs 14 2

/-- R352 to R355: a training frame. -/
def Dev.trainingFrame (d : Dev) (f : TrainFrame) : Dev :=
  let k := 4 + f.lane.val
  if d.rd (Fld.LANE_STAT.State k) ≠ 1 ∨ frameOk f.bytes = false then d
  else
    let fom := f.fom.toNat
    let req := leAt f.bytes 8 2
    let d := d.wr (Fld.LANE_STAT.Fom k) fom
    let d := d.setTrain f.lane { d.train f.lane with far := leAt f.bytes 13 1 }
    let d := if bitsOf req 5 0 = 0 then d else d.serveRequest f.lane req
    let d := d.search f.lane fom (leAt f.bytes 10 2 / 256)
    (d.emit (.training f.lane.val ((d.train f.lane).frame fom))).linkStart

/-- R354: a request unanswered for 1 ms is sent again with the same Tag. -/
def Dev.trainingTimeout (d : Dev) (l : Fin 8) : Dev :=
  let k := 4 + l.val
  let x := d.train l
  if d.rd (Fld.LANE_STAT.State k) ≠ 1 ∨ x.request = none ∨ x.own ≠ 0 then d
  else
    let steps := d.rd (Fld.LANE_STAT.Steps k)
    let fom := d.rd (Fld.LANE_STAT.Fom k)
    let d := if max 1 (d.rd Fld.LANE_BUDGET.Steps) ≤ steps then d.endTraining l (if d.rd Fld.LANE_FOM.Floor ≤ fom then 1 else 2)
      else d.wr (Fld.LANE_STAT.Steps k) (steps + 1)
    (d.emit (.training l.val ((d.train l).frame fom))).linkStart

/-- R354: a failed lane trains again after 100 ms. -/
def Dev.trainRetry (d : Dev) (l : Fin 8) : Dev :=
  if d.rd (Fld.LANE_STAT.State (4 + l.val)) = 4 then d.beginTraining l else d

/-- The eight pair lanes. -/
def pairLanes : List (Fin 8) := [0, 1, 2, 3, 4, 5, 6, 7]

/-- R357: the link is lost: its flits are discarded and every lane trains again. -/
def Dev.linkLoss (d : Dev) : Dev :=
  if d.hasPairLanes then
    let d := { d with lane := { d.lane with link := ⟨false, 1, 1, []⟩ } }
    pairLanes.foldl (fun d l => if d.rd (Fld.LANE_STAT.State (4 + l.val)) = 0 then d else d.beginTraining l) d
  else d

/-! ### Flits (R356, R357) -/

/-- Seq numbers wrap past 0xFFFF; 0 is kept for flits without one. -/
def flitNext (s : Nat) : Nat := if 65535 ≤ s then 1 else s + 1

/-- R357: flits before AckSeq leave the replay buffer. -/
def dropAcked (next ack : Nat) (l : List (Nat × Nat × PairOut)) : List (Nat × Nat × PairOut) :=
  if ack = next then []
  else if l.any (fun e => e.1 == ack) then l.dropWhile (fun e => e.1 != ack)
  else l

/-- R357: a Nak: the flits from AckSeq on are sent again; one replayed 8 times loses the link. -/
def Dev.replay (d : Dev) : Dev :=
  let again := d.lane.link.unacked.map (fun e => (e.1, e.2.1 + 1, e.2.2))
  let d := { d with lane := { d.lane with link := { d.lane.link with unacked := again } } }
  let d := d.wr Fld.LANE_REPLAYCNT.Count (d.rd Fld.LANE_REPLAYCNT.Count + again.length)
  if again.any (fun e => decide (8 ≤ e.2.1)) then d.linkLoss
  else again.foldl (fun d e => d.emit (.pairAgain e.1 e.2.2)) d

/-- R357: a received flit: checked, its acknowledgement taken, delivered in Seq order or Naked. -/
def Dev.flit (d : Dev) (bs : Bytes) : Dev :=
  let k := d.lane.link
  if k.up = false then d
  else if bs.length ≠ 64 ∨ crc32c (bs.take 60) ≠ leAt bs 60 4 then d.emit (.flitAck k.rxNext false)
  else
    let kind := leAt bs 0 1
    let seq := leAt bs 2 2
    let d := { d with lane := { d.lane with link := { k with unacked := dropAcked k.txNext (leAt bs 4 2) k.unacked } } }
    let d := if (leAt bs 6 2).testBit 0 then d.replay else d
    if kind = 0 ∨ kind = 9 ∨ kind = 11 ∨ d.lane.link.up = false then d
    else if seq = k.rxNext then
      { d with lane := { d.lane with link := { d.lane.link with rxNext := flitNext seq } } }.emit (.flitAck (flitNext seq) true)
    else d.emit (.flitAck k.rxNext false)

/-- R318, R357: a message that leaves takes the next Seq and waits for its acknowledgement; heartbeats and fatal messages
carry none. -/
def LinkSt.send (k : LinkSt) (m : PairOut) : LinkSt :=
  match m with
  | .heartbeat _ => k
  | .fatal => k
  | _ => { k with txNext := flitNext k.txNext, unacked := (k.unacked ++ [(k.txNext, 0, m)]) }

/-! ### Host lanes (R348 to R350) -/

/-- Host lane `l` may run: enabled, REFCLK present, and a base MAC address configured (Table 106). -/
def Dev.hostLaneRuns (d : Dev) (l : Nat) : Bool :=
  d.lane.refclk && decide (d.rd (Fld.LANE_CTRL.Enable l) = 1) && d.boot.cfg.baseMac.isSome

/-- R349: the rate a port begins with. -/
def Dev.firstRate (d : Dev) (p : Nat) : Nat := if d.rd (Fld.NET_PCTRL.Speed p) = 1 then 1 else 0

/-- A notice's rate in Gb/s. -/
def Dev.rate (d : Dev) (p : Nat) : Nat := if d.rd (Fld.NET_PSTAT.Rate10 p) = 1 then 10 else 25

/-- R348: a host lane adapts from the beginning. -/
def Dev.beginAdapt (d : Dev) (l : Nat) : Dev :=
  if d.hostLaneRuns l then
    (((d.wr (Fld.LANE_STAT.State l) 2).wr (Fld.NET_PSTAT.BlockLock l) 0).wr (Fld.NET_PSTAT.HiBer l) 0).wr
      (Fld.NET_PSTAT.Rate10 l) (d.firstRate l)
  else d

/-- R348, R350: an up host lane goes down. -/
def Dev.portDown (d : Dev) (l : Nat) : Dev :=
  if d.rd (Fld.NET_PSTAT.LinkUp l) = 1 then
    let r := d.rate l
    (((d.wr (Fld.NET_PSTAT.LinkUp l) 0).wr (Fld.NET_PSTAT.BlockLock l) 0).sticky Fld.LANE_ERR.LinkDrop).notice
      Nt.LinkDown [(1, l), (1, r)]
  else d

/-- R348: a host lane goes down and adapts again. -/
def Dev.retrainHost (d : Dev) (l : Nat) : Dev :=
  let d := d.portDown l
  if d.rd (Fld.LANE_STAT.State l) = 0 then d else d.beginAdapt l

/-- R361: the link-local address of a port by the modified EUI-64 rule. -/
def linkLocal (mac : Nat) : Nat :=
  0xFE80 * 2 ^ 112 + ((bitsOf mac 47 24) ^^^ 0x020000) * 2 ^ 40 + 0xFFFE * 2 ^ 24 + bitsOf mac 23 0

/-- R360: a port's own MAC address. -/
def Dev.portMac (d : Dev) (p : Nat) : Nat := d.rd Fld.NET_MACLO.MacLo + d.rd Fld.NET_MACHI.MacHi * 2 ^ 32 + p

/-- R341, R360: the device uses the pair addresses. -/
def Dev.usesPair (d : Dev) : Bool := d.pair.mode && decide (d.pair.role = .striker)

/-- R361: on link-up the addresses in use are announced on the port. -/
def Dev.announceOn (d : Dev) (p : Fin 4) : Dev :=
  let mac := BitVec.ofNat 48 (d.portMac p.val)
  let d := match d.boot.cfg.ip4 with
    | some a => d.sendFrame p (.announceAddress p mac false a)
    | none => d
  let d := match d.boot.cfg.ip6 with
    | some a => d.sendFrame p (.announceAddress p mac true a)
    | none => d
  let d := d.sendFrame p (.announceAddress p mac true (linkLocal (d.portMac p.val)))
  if d.usesPair then d.announcePairOn p else d

/-- R348, R350, R361: a host lane comes up. -/
def Dev.portUp (d : Dev) (p : Fin 4) : Dev :=
  let d := (d.wr (Fld.LANE_STAT.State p.val) 3).wr (Fld.NET_PSTAT.LinkUp p.val) 1
  (d.notice Nt.LinkUp [(1, p.val), (1, d.rate p.val)]).announceOn p

/-- R348: the lane is up once it has block lock and FOM at or above Floor. -/
def Dev.tryUp (d : Dev) (p : Fin 4) : Dev :=
  if d.rd (Fld.LANE_STAT.State p.val) = 2 ∧ d.rd (Fld.NET_PSTAT.BlockLock p.val) = 1 ∧
      d.rd (Fld.NET_PSTAT.HiBer p.val) = 0 ∧ d.rd Fld.LANE_FOM.Floor ≤ d.rd (Fld.LANE_STAT.Fom p.val) then
    d.portUp p
  else d

/-- R348, R352: a lane's receiver sees signal after Off. -/
def Dev.laneSignal (d : Dev) (l : Fin 12) : Dev :=
  if d.rd (Fld.LANE_STAT.State l.val) ≠ 0 then d
  else if l.val < 4 then d.beginAdapt l.val
  else if d.hasPairLanes then (d.wake 4 4).beginTraining (Fin.ofNat 8 (l.val - 4))
  else d

/-- R348: adaptation has run for 50 ms. -/
def Dev.hostAdaptTimeout (d : Dev) (p : Fin 4) (fom : Nat) : Dev :=
  if d.rd (Fld.LANE_STAT.State p.val) = 2 then (d.wr (Fld.LANE_STAT.Fom p.val) (min 255 fom)).tryUp p else d

/-- R348: block lock is gained. -/
def Dev.blockLock (d : Dev) (p : Fin 4) (fom : Nat) (hiBer : Bool) : Dev :=
  if d.rd (Fld.LANE_STAT.State p.val) = 2 then
    (((d.wr (Fld.NET_PSTAT.BlockLock p.val) 1).wr (Fld.NET_PSTAT.HiBer p.val) (if hiBer then 1 else 0)).wr
      (Fld.LANE_STAT.Fom p.val) (min 255 fom)).tryUp p
  else d

/-- R348: FOM below Floor for 10 ms (0) or a high bit-error rate (1): the lane goes down and retrains. -/
def Dev.linkDrop (d : Dev) (p : Fin 4) : Dev := if d.rd (Fld.LANE_STAT.State p.val) = 3 then d.retrainHost p.val else d

/-- R349: an Auto port without block lock tries the other rate. -/
def Dev.autoSwitch (d : Dev) (p : Fin 4) : Dev :=
  if 2 ≤ d.rd (Fld.NET_PCTRL.Speed p.val) ∧ d.rd (Fld.NET_PSTAT.BlockLock p.val) = 0 ∧ d.rd (Fld.LANE_STAT.State p.val) = 2 then
    d.wr (Fld.NET_PSTAT.Rate10 p.val) (1 - d.rd (Fld.NET_PSTAT.Rate10 p.val))
  else d

/-- R377: LANE_CTRLl.Retrain: the lane, or the whole link on a pair lane. -/
def Dev.laneRetrain (d : Dev) (l : Nat) : Dev := if l < 4 then d.retrainHost l else d.linkLoss

/-- R377: LANE_CTRLl.Enable cleared: the lane is Off. -/
def Dev.laneOff (d : Dev) (l : Nat) : Dev :=
  let d := if l < 4 then d.portDown l else if d.lane.link.up then d.linkLoss else d
  d.wr (Fld.LANE_STAT.State l) 0

/-- R345: REFCLK is missing: every lane is Off. -/
def Dev.refclkLoss (d : Dev) : Dev :=
  let d := { d with lane := { d.lane with refclk := false } }
  let d := d.sticky Fld.LANE_ERR.RefClk
  (List.range (if d.hasPairLanes then 12 else 4)).foldl Dev.laneOff d

/-- R345: REFCLK has returned: the lanes train. -/
def Dev.refclkReturn (d : Dev) : Dev :=
  if d.lane.refclk then d
  else
    let d := { d with lane := { d.lane with refclk := true } }
    let d := (List.range 4).foldl Dev.beginAdapt d
    pairLanes.foldl Dev.beginTraining d

/-! ### Frames the device answers itself (R358, R361) -/

/-- A frame arrives on a host port: it is counted and wakes HOST (R122). -/
def Dev.frameIn (d : Dev) (p : Nat) : Dev := (d.bump (Fld.NET_RXFRM.Count p)).wake 3 2

/-- R361: the IPv4 addresses the device answers for on a port, with the MAC address it answers with. -/
def Dev.owns4 (d : Dev) (p ip : Nat) : Option Nat :=
  if d.boot.cfg.ip4 = some ip then some (d.portMac p)
  else if d.usesPair ∧ d.boot.cfg.pairIp4 = some ip then some d.pairMac
  else none

/-- R361: the same for IPv6. -/
def Dev.owns6 (d : Dev) (p ip : Nat) : Option Nat :=
  if d.boot.cfg.ip6 = some ip ∨ linkLocal (d.portMac p) = ip then some (d.portMac p)
  else if d.usesPair ∧ d.boot.cfg.pairIp6 = some ip then some d.pairMac
  else none

/-- R361: an ARP request. -/
def Dev.arpRequest (d : Dev) (p : Fin 4) (mac : BitVec 48) (sender target : Nat) : Dev :=
  match d.owns4 p.val target with
  | some m => d.sendFrame p (.arp p mac (BitVec.ofNat 48 m) target sender)
  | none => d

/-- R361: a neighbour solicitation. -/
def Dev.neighbourSolicitation (d : Dev) (p : Fin 4) (mac : BitVec 48) (sender target : Nat) : Dev :=
  match d.owns6 p.val target with
  | some m => d.sendFrame p (.neighbour p mac (BitVec.ofNat 48 m) target sender)
  | none => d

/-- R361: an echo request of up to 1,472 bytes to an address of the device. -/
def Dev.echoRequest (d : Dev) (p : Fin 4) (ep : Endpoint) (target : Nat) (data : Bytes) : Dev :=
  let mine := if ep.v6 then (d.owns6 p.val target).isSome else (d.owns4 p.val target).isSome
  if mine && decide (data.length ≤ 1472) then d.sendFrame p (.echoReply p ep target data) else d

/-- R358: a PAUSE or PFC frame. -/
def Dev.pauseFrame (d : Dev) (p : Fin 4) : Dev := (d.bump (Fld.NET_PAUSE.Count p.val)).wake 3 2

/-- R358, R84, R87, R437: a discarded frame or datagram is counted, and wakes HOST. -/
def Dev.frameDiscard (d : Dev) (p : Fin 4) (cause : DiscardCause) : Dev :=
  let d := match cause with
    | .fcs => d.bump (Fld.NET_FCSERR.Count p.val)
    | .runt | .tooLong | .vlan | .other => d.bump (Fld.NET_RXDROP.Count p.val)
    | .ipFragment | .ipOption | .udpChecksum | .ojpHeader | .ojpTooLong | .notReady =>
      (d.bump (Fld.NET_RXFRM.Count p.val)).bump Fld.NET_OJPDROP.Count
  d.wake 3 2

/-- R121, R122: a wake frame: HOST wakes, and a valid frame for this device brings the named domains ON. -/
def Dev.wakeFrame (d : Dev) (p : Fin 4) (payload : Bytes) : Dev :=
  let d := d.frameIn p.val
  let sel := beAt payload 3 1
  let mask := beAt payload 4 4
  if 46 ≤ payload.length ∧ beAt payload 0 2 = 0x574B ∧ beAt payload 2 1 = 1 ∧ (sel = 0xFF ∨ sel = d.devNum % 2) ∧
      mask < 2 ^ 14 ∧ (payload.drop 8).all (fun b => b == 0#8) = true then
    (List.range 14).foldl (fun d k => if mask.testBit k ∧ k ≠ 0 then d.wake k 3 else d) d
  else d

end Sys2Proof.Machine
end

