-- ==== Sys2Proof/Machine/Time.lean ====
section
/-!
DEFINITION. Network time (R364 to R374): the time counter, its increment and steps, PTP and its servo, and the timed outputs.
-/
namespace Sys2Proof.Machine

/-! ### The counter (R367 to R370) -/

/-- The counter in 2^-32 ns. -/
def TimeStamp.fine (t : TimeStamp) : Int := TimeStamp.total t * 2 ^ 32 + t.frac

/-- The counter that a number of 2^-32 ns gives; Seconds are 48 bits. -/
def stampOf (n : Int) : TimeStamp :=
  let u := (n % ((2 ^ 48 * 1000000000 * 2 ^ 32 : Nat) : Int)).toNat
  ⟨u / 2 ^ 32 / 1000000000, u / 2 ^ 32 % 1000000000, u % 2 ^ 32⟩

/-- Four nanoseconds in 2^-32 ns. -/
def fourNs : Nat := 4 * 2 ^ 32

/-- R368: 3.996 ns to 4.004 ns. -/
def clampIncr (i : Nat) : Nat := clampNat 17162689315 17197049053 i

/-- R368: a write of TIME_INCRHI: the increment the next tick applies. -/
def Dev.loadIncr (d : Dev) (whole : Nat) : Dev :=
  let d := d.wr Fld.TIME_INCRHI.Whole whole
  let i := d.rd Fld.TIME_INCRHI.Whole * 2 ^ 32 + d.rd Fld.TIME_INCRLO.Frac
  let d := if clampIncr i = i then d else d.sticky Fld.TIME_ERR.IncrClamp
  { d with time := { d.time with incrNext := some (clampIncr i) } }

/-- R369: a step waits for the next tick. -/
def Dev.addStep (d : Dev) (fine : Int) : Dev := { d with time := { d.time with steps := d.time.steps ++ [fine] } }

/-- R369: a write of TIME_STEPSEC. -/
def Dev.timeStep (d : Dev) (sec : Nat) : Dev :=
  d.addStep ((signedOf 32 sec * 1000000000 + signedOf 32 (d.rd Fld.TIME_STEPNS.Ns)) * 2 ^ 32)

/-- R370: a read of TIME_SECLO captures the counter. -/
def Dev.captureTime (d : Dev) : Dev :=
  (((d.wr Fld.TIME_SECLO.SecLo d.now.sec).wr Fld.TIME_SECHI.SecHi (d.now.sec / 2 ^ 32)).wr Fld.TIME_NS.Ns d.now.ns).wr
    Fld.TIME_FRAC.Frac d.now.frac

/-! ### Timed outputs (R373, R374) -/

/-- Output `k`. -/
def Dev.tout (d : Dev) (k : Fin 8) : Tout := d.time.touts[k]

/-- Output `k` set. -/
def Dev.setTout (d : Dev) (k : Fin 8) (x : Tout) : Dev :=
  { d with time := { d.time with touts := d.time.touts.set k.val x k.isLt } }

/-- The first time T + i Period above a time. -/
def firstEdge (start : Int) (period : Nat) (above : Int) : Int :=
  if above < start then start else start + (Int.fdiv (above - start) period + 1) * period

/-- R373: Arm loads the values and arms the output. -/
def Dev.toutArm (d : Dev) (k : Fin 8) : Dev :=
  let t : Int := ((d.rd (Fld.TIME_TOSECHI.SecHi k.val) * 2 ^ 32 + d.rd (Fld.TIME_TOSECLO.SecLo k.val)) * 1000000000 +
    d.rd (Fld.TIME_TONS.Ns k.val) : Nat)
  let p := d.rd (Fld.TIME_TOPER.Period k.val)
  let w := d.rd (Fld.TIME_TOWID.Width k.val)
  let x := d.tout k
  if d.rd (Fld.TIME_TOCTRL.Periodic k.val) = 1 then
    d.setTout k { x with
      start := t, last := none, next := some (firstEdge t p (TimeStamp.total d.now)), period := some p
      width := if p ≤ w then p - 20 else w }
  else if t ≤ TimeStamp.total d.now then
    (d.setTout k { x with start := t, last := none, next := some 0, period := none, width := w }).sticky
      (Fld.TIME_TOCTRL.Late k.val)
  else d.setTout k { x with start := t, last := none, next := some t, period := none, width := w }

/-- R373: Disarm ends the output after any active pulse. -/
def Dev.toutDisarm (d : Dev) (k : Fin 8) : Dev := d.setTout k { d.tout k with next := none, period := none }

/-- The level of output `k`: Polarity 1 is active low. -/
def Dev.toutLevel (d : Dev) (k : Nat) (active : Bool) : Bool :=
  if d.rd (Fld.TIME_TOCTRL.Polarity k) = 1 then !active else active

/-- The output's pulse begins: it starts at its edge time, or now where a step or a late Arm passed that. -/
def Tout.rise (x : Tout) (now : TimeStamp) (incr : Nat) (edge : Int) : Tout :=
  let from_ := if TimeStamp.fine now - incr < edge * 2 ^ 32 then edge else TimeStamp.total now
  let passed := match x.period with
    | some p => firstEdge x.start p (TimeStamp.total now) - p
    | none => edge
  { x with
    active := some (from_ + x.width), last := some passed
    next := match x.period with
      | some p => some (firstEdge x.start p (TimeStamp.total now))
      | none => none }

/-- R373: the counter has reached an edge time of output `k`: its pulse ends, or the next begins. -/
def Dev.toutEdge (d : Dev) (k : Fin 8) : Dev :=
  let x := d.tout k
  match x.active with
  | some e =>
    if e ≤ TimeStamp.total d.now then (d.setTout k { x with active := none }).emit (.toutEdge k.val (d.toutLevel k.val false)) else d
  | none =>
    match x.next with
    | some t =>
      if t ≤ TimeStamp.total d.now then
        (d.setTout k (x.rise d.now d.time.incr t)).emit (.toutEdge k.val (d.toutLevel k.val true))
      else d
    | none => d

/-- Table 76: what a step does to an output: one that a forward step passes is late, and after a backward step a periodic
output's next edge is the first above the new time that it has not fired. -/
def Dev.toutStepped (d : Dev) (plain new : Int) (k : Fin 8) : Dev :=
  let x := d.tout k
  match x.next with
  | none => d
  | some t =>
    if plain < t ∧ t ≤ new then d.sticky (Fld.TIME_TOCTRL.Late k.val)
    else if new < plain then
      match x.period with
      | some p => d.setTout k { x with next := some (firstEdge x.start p (max new (x.last.getD new))) }
      | none => d
    else d

/-- R367 to R369: a tick of the TIME island's clock. -/
def Dev.timeTick (d : Dev) : Dev :=
  if d.domOn 2 then
    let incr := d.time.incrNext.getD d.time.incr
    let plain := TimeStamp.fine d.now + incr
    let new := stampOf (plain + d.time.steps.foldl (· + ·) 0)
    let steps := d.time.steps
    let d := { d with now := new, time := { d.time with incr := incr, incrNext := none, steps := [] } }
    if steps = [] then d
    else
      let d := d.wr Fld.TIME_STEPCNT.Count (d.rd Fld.TIME_STEPCNT.Count + steps.length)
      ([0, 1, 2, 3, 4, 5, 6, 7] : List (Fin 8)).foldl (fun d k => d.toutStepped (TimeStamp.total (stampOf plain)) (TimeStamp.total new) k) d
  else d

/-! ### Masters (R364, R365) -/

/-- A PTP state set. -/
def Dev.setPtp (d : Dev) (x : PtpSt) : Dev := { d with time := { d.time with ptp := x } }

/-- R364, R365, R372: PTP messages of this port, transport and domain are taken. -/
def Dev.ptpHears (d : Dev) (port : Fin 4) (transport domain : Nat) : Bool :=
  let t := d.rd Fld.TIME_PTPCTRL.Transport
  decide (d.rd Fld.TIME_PTPCTRL.Enable = 1) && !d.isKeeper && decide (d.rd Fld.TIME_PTPCTRL.Domain = domain) &&
    (d.rd Fld.TIME_PTPCTRL.PortMask).testBit port.val && (t == 0 || t == transport) &&
    decide (d.rd (Fld.NET_PSTAT.LinkUp port.val) = 1)

/-- The dataset in the order the best master clock algorithm compares it, the sender last. -/
def PtpAnnounce.rank (a : PtpAnnounce) : List Nat :=
  [a.priority1, a.clockClass, a.accuracy, a.variance, a.priority2, a.identity, a.steps, a.source]

/-- The first of two lists of numbers of one length comes before the second. -/
def listBefore : List Nat → List Nat → Bool
  | [], _ => false
  | _ :: _, [] => false
  | a :: as, b :: bs => decide (a < b) || (a == b && listBefore as bs)

/-- The best of the masters heard. -/
def bestMaster : List PtpAnnounce → Option PtpAnnounce
  | [] => none
  | a :: l =>
    match bestMaster l with
    | none => some a
    | some b => if listBefore (PtpAnnounce.rank b) (PtpAnnounce.rank a) then some b else some a

/-- R365: the best master, on the port in use while it is heard there, else on the lowest. -/
def PtpSt.choice (x : PtpSt) : Option (Nat × Fin 4) :=
  match bestMaster x.masters with
  | none => none
  | some b =>
    let on := fun (p : Fin 4) => x.masters.any (fun a => a.source == b.source && a.port == p)
    match x.chosen with
    | some (s, p) =>
      if s = b.source ∧ on p = true then some (s, p) else (([0, 1, 2, 3] : List (Fin 4)).find? on).map (fun q => (b.source, q))
    | none => (([0, 1, 2, 3] : List (Fin 4)).find? on).map (fun q => (b.source, q))

/-- R365: the choice of master and port made again; an exchange with a former master is dropped. -/
def Dev.chooseMaster (d : Dev) : Dev :=
  let x := d.time.ptp
  let c := x.choice
  if c = x.chosen then d
  else
    let d := if x.chosen.isSome then d.sticky Fld.TIME_ERR.MasterChange else d
    let d := match c with
      | some (_, p) => d.wr Fld.TIME_PTPSTAT.Port p.val
      | none => d
    d.setPtp { x with chosen := c, exch := none }

/-- R365: masters no longer heard, after a port went down or TIME_PTPCTRL changed, are forgotten. -/
def Dev.ptpResettle (d : Dev) : Dev :=
  let x := d.time.ptp
  (d.setPtp { x with masters := x.masters.filter (fun a => d.ptpHears a.port a.transport a.domain) }).chooseMaster

/-- R365: an Announce. -/
def Dev.announce (d : Dev) (a : PtpAnnounce) : Dev :=
  if d.ptpHears a.port a.transport a.domain then
    let x := d.time.ptp
    let rest := x.masters.filter (fun b => !(b.source == a.source && b.port == a.port))
    (d.setPtp { x with masters := rest ++ [a] }).chooseMaster
  else d

/-- R365: a master's Announce has timed out: on the port in use, where it is the chosen one. -/
def Dev.announceTimeout (d : Dev) (source : Nat) : Dev :=
  let x := d.time.ptp
  let gone := fun (b : PtpAnnounce) =>
    b.source == source &&
      (match x.chosen with
        | some (s, p) => !(s == source) || b.port == p
        | none => true)
  (d.setPtp { x with masters := x.masters.filter (fun b => !gone b) }).chooseMaster

/-! ### Exchanges (R366, R371) -/

/-- The counter in 1/65,536 ns. -/
def TimeStamp.coarse (t : TimeStamp) : Int := TimeStamp.total t * 65536 + (t.frac / 65536 : Nat)

/-- Table 75: ingress and egress corrections of a port, in tenths of a nanosecond. -/
def Dev.portCorr (d : Dev) (p : Fin 4) : Nat × Nat :=
  if d.rd Fld.TIME_PTPCTRL.ApplyCorr = 0 then (0, 0)
  else if d.rd (Fld.NET_PSTAT.Rate10 p.val) = 1 then
    (if d.rd (Fld.NET_PCTRL.Fec p.val) = 1 then (2732, 1548) else (724, 512))
  else if d.rd (Fld.NET_PCTRL.Fec p.val) = 1 then (1192, 660)
  else (388, 256)

/-- Tenths of a nanosecond in 1/65,536 ns. -/
def tenths (n : Nat) : Int := (n * 65536 / 10 : Nat)

/-- A PTP message of the chosen master on the port in use. -/
def Dev.ptpTakes (d : Dev) (m : PtpMsg) : Bool :=
  d.ptpHears m.port m.transport m.domain && decide (d.time.ptp.chosen = some (m.source, m.port))

/-- R371: Locked's runs after an exchange. -/
def Dev.judgeLock (d : Dev) (offset : Int) : Dev :=
  let x := d.time.ptp
  let a := offset.natAbs
  let good := if a < 100 * 65536 then x.goodRun + 1 else 0
  let bad := if 1000 * 65536 < a then x.badRun + 1 else 0
  let d := d.setPtp { x with goodRun := good, badRun := bad }
  if 16 ≤ good then d.wr Fld.TIME_PTPSTAT.Locked 1 else if 16 ≤ bad then d.wr Fld.TIME_PTPSTAT.Locked 0 else d

/-- R371: 500 ppm of 4 ns, in 2^-32 ns. -/
def slewLimit : Int := 8589934

/-- R371: the stoker's servo: a step above 1 ms, else an adjustment of the increment that the spec bounds and does not
state. -/
def Dev.servo (d : Dev) (offset : Int) : Dev :=
  let d := if 1000000 * 65536 < offset.natAbs then d.addStep (- offset * 65536)
    else
      let adj := clampInt (-slewLimit) slewLimit (Config.slewAdjust d.free)
      { d.draw with time := { d.time with incrNext := some (fourNs + adj).toNat } }
  d.judgeLock offset

/-- R371: an exchange whose four timestamps are known: offset, path delay, Seq, and the servo where the stoker steers. -/
def Dev.completeExchange (d : Dev) : Dev :=
  let x := d.time.ptp
  match x.exch with
  | none => d
  | some e =>
    match e.t1, e.t4 with
    | some t1, some t4 =>
      let offset := Int.fdiv ((e.t2 - t1) - (t4 - e.t3)) 2
      let delay := Int.fdiv ((e.t2 - t1) + (t4 - e.t3)) 2
      let d := d.setPtp { x with exch := none, seq := (x.seq + 1) % 2 ^ 32, stamps := [t1, e.t2, e.t3, t4] }
      let d := d.wr Fld.TIME_OFFSET.Ns (patternOf 32 (clampInt (-2147483648) 2147483647 (Int.fdiv offset 65536)))
      let d := d.wr Fld.TIME_PATHDLY.Ns (clampInt 0 4294967295 (Int.fdiv delay 65536)).toNat
      if d.rd Fld.TIME_PTPCTRL.HostServo = 1 then d else d.servo offset
    | _, _ => d

/-- R371: Sync: t2, and t1 of a one-step master; Sync has come, so Holdover ends. -/
def Dev.ptpSync (d : Dev) (m : PtpMsg) : Dev :=
  if d.ptpTakes m then
    let t1 := if m.twoStep then none else some (TimeStamp.coarse m.stamp + m.correction)
    let t2 := TimeStamp.coarse m.arrival - tenths (d.portCorr m.port).1
    let d := d.wr Fld.TIME_PTPSTAT.Holdover 0
    d.setPtp { d.time.ptp with transport := m.transport, exch := some ⟨m.seqId, t1, t2, m.correction, none, 0, none⟩ }
  else d

/-- R371: Follow_Up: t1 of a two-step master. -/
def Dev.ptpFollowUp (d : Dev) (m : PtpMsg) : Dev :=
  match d.time.ptp.exch with
  | some e =>
    if d.ptpTakes m && e.syncSeq == m.seqId && e.t1.isNone then
      (d.setPtp { d.time.ptp with
        exch := some { e with t1 := some (TimeStamp.coarse m.stamp + e.corr + m.correction) } }).completeExchange
    else d
  | none => d

/-- R371: Delay_Req is sent once per Sync; t3. -/
def Dev.delayReqSend (d : Dev) : Dev :=
  let x := d.time.ptp
  match x.exch, x.chosen with
  | some e, some (_, p) =>
    if e.reqSeq.isNone && d.ptpHears p x.transport (d.rd Fld.TIME_PTPCTRL.Domain) then
      let t3 := TimeStamp.coarse d.now + tenths (d.portCorr p).2
      (d.setPtp { x with
        reqNext := (x.reqNext + 1) % 65536, exch := some { e with reqSeq := some x.reqNext, t3 := t3 } }).sendFrame p
        (.delayReq p x.transport x.reqNext)
    else d
  | _, _ => d

/-- R371: Delay_Resp: t4. -/
def Dev.ptpDelayResp (d : Dev) (m : PtpMsg) : Dev :=
  match d.time.ptp.exch with
  | some e =>
    if d.ptpTakes m && decide (e.reqSeq = some m.seqId) then
      (d.setPtp { d.time.ptp with exch := some { e with t4 := some (TimeStamp.coarse m.stamp - m.correction) } }).completeExchange
    else d
  | none => d

/-- R371: no Sync for 4 Sync intervals. -/
def Dev.holdover (d : Dev) : Dev :=
  if d.rd Fld.TIME_PTPCTRL.Enable = 1 ∧ d.isKeeper = false ∧ d.rd Fld.TIME_PTPCTRL.HostServo = 0 then
    d.wr Fld.TIME_PTPSTAT.Holdover 1
  else d

/-- R370, R371: a read of TIME_EXSEQ captures the window. -/
def Dev.captureExchange (d : Dev) : Dev :=
  let x := d.time.ptp
  let d := d.wr Fld.TIME_EXSEQ.Seq x.seq
  (List.range 4).foldl (fun d k =>
    let t := (x.stamps.getD k 0).toNat
    let ns := t / 65536
    ((d.wr (Fld.TIME_EXS.Sec k) (ns / 1000000000)).wr (Fld.TIME_EXN.Ns k) (ns % 1000000000)).wr (Fld.TIME_EXF.Frac k)
      (t % 65536)) d

/-! ### The keeper's counter (R322) -/

/-- R322: a keeper shows its offset from the striker's sample and steers to it. -/
def Dev.timeMessage (d : Dev) (t : TimeStamp) : Dev :=
  if d.isKeeper then
    let off := clampInt (-2147483648) 2147483647 (Int.fdiv (TimeStamp.fine d.now - TimeStamp.fine t) (2 ^ 32))
    { (d.wr Fld.PAIR_TIMEOFF.Offset (patternOf 32 off)) with now := stampOf (TimeStamp.fine t) }
  else d

end Sys2Proof.Machine
end

