-- ==== Sys2Proof/Machine/WindowTables.lean ====
section
/-!
DEFINITION. The NZT and THR windows (R164, R168, R169, R173, R174, R192, R195): reads and writes of their words.
-/
namespace Sys2Proof.Machine

/-- R466: an access to the windows wakes RASTER, in whose SRAM they lie. -/
def Dev.touchTables (d : Dev) : Dev := d.wake 7 7

/-- R164, R173: the NZT word of nozzle `z`: Gain and Offset of the shadow copy, and the pending State. -/
def Dev.nztWord (d : Dev) (z : Nat) : Word :=
  if z ≤ d.part.maxNozzle then
    BitVec.ofNat 32 ((d.reg (0x01000000 + 4 * z)).toNat % 65536 + 65536 * (d.pendingState z).toNat)
  else 0#32

/-- R174: the State part of an NZT write reaches the pending map; R176: a host's write is remembered against a test firing. -/
def Dev.nztState (d : Dev) (z : Nat) (value : Word) (source : Nat) : Dev :=
  { d with ras := { d.ras with hostWrites := insNat z d.ras.hostWrites } }.setNozzleState z
    (BitVec.ofNat 2 (bitsOf value.toNat 17 16)) source

/-- R169: the correction part of a port's plane is pending. -/
def Dev.corrBusy (d : Dev) (p : Nat) : Bool :=
  match d.planeOf p with
  | some n => decide ((d.ras.corrWait ||| d.ras.corrCopy) &&& bit8 n ≠ 0)
  | none => false

/-- R195: the halftone part of a plane is pending. -/
def Dev.htBusy (d : Dev) (n : Nat) : Bool := decide ((d.ras.htWait ||| d.ras.htCopy) &&& bit8 n ≠ 0)

/-- R169: a discarded write of a correction field is reported with its address. -/
def Dev.corrDiscard (d : Dev) (a : Nat) : Dev :=
  (d.sticky Fld.RAS_ERR.WriteWhilePending).notice Nt.WriteWhilePendingRAS [(4, a)]

/-- R195: a discarded write of a halftone field is reported with its address. -/
def Dev.htDiscard (d : Dev) (a : Nat) : Dev :=
  (d.sticky Fld.HT_ERR.WriteWhilePending).notice Nt.WriteWhilePendingHT [(4, a)]

/-- R164, R169, R174: a write of an NZT word; whether its Gain and Offset were discarded. -/
def Dev.nztPut (d : Dev) (z : Nat) (value : Word) (source : Nat) : Dev × Bool :=
  let a := 0x01000000 + 4 * z
  if d.part.maxNozzle < z then (d, false)
  else
    let d := d.nztState z value source
    if d.corrBusy (z / 4096) then (d.corrDiscard a, true)
    else (d.setReg a (BitVec.ofNat 32 (value.toNat % 65536)), false)

/-- R192, R195: a write of a THR word; whether it was discarded. -/
def Dev.thrPut (d : Dev) (a : Nat) (value : Word) : Dev × Bool :=
  if d.htBusy ((a - 0x02000000) / 0x10000) then (d.htDiscard a, true) else (d.setReg a value, false)

/-- R446, R448: a table word that configuration writes; the nozzle states it gives are adopted with the overlay. -/
def Dev.tableLoad (d : Dev) (a : Nat) (value : Word) : Dev :=
  if !isNzt a then d.setReg a value
  else if d.part.maxNozzle < nztNozzle a then d
  else d.setReg a (BitVec.ofNat 32 (value.toNat % 65536))

/-- A word of the NZT and THR windows as read. -/
def Dev.tableWord (d : Dev) (a : Nat) : Word := if isNzt a then d.nztWord (nztNozzle a) else d.reg a

/-- A write of a word of the NZT and THR windows; whether R169 discarded any of it. -/
def Dev.tablePut (d : Dev) (a : Nat) (value : Word) (source : Nat) : Dev × Bool :=
  if isNzt a then d.touchTables.nztPut (nztNozzle a) value source
  else if isThr a then d.touchTables.thrPut a value
  else (d, false)

end Sys2Proof.Machine
end

