-- ==== Sys2Proof/Machine/Dma.lean ====
section
/-!
DEFINITION. The DMA engine, its completion ring and the check units (R411 to R426), and the mirroring of job-store writes
that it shares with the hosts' messages (R319).
-/
namespace Sys2Proof.Machine

/-! ### Mirroring (R318, R319) -/

/-- A striker with a partner to mirror to: paired, or with a keeper that resynchronises (R339). -/
def Dev.mirrors (d : Dev) : Bool :=
  d.pair.mode && decide (d.pair.role = .striker) && (d.inPair || decide (d.pair.partnerState = 3))

/-- R319: whole lines as the store holds them go to the keeper; whose completion waits for their acknowledgement. -/
def Dev.sendMirror (d : Dev) (m : Mem) (lines : List Nat) (session : Nat) (result : Option (Nat × Nat × Nat)) : Dev :=
  (d.setPair (fun p => { p with mirrors := p.mirrors ++ [⟨session, lines.length, result⟩] })).emit
    (.pair (.mirror (lines.map (fun l => (l, m.raw l 64, m.poison.contains l)))))

/-- R318: a register write of the pair goes to the keeper. -/
def Dev.sendRegister (d : Dev) (a : Nat) (v : Word) : Dev := if d.mirrors then d.emit (.pair (.register a v)) else d

/-! ### Channels -/

/-- Channel `c`. -/
def Dev.dmaChan (d : Dev) (c : Nat) : DmaChan := vgetD d.dma.chans c ⟨.none, none, none, false⟩

/-- Channel `c` changed. -/
def Dev.modDma (d : Dev) (c : Nat) (f : DmaChan → DmaChan) : Dev :=
  { d with dma := { d.dma with chans := vmodN d.dma.chans c f } }

/-- The 16 channels' numbers. -/
def dmaChannels : List Nat := List.range 16

/-! ### Descriptors (R413) -/

/-- Mode is gather. -/
def DmaDesc.gather (x : DmaDesc) : Bool := decide (bitsOf x.control 1 0 = 1)
/-- SrcSpace. -/
def DmaDesc.srcSpace (x : DmaDesc) : Nat := bitsOf x.control 5 4
/-- DstSpace. -/
def DmaDesc.dstSpace (x : DmaDesc) : Nat := bitsOf x.control 7 6
/-- Trigger. -/
def DmaDesc.trigger (x : DmaDesc) : Nat := bitsOf x.control 10 8
/-- NoRecord. -/
def DmaDesc.noRecord (x : DmaDesc) : Bool := x.control.testBit 11
/-- TrigArg. -/
def DmaDesc.trigArg (x : DmaDesc) : Nat := bitsOf x.control 15 12
/-- CrcUnit. -/
def DmaDesc.unit (x : DmaDesc) : Nat := bitsOf x.control 17 16
/-- The source bytes are fed to the unit: CrcFeed, or the CRC sink as destination (Table 92). -/
def DmaDesc.feeds (x : DmaDesc) : Bool := x.control.testBit 18 || decide (x.dstSpace = 2)
/-- CrcLast. -/
def DmaDesc.last (x : DmaDesc) : Bool := x.control.testBit 19
/-- The bytes of one element; in copy mode the whole is one. -/
def DmaDesc.elem (x : DmaDesc) : Nat := if x.gather then bitsOf x.control 31 20 + 1 else x.count
/-- The bytes the destination takes. -/
def DmaDesc.total (x : DmaDesc) : Nat := if x.gather then x.count * x.elem else x.count
/-- The descriptor names its unit. -/
def DmaDesc.namesUnit (x : DmaDesc) : Bool := x.feeds || x.last

/-- R413, R415: malformed; `reserved` is the byte at 0x1D. -/
def DmaDesc.malformed (x : DmaDesc) (reserved : Nat) : Bool :=
  reserved != 0 || decide (bitsOf x.control 3 2 ≠ 0) || decide (2 ≤ bitsOf x.control 1 0) ||
    decide (x.gather = false ∧ (bitsOf x.control 31 20 ≠ 0 ∨ x.index ≠ 0)) ||
    decide (x.gather = true ∧ (x.index % 4 ≠ 0 ∨ x.srcSpace = 1)) || decide (2 ≤ x.srcSpace) || decide (x.dstSpace = 3) ||
    decide (5 ≤ x.trigger) || decide (x.trigger = 0 ∧ x.trigArg ≠ 0) ||
    decide ((x.trigger = 1 ∨ x.trigger = 3 ∨ x.trigger = 4) ∧ 8 ≤ x.trigArg)

/-- Table 91: the descriptor in 32 bytes. -/
def dmaDescOf (slot : Nat) (bs : Bytes) (bad : Bool) : DmaDesc :=
  let x : DmaDesc := ⟨slot, leAt bs 0 4, leAt bs 4 4, leAt bs 8 8, leAt bs 16 8, leAt bs 24 5, leAt bs 30 2, false⟩
  { x with bad := bad || x.malformed (leAt bs 29 1) }

/-! ### Check units (R423 to R426) -/

/-- A unit's state set. -/
def Dev.modUnit (d : Dev) (u : Nat) (f : CrcUnit → CrcUnit) : Dev :=
  { d with dma := { d.dma with units := vmodN d.dma.units u f } }

/-- A unit. -/
def Dev.crcUnit (d : Dev) (u : Nat) : CrcUnit := vgetD d.dma.units u ⟨none, 0, 0⟩

/-- Table 97: the register's first content. -/
def crcInit (algo : Nat) : Nat := if algo < 2 then 0xFFFFFFFF else if algo = 2 then 0xFFFF else 0

/-- Table 97: bytes taken into the register. -/
def crcTake (algo acc : Nat) (bs : Bytes) : Nat :=
  if algo = 0 then crcRunR 0xEDB88320 acc bs
  else if algo = 1 then crcRunR polyCrc32c acc bs
  else if algo = 2 then crcRunL 16 0x1021 acc bs
  else crcRunL 64 0x42F0E1EBA9EA3693 acc bs

/-- Table 97: the result of a register's content. -/
def crcResult (algo acc : Nat) : Nat := if algo < 2 then acc ^^^ 0xFFFFFFFF else acc

/-- Table 97: the width of an algorithm. -/
def crcWidth (algo : Nat) : Nat := if algo < 2 then 32 else if algo = 2 then 16 else 64

/-- R424: the unit is claimed by another channel. -/
def Dev.unitHeld (d : Dev) (u c : Nat) : Bool :=
  match (d.crcUnit u).claim with
  | some o => o != c
  | none => false

/-- R424: an Idle or Done unit is opened for channel `c`. -/
def Dev.openUnit (d : Dev) (u c : Nat) : Dev :=
  let st := d.rd (Fld.CRC_STAT.State u)
  if st = 0 ∨ st = 2 then
    ((d.modUnit u (fun _ => ⟨some c, crcInit (d.rd (Fld.CRC_CTRL.Algo u)), 0⟩)).wr (Fld.CRC_STAT.State u) 1).wr
      (Fld.CRC_STAT.Owner u) c
  else d

/-- R424, R420: bytes fed to the unit that channel `c` claims; damaged input makes it Invalid. -/
def Dev.feedUnit (d : Dev) (u c : Nat) (bs : Bytes) (invalid : Bool) : Dev :=
  let x := d.crcUnit u
  if x.claim = some c then
    let d := d.modUnit u (fun x => ⟨x.claim, crcTake (d.rd (Fld.CRC_CTRL.Algo u)) x.acc bs, x.len + bs.length⟩)
    if invalid then d.wr (Fld.CRC_STAT.State u) 3 else d
  else d

/-- R425: a unit is closed for a descriptor of channel `c`; the flags of its record. -/
def Dev.closeUnit (d : Dev) (u c tag : Nat) : Dev × Nat :=
  let x := d.crcUnit u
  let st := d.rd (Fld.CRC_STAT.State u)
  let algo := d.rd (Fld.CRC_CTRL.Algo u)
  let opened := decide (st = 1 ∨ st = 3)
  let res := crcResult algo (if opened then x.acc else crcInit algo)
  let len := if opened then x.len else 0
  let exp := (d.rd (Fld.CRC_EXPLO.ExpLo u) + 2 ^ 32 * d.rd (Fld.CRC_EXPHI.ExpHi u)) % 2 ^ crcWidth algo
  let items := [(1, u), (1, c), (4, tag), (8, exp), (8, res), (8, len)]
  let d := d.modUnit u (fun x => { x with claim := none })
  let d := (((d.wr (Fld.CRC_RESLO.ResLo u) res).wr (Fld.CRC_RESHI.ResHi u) (res / 2 ^ 32)).wr (Fld.CRC_LENLO.LenLo u) len).wr
    (Fld.CRC_LENHI.LenHi u) (len / 2 ^ 32)
  if st = 3 then
    (((d.wr (Fld.CRC_STAT.Invalid u) 1).sticky Fld.CRC_ERR.Invalid).notice Nt.CrcInvalid items, 2)
  else
    let d := (d.wr (Fld.CRC_STAT.State u) 2).wr (Fld.CRC_STAT.Invalid u) 0
    if d.rd (Fld.CRC_CTRL.Compare u) = 0 then (d, 0)
    else if exp = res then (d.wr (Fld.CRC_STAT.Mismatch u) 0, 0)
    else (((d.wr (Fld.CRC_STAT.Mismatch u) 1).sticky Fld.CRC_ERR.Mismatch).notice Nt.CrcMismatch items, 1)

/-- R426: CRC_CTRLu.Reset. -/
def Dev.resetUnit (d : Dev) (u : Nat) : Dev := (d.modUnit u (fun _ => ⟨none, 0, 0⟩)).setReg (Adr.CRC_STAT u) 0#32

/-! ### Checks before anything moves (R418, R419) -/

/-- A range of the register window within NZT or THR. -/
def inTables (a n : Nat) : Bool :=
  decide (0x01000000 ≤ a ∧ a + n ≤ 0x01100000) || decide (0x02000000 ≤ a ∧ a + n ≤ 0x02080000)

/-- Two ranges share a byte. -/
def rangesMeet (a n b k : Nat) : Bool := decide (a < b + k ∧ b < a + n)

/-- R416: a copy whose ranges lie in one space and overlap. -/
def DmaDesc.overlaps (x : DmaDesc) : Bool :=
  !x.gather && decide (x.srcSpace = x.dstSpace) && rangesMeet x.src x.count x.dst x.count

/-- A range of a space that Table 94 refuses. -/
def Dev.dmaRangeBad (d : Dev) (space a n unit : Nat) : Bool :=
  if space = 0 then decide (d.jobLimit < a + n)
  else if space = 1 then !(inTables a n) || decide (a % 4 ≠ 0) || decide (unit % 4 ≠ 0)
  else false

/-- R418, R419: the status a descriptor completes with before it moves anything, if one. -/
def Dev.dmaCheck (d : Dev) (x : DmaDesc) : Option Nat :=
  if x.bad then some 2
  else if x.count = 0 then some 1
  else if (!x.gather && d.dmaRangeBad x.srcSpace x.src x.count x.count) || d.dmaRangeBad x.dstSpace x.dst x.total x.elem ||
      (x.gather && decide (d.jobLimit < x.index + 4 * x.count)) then some 3
  else if (x.overlaps && x.feeds) ||
      (x.gather && decide (x.dstSpace = 0) && rangesMeet x.dst x.total x.index (4 * x.count)) then some 4
  else if x.dstSpace = 0 ∧ d.isKeeper = true then some 6
  else none

/-! ### Moving (R416, R417, R420) -/

/-- A movement as it goes: the device and the store, the bytes fed, the bytes done, whether damaged data was met, whether a
window write was discarded, the lines written and the status that stopped it. -/
structure DmaMove where
  dev : Dev
  mem : Mem
  fed : Bytes
  done : Nat
  poisoned : Bool
  invalid : Bool
  discarded : Bool
  lines : List Nat
  stop : Option Nat
  deriving DecidableEq, Repr

/-- R392: damaged data is reported by bus error. -/
def Dev.busErrors (d : Dev) : Bool := !d.pair.mode && decide (d.rd Fld.MEM_CTRL.UncReport = 0)

/-- The lines of a destination that receive a byte of a damaged source line. -/
def taintedLines (src dst n : Nat) (bad : List Nat) : List Nat :=
  bad.flatMap (fun l =>
    let lo := max l src
    let hi := min (l + 64) (src + n)
    linesOf (dst + (lo - src)) (hi - lo))

/-- A word of a window destination: whether any of its source bytes is damaged. -/
def wordTainted (src : Nat) (bad : List Nat) (off : Nat) : Bool := bad.any (fun l => rangesMeet l 64 (src + off) 4)

/-- Words delivered to the register window. -/
def deliverWords (src dst : Nat) (bad : List Nat) : Nat → Bytes → DmaMove → DmaMove
  | off, b0 :: b1 :: b2 :: b3 :: rest, v =>
    if wordTainted src bad off then deliverWords src dst bad (off + 4) rest v
    else
      let w := BitVec.ofNat 32 (leNat [b0, b1, b2, b3])
      let r := v.dev.tablePut (dst + off) w 0
      deliverWords src dst bad (off + 4) rest
        { v with dev := r.1.sendRegister (dst + off) w, discarded := v.discarded || r.2, done := v.done + 4 }
  | _, _, v => v

/-- Bytes delivered to a destination and fed; `bad`: the damaged lines among the source's. -/
def DmaMove.deliver (v : DmaMove) (finds : Finds) (x : DmaDesc) (src dst : Nat) (bs : Bytes) (bad : List Nat) : DmaMove :=
  let v := if x.feeds then { v with fed := v.fed ++ bs, invalid := v.invalid || !bad.isEmpty } else v
  let v := { v with poisoned := v.poisoned || !bad.isEmpty }
  if x.dstSpace = 0 then
    let m := (v.mem.hostWrite finds v.dev.now.sec dst bs).1
    { v with
      dev := v.dev.meetMerge v.mem finds dst bs.length
      mem := (taintedLines src dst bs.length bad).foldl Mem.poisonLine m
      done := v.done + bs.length, lines := v.lines ++ linesOf dst bs.length }
  else if x.dstSpace = 1 then deliverWords src dst bad 0 bs v
  else { v with done := v.done + bs.length }

/-- The bytes of a register-window source: the shadow copy, lowest byte first (R12). -/
def Dev.tableBytes (d : Dev) (a n : Nat) : Bytes :=
  (List.range (n / 4)).flatMap (fun i => natLE 4 (d.tableWord (a + 4 * i)).toNat)

/-- The damaged lines of a store range. -/
def Mem.badLines (m : Mem) (finds : Finds) (a n : Nat) : List Nat := (linesOf a n).filter (m.bad finds)

/-- R416, R420: `n` bytes from place `lo` of a copy; `down` in descending order. -/
def DmaMove.copy (v : DmaMove) (finds : Finds) (x : DmaDesc) (lo n : Nat) (down : Bool) : DmaMove :=
  let src := x.src + lo
  if x.srcSpace = 1 then
    { v with dev := v.dev.touchTables }.deliver finds x src (x.dst + lo) (v.dev.tableBytes src n) []
  else
    let bad := v.mem.badLines finds src n
    let v := { v with dev := (v.dev.wake 5 8).meetLines v.mem finds (linesOf src n) }
    if bad = [] ∨ v.dev.busErrors = false then v.deliver finds x src (x.dst + lo) (v.mem.read src n) bad
    else
      let cut := if down then (bad.foldl max 0 + 64) - src else 0
      let keep := if down then n - cut else (bad.headD src) - src
      let v := v.deliver finds x (src + cut) (x.dst + lo + cut) (v.mem.read (src + cut) keep) []
      { v with stop := some 5, invalid := v.invalid || (x.feeds && decide (x.dstSpace = 2)) }

/-- R417, R420: element `i` of a gather. -/
def DmaMove.element (x : DmaDesc) (finds : Finds) (v : DmaMove) (i : Nat) : DmaMove :=
  if v.stop.isSome then v
  else
    let entry := x.index + 4 * i
    let v := { v with dev := v.dev.meetLines v.mem finds [lineOf entry] }
    if v.mem.bad finds (lineOf entry) then
      if v.dev.busErrors then
        { v with stop := some 5, invalid := v.invalid || (x.feeds && decide (x.dstSpace = 2)) }
      else { v with poisoned := true }
    else
      let src := x.src + leNat (v.mem.read entry 4)
      if v.dev.jobLimit < src + x.elem then { v with stop := some 3 }
      else
        let bad := v.mem.badLines finds src x.elem
        let v := { v with dev := v.dev.meetLines v.mem finds (linesOf src x.elem) }
        if bad ≠ [] ∧ v.dev.busErrors = true then
          { v with stop := some 5, invalid := v.invalid || (x.feeds && decide (x.dstSpace = 2)) }
        else v.deliver finds x src (x.dst + i * x.elem) (v.mem.read src x.elem) bad

/-- R416, R417: the descriptor's movement, or as much of it as Abort lets: `part` is a number of bytes to a line boundary. -/
def dmaMove (d : Dev) (m : Mem) (finds : Finds) (x : DmaDesc) (part : Option Nat) : DmaMove :=
  let v : DmaMove := ⟨d, m, [], 0, false, false, false, [], none⟩
  if x.gather then
    let k := match part with
      | some p => min x.count (p / x.elem)
      | none => x.count
    (List.range k).foldl (DmaMove.element x finds) { v with dev := d.wake 5 8 }
  else
    let down := x.overlaps && decide (x.src < x.dst)
    match part with
    | none => v.copy finds x 0 x.count down
    | some p =>
      let k := if x.count ≤ p then x.count else if down then (x.src + x.count) - lineOf (x.src + x.count - p + 63)
        else lineOf (x.src + p) - x.src
      let k := if x.dstSpace = 1 then k / 4 * 4 else k
      v.copy finds x (if down then x.count - k else 0) k down

/-! ### Completion (R419, R422) -/

/-- DMA_CQSIZE.Entries in use. -/
def Dev.cqSize (d : Dev) : Nat := max 4 (d.rd Fld.DMA_CQSIZE.Entries)

/-- R422: the ring holds Entries − 1 unread records. -/
def Dev.cqFull (d : Dev) : Bool :=
  let n := d.cqSize
  decide (n - 1 ≤ (d.rd Fld.DMA_CQPROD.Prod + n - d.rd Fld.DMA_CQCONS.Cons % n) % n)

/-- R422: the next record of channel `c` is written. -/
def writeRecord (d : Dev) (m : Mem) (c : Nat) (x : DmaDesc) (o : DmaOutcome) : Dev × Mem :=
  let i := d.rd Fld.DMA_CQPROD.Prod
  let a := d.rd Fld.DMA_CQBASELO.BaseLo * 64 + d.rd Fld.DMA_CQBASEHI.BaseHi * 2 ^ 32 + 16 * i
  let bs := natLE 2 x.tag ++ natLE 1 c ++ natLE 1 o.status ++ natLE 4 o.bytes ++ natLE 4 x.slot ++ natLE 2 0 ++
    natLE 2 (o.flags + (if d.dma.phase then 0x8000 else 0))
  let wraps := decide (d.cqSize ≤ i + 1)
  let d := d.wr Fld.DMA_CQPROD.Prod (if wraps then 0 else i + 1)
  let d := { d with dma := { d.dma with phase := if wraps then !d.dma.phase else d.dma.phase } }
  if d.jobLimit < a + 16 then (d, m)
  else
    let m := (m.hostWrite [] d.now.sec a bs).1
    (if d.mirrors then d.sendMirror m [lineOf a] 32 none else d, m)

/-- The channels a completed channel starts: those that wait for its completion, and those that wait for a unit. -/
def Dev.dmaFollowers (d : Dev) (c : Nat) : List Nat :=
  dmaChannels.filter (fun k =>
    let y := d.dmaChan k
    decide (y.phase = .unit) ||
      (decide (y.phase = .trigger) &&
        (match y.desc with
          | some x => decide (x.trigger = 2 ∧ x.trigArg = c)
          | none => false)))

/-- R411, R419: the descriptor of channel `c` is over. -/
def Dev.dmaFinish (d : Dev) (c : Nat) : Dev :=
  let y := d.dmaChan c
  match y.desc, y.outcome with
  | some x, some o =>
    let size := max 1 (d.rd (Fld.DMA_CHSIZE.Entries c))
    let cons := if y.abort then d.rd (Fld.DMA_CHPROD.Prod c) else (x.slot + 1) % size
    let d := ((d.wr (Fld.DMA_CHCONS.Cons c) cons).wr (Fld.DMA_CHSTAT.LastStatus c) o.status).modDma c
      (fun _ => ⟨.none, none, none, false⟩)
    if 2 ≤ o.status ∧ o.status ≤ 6 then (d.wr (Fld.DMA_CHSTAT.Halted c) 1).sticky Fld.DMA_ERR.ChannelHalt else d
  | _, _ => d

/-- R422: every destination write is performed: the record is written, waits for room, or is not wanted. -/
def dmaRecord (d : Dev) (m : Mem) (c : Nat) : Dev × Mem × List Nat :=
  let y := d.dmaChan c
  match y.desc, y.outcome with
  | some x, some o =>
    if x.noRecord = true ∧ o.status ≤ 1 then (d.dmaFinish c, m, (d.dmaFinish c).dmaFollowers c)
    else if d.dma.waiting ≠ [] ∨ d.cqFull = true then
      let d := d.modDma c (fun y => { y with phase := .record })
      let d := { d with dma := { d.dma with waiting := d.dma.waiting ++ [c] } }
      (if d.cqFull then d.sticky Fld.DMA_ERR.CqFull else d, m, [])
    else
      let r := writeRecord d m c x o
      (r.1.dmaFinish c, r.2, (r.1.dmaFinish c).dmaFollowers c)
  | _, _ => (d, m, [])

/-- A descriptor of channel `c` has its outcome; `lines` it wrote are mirrored first (R421, R422). -/
def dmaOutcome (d : Dev) (m : Mem) (c : Nat) (x : DmaDesc) (status bytes flags : Nat) (lines : List Nat) :
    Dev × Mem × List Nat :=
  let r := if x.last ∧ status ≤ 1 then d.closeUnit x.unit c x.tag else (d, 0)
  let d := (r.1.wr (Fld.DMA_CHBYTES.Bytes c) bytes).modDma c
    (fun y => { y with phase := .mirror, outcome := some ⟨status, bytes, flags + r.2⟩ })
  if d.mirrors ∧ lines ≠ [] then (d.sendMirror m lines (16 + c) none, m, []) else dmaRecord d m c

/-- The trigger of channel `c` has occurred, or its unit has been released: it waits for its unit, completes at once, or
moves (R415, R424, R418, R419). -/
def dmaStart (d : Dev) (m : Mem) (c : Nat) : Dev × Mem × List Nat :=
  let y := d.dmaChan c
  match y.desc with
  | none => (d, m, [])
  | some x =>
    if y.phase ≠ .trigger ∧ y.phase ≠ .unit then (d, m, [])
    else if x.bad = false ∧ x.namesUnit = true ∧ d.unitHeld x.unit c = true then
      (d.modDma c (fun y => { y with phase := .unit }), m, [])
    else
      match d.dmaCheck x with
      | some st =>
        let d := if st = 1 ∧ x.feeds then d.openUnit x.unit c else d
        dmaOutcome d m c x st 0 0 []
      | none =>
        let d := if x.feeds then d.openUnit x.unit c else d
        (d.modDma c (fun y => { y with phase := .moving }), m, [])

/-- Channels started one after another, with those that their completions start; `fuel` bounds them. -/
def dmaWork : Nat → List Nat → Dev × Mem → Dev × Mem
  | 0, _, s => s
  | _ + 1, [], s => s
  | f + 1, c :: cs, s =>
    let r := dmaStart s.1 s.2 c
    dmaWork f (cs ++ r.2.2) (r.1, r.2.1)

/-- Enough starts for one event: each channel has at most one descriptor. -/
def dmaFuel : Nat := 288

/-- A step's outcome with what it starts. -/
def dmaThen (r : Dev × Mem × List Nat) : Dev × Mem := dmaWork dmaFuel r.2.2 (r.1, r.2.1)

/-- R415: an event of a trigger kind starts the descriptors that wait for it. -/
def dmaEvent (s : Dev × Mem) (kind arg : Nat) : Dev × Mem :=
  let waits := dmaChannels.filter (fun k =>
    let y := s.1.dmaChan k
    decide (y.phase = .trigger) &&
      (match y.desc with
        | some x => !x.bad && decide (x.trigger = kind ∧ x.trigArg = arg)
        | none => false))
  dmaWork dmaFuel waits s

/-- R415: line and page events of the planes between two states. -/
def dmaPrintEvents (d0 : Dev) (s : Dev × Mem) : Dev × Mem :=
  (List.range 8).foldl (fun s n =>
    let x := d0.plane n
    let y := s.1.plane n
    let s := if x.lastFire = y.lastFire then s else dmaEvent s 3 n
    if (y.runs.getLast?.map (·.page)).isSome ∧ y.runs.getLast?.map (·.page) ≠ x.runs.getLast?.map (·.page) then
      dmaEvent s 4 n
    else s) s

/-! ### Commands -/

/-- R411: channel `c` works. -/
def Dev.dmaWorks (d : Dev) (c : Nat) : Bool :=
  decide (d.rd (Fld.DMA_CHCTRL.Enable c) = 1) && decide (d.rd (Fld.DMA_CHSTAT.Halted c) = 0) &&
    decide (d.rd (Fld.DMA_CHCONS.Cons c) ≠ d.rd (Fld.DMA_CHPROD.Prod c)) && d.domOn 6

/-- R411: the descriptor at CONS is fetched; a bad ring or a malformed or damaged descriptor completes at once. -/
def dmaFetch (d : Dev) (m : Mem) (c : Nat) (finds : Finds) : Dev × Mem :=
  if d.dmaWorks c = false ∨ (d.dmaChan c).phase ≠ .none then (d, m)
  else if d.domOn 5 = false then (d.wake 5 8, m)
  else
    let slot := d.rd (Fld.DMA_CHCONS.Cons c)
    let base := d.rd (Fld.DMA_CHBASELO.BaseLo c) * 32 + d.rd (Fld.DMA_CHBASEHI.BaseHi c) * 2 ^ 32
    let outside := decide (d.jobLimit < base + 32 * max 1 (d.rd (Fld.DMA_CHSIZE.Entries c)))
    let a := base + 32 * slot
    let d := if outside then d else d.meetLines m finds [lineOf a]
    let damaged := outside || m.bad finds (lineOf a)
    let x := dmaDescOf slot (if damaged then [] else m.read a 32) damaged
    let d := (d.wr (Fld.DMA_CHBYTES.Bytes c) 0).modDma c (fun _ => ⟨.trigger, some x, none, false⟩)
    if x.bad then dmaThen (dmaStart d m c) else (d, m)

/-- R415: a descriptor whose trigger is immediate, its own channel's completion included, starts; one that waits for a unit
tries it again. -/
def dmaTrigger (d : Dev) (m : Mem) (c : Nat) : Dev × Mem :=
  let y := d.dmaChan c
  match y.desc with
  | some x =>
    if y.phase = .unit ∨ x.trigger = 0 ∨ (x.trigger = 2 ∧ x.trigArg = c) then dmaThen (dmaStart d m c) else (d, m)
  | none => (d, m)

/-- R415: timer `t` expires. -/
def dmaTimer (d : Dev) (m : Mem) (t : Nat) : Dev × Mem :=
  if d.rd (Fld.DMA_TIMER.Enable t) = 1 then dmaEvent (d, m) 1 t else (d, m)

/-- The outcome of a movement: the unit is fed, and the descriptor completes. -/
def dmaMoved (c : Nat) (x : DmaDesc) (v : DmaMove) (status : Nat) : Dev × Mem × List Nat :=
  let d := if x.feeds then v.dev.feedUnit x.unit c v.fed v.invalid else v.dev
  dmaOutcome d v.mem c x status v.done ((if v.poisoned then 4 else 0) + (if v.discarded then 8 else 0)) v.lines

/-- R416 to R422: the movement of channel `c` ends. -/
def dmaComplete (d : Dev) (m : Mem) (c : Nat) (finds : Finds) : Dev × Mem :=
  let y := d.dmaChan c
  match y.phase, y.desc with
  | .moving, some x =>
    if d.rd (Fld.DMA_CHCTRL.Enable c) = 0 then (d, m)
    else
      let v := dmaMove d m finds x none
      dmaThen (dmaMoved c x v (v.stop.getD 0))
  | _, _ => (d, m)

/-- R422: the record that waits first is written once there is room. -/
def dmaRecordWrite (d : Dev) (m : Mem) : Dev × Mem :=
  match d.dma.waiting with
  | [] => (d, m)
  | c :: rest =>
    if d.cqFull then (d, m)
    else
      let d := { d with dma := { d.dma with waiting := [] } }
      let r := dmaRecord d m c
      let d := { r.1 with dma := { r.1.dma with waiting := rest ++ r.1.dma.waiting } }
      dmaThen (d, r.2.1, r.2.2)

/-- R319, R422: the keeper has acknowledged every line of channel `c`'s descriptor. -/
def dmaMirrored (d : Dev) (m : Mem) (c : Nat) : Dev × Mem :=
  if (d.dmaChan c).phase = .mirror then dmaThen (dmaRecord d m c) else (d, m)

/-- R411: a write of DMA_CHPRODc. -/
def Dev.dmaProd (d : Dev) (c value : Nat) : Dev :=
  let i := value % 65536
  if max 1 (d.rd (Fld.DMA_CHSIZE.Entries c)) ≤ i then d.sticky Fld.DMA_ERR.ProdRange
  else d.wr (Fld.DMA_CHPROD.Prod c) i

/-- R419: Resume. -/
def Dev.dmaResume (d : Dev) (c : Nat) : Dev := d.wr (Fld.DMA_CHSTAT.Halted c) 0

/-- R419: Abort: how far a moving descriptor has come is open. -/
def dmaAbort (d : Dev) (m : Mem) (c : Nat) : Dev × Mem :=
  let y := d.dmaChan c
  match y.phase, y.desc with
  | .moving, some x =>
    let d := d.modDma c (fun y => { y with abort := true })
    let v := dmaMove d.draw m [] x (some (Config.dmaProgress d.free))
    dmaThen (dmaMoved c x v 7)
  | .trigger, some x => dmaThen (dmaOutcome (d.modDma c (fun y => { y with abort := true })) m c x 7 0 0 [])
  | .unit, some x => dmaThen (dmaOutcome (d.modDma c (fun y => { y with abort := true })) m c x 7 0 0 [])
  | .mirror, some _ => (d.modDma c (fun y => { y with abort := true }), m)
  | .record, some _ => (d.modDma c (fun y => { y with abort := true }), m)
  | _, _ => (d.wr (Fld.DMA_CHCONS.Cons c) (d.rd (Fld.DMA_CHPROD.Prod c)), m)

/-- DMA_CHSTATc's Waiting and Moving. -/
def Dev.dmaStat (d : Dev) (c : Nat) : Nat :=
  match (d.dmaChan c).phase with
  | .trigger => 1
  | .unit => 1
  | .moving => 2
  | .mirror => 2
  | _ => 0

end Sys2Proof.Machine
end

