-- ==== Sys2Proof/Machine/Journal.lean ====
section
/-!
DEFINITION. The journal (R458 to R463): coding of firing counts, the writes of Table 114 with the wear of R460, reading
through JNL_RDDATA, and JNL_CTRL.
-/
namespace Sys2Proof.Machine

/-! ### Firing counts (R460, R489, R490) -/

/-- R460: the 16-bit code of a firing count. -/
def countCode (c : Nat) : Nat :=
  if c < 2048 then c
  else
    let e := log2Fuel 64 c - 10
    2048 + (e - 1) * 1024 + (c / 2 ^ e - 1024)

/-- R460: the count that a code reads back as. -/
def codeCount (k : Nat) : Nat := if k < 2048 then k else (1024 + (k - 2048) % 1024) * 2 ^ ((k - 2048) / 1024 + 1)

/-- R490: a nozzle's counter plus accumulator. -/
def Dev.firingCount (d : Dev) (z : Nat) : Nat := min (2 ^ 48 - 1) (spGet 0 d.fire.cnt z + spGet 0 d.fire.acc z)

/-- The nozzles with a count, with the codes of their counts. -/
def Dev.countCodes (d : Dev) : List (Nat × Nat) :=
  (d.fire.cnt ++ d.fire.acc).foldl (fun l e => spPut 0 e.1 (countCode (d.firingCount e.1)) l) []

/-! ### Wear (R460, R461) -/

/-- The journal changed. -/
def Dev.setJnl (d : Dev) (f : JnlSt → JnlSt) : Dev := { d with jnl := f d.jnl }

/-- The journal's content changed. -/
def Dev.setArea (d : Dev) (f : Journal → Journal) : Dev := d.setJnl (fun j => { j with area := f j.area })

/-- Table 112: the blocks of one copy of an area; one for a ring's block. -/
def copyBlocks (area : Nat) : Nat :=
  if area = 2 then 17 else if area = 4 then 129 else if area = 6 then 2 else 1

/-- The units of the block that a unit of an area lies in: a copy, or the ring slots of one 4 KiB block. -/
def sameBlock (area u v : Nat) : Bool :=
  if area = 3 then u / 512 == v / 512 else if area = 5 then u / 128 == v / 128 else u == v

/-- The blocks of a unit are retired to spares; with none left WearLimit is set and they stay. -/
def Dev.retireBlocks (d : Dev) (area unit : Nat) : Dev :=
  let n := copyBlocks area
  if n ≤ d.rd Fld.JNL_SPARES.Free then
    (d.wr Fld.JNL_SPARES.Free (d.rd Fld.JNL_SPARES.Free - n)).setJnl (fun j => { j with
      wear := j.wear.filter (fun e => !(e.1 / 65536 == area && sameBlock area (e.1 % 65536) unit)) })
  else d.sticky Fld.JNL_ERR.WearLimit

/-- JNL_MAXWR shows the highest count of any block in use. -/
def Dev.showWear (d : Dev) : Dev := d.wr Fld.JNL_MAXWR.Writes (d.jnl.wear.foldl (fun a e => max a e.2) 0)

/-- R460, R461: a unit of an area is written; a word that fails twice retires its block and sets WriteFail. -/
def Dev.wearUnit (d : Dev) (area unit : Nat) (ok : Bool) : Dev :=
  let key := area * 65536 + unit
  let d := if ok then d else (d.sticky Fld.JNL_ERR.WriteFail).retireBlocks area unit
  let c := spGet 0 d.jnl.wear key + 1
  let d := d.setJnl (fun j => { j with wear := spPut 0 key c j.wear })
  (if 500000000 ≤ c then d.retireBlocks area unit else d).showWear

/-- R458: a write of an area goes to the copy not last written. -/
def Dev.wearArea (d : Dev) (area : Nat) (ok : Bool) : Dev :=
  let copy := if d.jnl.nextCopy.toNat.testBit area then 1 else 0
  (d.setJnl (fun j => { j with nextCopy := j.nextCopy ^^^ BitVec.ofNat 8 (2 ^ area) })).wearUnit area copy ok

/-! ### Writes (Table 114) -/

/-- R460: the state log takes an entry; with 1,024 entries the map is rewritten and the log emptied. -/
def Dev.logState (d : Dev) (z : Nat) (st : BitVec 2) (source : Nat) (ok : Bool) : Dev :=
  let slot := (d.jnl.area.logHead + d.jnl.area.log.length) % 2048
  let d := d.wearUnit 3 slot ok
  let d := d.setArea (fun a => { a with log := a.log ++ [(z, st.toNat, source, d.now.sec % 2 ^ 32)] })
  if 1024 ≤ d.jnl.area.log.length then
    let d := d.wearArea 2 true
    d.setArea (fun a => { a with
      states := a.log.foldl (fun s e => spPut 0#2 e.1 (BitVec.ofNat 2 e.2.1) s) a.states
      log := [], logHead := (a.logHead + a.log.length) % 2048 })
  else d

/-- R483: the ring of area 5 with an entry in its slot. -/
def putTrouble (l : List TroubleEntry) (e : TroubleEntry) : List TroubleEntry :=
  l.filter (fun x => (x.seq + 255) % 256 != (e.seq + 255) % 256) ++ [e]

/-- R258, R302: the calibration results as area 6 holds them. -/
def Dev.calibBytes (d : Dev) : List (Nat × Nat) :=
  let bit := fun (lo hi : FieldRef) (p : Nat) => (d.rd (if p < 32 then lo else hi)).testBit (p % 32)
  let ports := (List.range 64).map (fun p =>
    if bit Fld.HP_DSKDONELO.Ports Fld.HP_DSKDONEHI.Ports p then
      (p, 1 + (if bit Fld.HP_DSKPASSLO.Ports Fld.HP_DSKPASSHI.Ports p then 2 else 0) + 4 * d.hp.deskew.journalClk)
    else (p, 0))
  let adcs := (List.range 8).map (fun a =>
    (64 + a, (if (d.rd Fld.CAL_ADCDONE.Done).testBit a then 1 else 0) +
      (if (d.rd Fld.CAL_ADCPASS.Pass).testBit a then 2 else 0)))
  (ports ++ adcs).filter (fun e => e.2 != 0)

/-- R458: the endpoints of the open sessions. -/
def Dev.sessionEnds (d : Dev) : List (Endpoint × Nat) :=
  (List.range 16).filterMap (fun i => (d.session i).map (fun s => (s.ep, i)))

/-- R460: the firing counts are written. -/
def Dev.writeCounts (d : Dev) (ok : Bool) : Dev :=
  let d := d.wearArea 4 ok
  d.setArea (fun a => { a with counts := d.countCodes })

/-- Table 114: a change is written. -/
def Dev.writeChange (d : Dev) (c : JnlChange) (ok : Bool) : Dev :=
  match c with
  | .state z st source => d.logState z st source ok
  | .remap =>
    (d.wearArea 1 ok).setArea (fun a => { a with
      remap := ((List.range 16).map (fun i => (i, d.reg (Adr.MEM_REMAP i)))).filter (fun e => e.2 != 0#32) })
  | .calibration => (d.wearArea 6 ok).setArea (fun a => { a with calib := d.calibBytes })
  | .sessions => (d.wearArea 7 ok).setArea (fun a => { a with sessions := d.sessionEnds })
  | .trouble e =>
    if d.rep.ring.contains e then
      (d.wearUnit 5 ((e.seq + 255) % 256) ok).setArea (fun a => { a with
        trouble := putTrouble a.trouble e, lastSeq := e.seq })
    else d
  | .counts => d.writeCounts ok

/-- The stoker runs. -/
def Dev.stokerRuns (d : Dev) : Bool := d.boot.stokerUp && !d.boot.stokerHalted

/-- R460, R461: the stoker writes the oldest change; it must be awake (R471). -/
def Dev.journalWrite (d : Dev) (ok : Bool) : Dev :=
  match d.jnl.queue with
  | [] => d
  | c :: rest =>
    if !d.stokerRuns then d
    else if !d.domOn 1 then d.wake 1 7
    else (d.setJnl (fun j => { j with queue := rest })).writeChange c ok

/-- R460: the firing counts are written now, or as JNL_FCPER comes round. -/
def Dev.checkpoint (d : Dev) : Dev :=
  if !d.stokerRuns then d else if !d.domOn 1 then d.wake 1 7 else d.writeCounts true

/-! ### JNL_CTRL (R463) -/

/-- ClearStates. -/
def Dev.clearStates (d : Dev) : Dev :=
  if d.job.seq = .idle then
    d.setArea (fun a => { a with states := [], log := [], logHead := (a.logHead + a.log.length) % 2048 })
  else d

/-- ClearCounts. -/
def Dev.clearCounts (d : Dev) : Dev :=
  if d.job.seq = .idle then { d.setArea (fun a => { a with counts := [] }) with fire := ⟨[], []⟩ } else d

/-- ClearTrouble: the ring is empty; Seq goes on (R483). -/
def Dev.clearTrouble (d : Dev) : Dev :=
  if d.job.seq = .idle then
    { d.setArea (fun a => { a with trouble := [] }) with rep := { d.rep with ring := [], lastSeq := 0 } }
  else d

/-- ClearCal. -/
def Dev.clearCal (d : Dev) : Dev := if d.job.seq = .idle then d.setArea (fun a => { a with calib := [] }) else d

/-! ### Reading (R462) -/

/-- R462: the readable bytes of an area. -/
def areaSize (area : Nat) : Nat :=
  match area with
  | 1 => 64
  | 2 => 65536
  | 3 => 16384
  | 4 => 524288
  | 5 => 8192
  | 6 => 72
  | 7 => 384
  | _ => 0

/-- Table 112: a session's endpoint in 24 bytes. -/
def endBytes (e : Endpoint × Nat) : Bytes :=
  natBE 16 e.1.ip ++ natLE 2 e.1.udp.toNat ++ natLE 1 (if e.1.v6 then 6 else 4) ++ natLE 1 e.2 ++ natLE 4 0

/-- Table 113: a state log entry. -/
def logBytes (e : Nat × Nat × Nat × Nat) : Bytes := natLE 4 (e.2.2.1 * 2 ^ 20 + e.2.1 * 2 ^ 18 + e.1) ++ natLE 4 e.2.2.2

/-- R462: the byte of an area at an offset. -/
def Journal.byteAt (j : Journal) (area off : Nat) : Byte :=
  match area with
  | 1 =>
    match j.remap.find? (fun e => e.1 == off / 4) with
    | some e => (natLE 4 e.2.toNat).getD (off % 4) 0#8
    | none => 0#8
  | 2 => BitVec.ofNat 8 ((List.range 4).foldl (fun a i => a + (spGet 0#2 j.states (4 * off + i)).toNat * 4 ^ i) 0)
  | 3 =>
    match j.log[(off / 8 + 2048 - j.logHead % 2048) % 2048]? with
    | some e => (logBytes e).getD (off % 8) 0#8
    | none => 0#8
  | 4 => (natLE 2 (spGet 0 j.counts (off / 2))).getD (off % 2) 0#8
  | 5 =>
    match j.trouble.find? (fun e => (e.seq + 255) % 256 == off / 32) with
    | some e => e.bytes.getD (off % 32) 0#8
    | none => 0#8
  | 6 =>
    match j.calib.find? (fun e => e.1 == off) with
    | some e => BitVec.ofNat 8 e.2
    | none => 0#8
  | 7 =>
    match j.sessions.find? (fun e => e.2 == off / 24) with
    | some e => (endBytes e).getD (off % 24) 0#8
    | none => 0#8
  | _ => 0#8

/-- R462: the next word of the area named in JNL_RDAREA. -/
def Dev.journalWord (d : Dev) : Nat :=
  let area := d.rd Fld.JNL_RDAREA.Area
  let off := d.rd Fld.JNL_RDOFF.Offset * 4
  if off < areaSize area then leNat ((List.range 4).map (fun i => d.jnl.area.byteAt area (off + i))) else 0

/-- R462: a read of JNL_RDDATA advances JNL_RDOFF. -/
def Dev.journalRead (d : Dev) : Dev := d.wr Fld.JNL_RDOFF.Offset (d.rd Fld.JNL_RDOFF.Offset + 1)

end Sys2Proof.Machine
end

