-- ==== Sys2Proof/Machine/View.lean ====
section
/-!
DEFINITION. What a register reads: the stored word with the fields that show the device's present state, and the registers
that a part does not have (R4, R5, R12, R164, R171, R198, R262, R344, R410).
-/
namespace Sys2Proof.Machine

/-! ### Registers that a part lacks -/

/-- The registers of a row that hold no register at index `i` (R171, R198, R262, R344, R410). -/
def rowAbsent (p : Part) (r : RegSpec) (i : Nat) : Bool :=
  let half := match p with
    | .sn262 => false
    | .sn131 => true
  let block := r.base / 0x10000
  if block = 5 then half && decide (r.base % 0x10000 < 0x10 ∧ 4 ≤ i)
  else if block = 8 then
    half && decide (2 ≤ i) && (r.base == Adr.MEM_CECNT 0 || r.base == Adr.MEM_UECNT 0 || r.base == Adr.MEM_TEMP 0)
  else if r.base = Adr.RAS_STWT 0 0 then decide (i = 63) || (half && decide (32 ≤ i))
  else if r.base = Adr.HT_DROP 0 0 then half && decide (32 ≤ i)
  else if block = 16 then
    half && decide (32 ≤ i) && (r.base == Adr.HP_OVL 0 || r.base == Adr.HP_STROBE 0 || r.base == Adr.HP_ECHO 0 ||
      r.base == Adr.HP_LCV 0 || r.base == Adr.HP_ECHOCNT 0 || r.base == Adr.HP_PSTAT 0)
  else false

/-- R12, R14: the address holds a register. -/
def holdsRegister (p : Part) (a : Nat) : Bool :=
  isNzt a || isThr a ||
    match regSpecAt a with
    | some (r, i, _) => !rowAbsent p r i
    | none => false

/-- Registers that read 0 and discard writes with status OK: the SN4-131's PAIR block (R4) and HI registers (R262), and
the NZT words it does not have (R164). -/
def silentRegister (p : Part) (a : Nat) : Bool :=
  match p with
  | .sn262 => false
  | .sn131 =>
    a / 0x10000 == 7 || a == Adr.HP_ECHOERRHI || a == Adr.HP_DSKDONEHI || a == Adr.HP_DSKPASSHI ||
      (isNzt a && decide (131071 < nztNozzle a))

/-- R437: the blocks the service port reaches before the stoker is released. -/
def earlyBlock (a : Nat) : Bool := decide (a < 0x40000)

/-! ### Present state -/

/-- CFG_BOOTSTAT.Phase (Table 116). -/
def Phase.code : Phase → Nat
  | .fuses => 0
  | .sramKindling => 1
  | .readingA => 2
  | .readingB => 3
  | .configuring => 4
  | .memory => 5
  | .lanes => 6
  | .roles => 7
  | .ready => 8
  | .noImage => 9
  | .stokerFailed => 10

/-- Table 108: word `w` of a clamp report entry. -/
def ClampEntry.word (e : ClampEntry) (w : Nat) : Nat :=
  match w with
  | 0 => e.fieldId
  | 1 => e.source * 2 ^ 20 + e.kind * 2 ^ 16 + e.width * 2 ^ 8 + e.lsb
  | 2 => e.given
  | _ => e.used

/-- GLB and CFG. -/
def Dev.viewGlbCfg (d : Dev) (r : RegSpec) (i : Nat) : Nat :=
  if r.base = Adr.GLB_STATUS then
    (if d.failed then 8 else 0) + (if d.stokerRuns then 4 else 0) + (if d.isReady then 2 else 0) + (if d.pair.mode then 1 else 0)
  else if r.base = Adr.CFG_BOOTSTAT then d.boot.phase.code * 2 ^ 16 + (if d.isReady then 1 else 0)
  else if r.base = Adr.CFG_COMMITSTAT then d.commitStat
  else if r.base = Adr.CFG_CLAMPDATA 0 then
    match d.boot.clamps[d.rd Fld.CFG_CLAMPIDX.Index]? with
    | some e => e.word i
    | none => 0
  else if r.base = Adr.CFG_STOKER then d.boot.level + (if d.boot.level = 0 then 0 else 4)
  else 0

/-- TRB: summary, interrupt, queues and the trouble record. -/
def Dev.viewTrb (d : Dev) (r : RegSpec) (i w : Nat) : Nat :=
  if r.base = Adr.TRB_SUMMARY then d.summary
  else if r.base = Adr.TRB_INTSRC then d.intSrc
  else if r.base = Adr.TRB_RECSEQ then d.rep.lastSeq
  else if r.base = Adr.TRB_RECDATA 0 then leAt d.rep.recCapture (4 * i) 4
  else if r.base = Adr.TRB_NQSTAT 0 then (d.queue i).entries.length
  else if r.base = Adr.TRB_NQDATA 0 0 then beAt (d.queue i).capture (4 * w) 4
  else 0

/-- PWR, NET, TIME and PAIR. -/
def Dev.viewLink (d : Dev) (r : RegSpec) (i : Nat) : Nat :=
  if r.base = Adr.PWR_STATE then d.domainFields (fun x => x.state.code)
  else if r.base = Adr.PWR_PEND then d.domainFields (fun x => x.pend)
  else if r.base = Adr.NET_OJPCTRL then maskOf 4 (fun k => (d.keyOf (k + 1)).isSome) * 16
  else if r.base = Adr.NET_OJPSESS then maskOf 16 (fun s => (d.session s).isSome)
  else if r.base = Adr.TIME_TOCTRL 0 then (if (d.tout (Fin.ofNat 8 i)).next.isSome then 16 else 0)
  else if r.base = Adr.PAIR_CFG then (if d.pair.mode then 1 else 0)
  else if r.base = Adr.PAIR_STATUS then d.pairStatus
  else if r.base = Adr.PAIR_READY then d.readyMask.toNat
  else if r.base = Adr.PAIR_SYNCPROG then d.pair.copied / 2 ^ 20
  else if r.base = Adr.PAIR_MIRPEND then d.pair.mirrors.foldl (fun a x => a + x.left) 0
  else 0

/-- DMA, JOB and DEC. -/
def Dev.viewJob (d : Dev) (r : RegSpec) (i : Nat) : Nat :=
  if r.base = Adr.DMA_CHSTAT 0 then d.dmaStat i
  else if r.base = Adr.JOB_STATUS then d.jobStatus
  else if r.base = Adr.DEC_POOLUSED then d.poolUsed
  else if r.base = Adr.DEC_LIMITPER then d.limitPeriod
  else if r.base = Adr.DEC_STATUS then d.decStatus
  else if r.base = Adr.DEC_RECUSED then d.recordUsed
  else 0

/-- R169: the NZT word that a nozzle's plane prints with: the active copy and the adopted State. -/
def Dev.peekWord (d : Dev) : Nat :=
  let z := d.rd Fld.RAS_PEEKIDX.Nozzle
  if z ≤ d.part.maxNozzle then (d.actReg (0x01000000 + 4 * z)).toNat % 65536 + 65536 * (d.adoptedState z).toNat else 0

/-- RAS, HT, LT and HP. -/
def Dev.viewPrint (d : Dev) (r : RegSpec) (i : Nat) : Nat :=
  let ras := d.ras
  let low := fun (x : Int) => patternOf 48 x % 2 ^ 32
  if r.base = Adr.RAS_COMMITSTAT then (ras.corrWait ||| ras.corrCopy).toNat + (if d.boot.pendScale.isSome then 256 else 0)
  else if r.base = Adr.RAS_PEEKVAL then d.peekWord
  else if r.base = Adr.HT_COMMITSTAT then (ras.htWait ||| ras.htCopy).toNat + (if d.boot.pendCode.isSome then 256 else 0)
  else if r.base = Adr.HT_STATEPEND then ras.statePend.toNat
  else if r.base = Adr.LT_POSLO 0 then low (d.chan (Fin.ofNat 4 i)).pos
  else if r.base = Adr.LT_HWMLO 0 then low (d.chan (Fin.ofNat 4 i)).hwm
  else if r.base = Adr.LT_IDXLO 0 then low (d.chan (Fin.ofNat 4 i)).idx
  else if r.base = Adr.LT_BTGTLO 0 then low (vgetD d.lt.targets i 0)
  else if r.base = Adr.LT_PRBLATLO 0 then low (vgetD d.lt.probes i ⟨0, none⟩).latch
  else if r.base = Adr.LT_PSTATE 0 then min 15 (d.lag i) * 16 + (d.plane i).state.code
  else if r.base = Adr.LT_NEXT 0 then (d.plane i).nextEvent
  else if r.base = Adr.LT_STATUS then
    (if (List.range 8).any (fun n => decide ((d.plane n).state = .stopped ∨ (d.plane n).state = .armed)) then 8 else 0) +
      (if d.lt.overspeed then 4 else 0) + (if d.speedWarnPin then 2 else 0) + (if d.haltReqPin then 1 else 0)
  else if r.base = Adr.HP_COMMITSTAT then ras.strobeWait.toNat + (if d.boot.pendPort.isSome then 256 else 0)
  else if r.base = Adr.HP_ECHO 0 then (if (d.port i).find.active then 2 ^ 12 else 0)
  else if r.base = Adr.HP_PSTAT 0 then
    (if d.portDriven i then 32 else 0) + (if (d.port i).shift = .busy ∨ (d.port i).shift = .orphan then 16 else 0) +
      min 4 (d.port i).queue.length
  else 0

/-- DD, MOT, JNL and TEL. -/
def Dev.viewRest (d : Dev) (r : RegSpec) (i : Nat) : Nat :=
  if r.base = Adr.DD_STATUS then d.ddState
  else if r.base = Adr.MOT_LIMSTAT then d.limitMask
  else if r.base = Adr.JNL_STATUS then d.jnl.area.lostAreas % 256 * 256
  else if r.base = Adr.JNL_RDDATA then d.journalWord
  else if r.base = Adr.JNL_RDSIZE then areaSize (d.rd Fld.JNL_RDAREA.Area)
  else if r.base = Adr.TEL_QSTAT then d.rep.telQueue.length
  else if r.base = Adr.TEL_QDATA 0 then leAt d.rep.telCapture (4 * i) 4
  else if r.base = Adr.TEL_FCLO then
    let z := d.rd Fld.TEL_FCIDX.Nozzle
    if d.nozzleIn z then d.firingCount z % 2 ^ 32 else 0
  else 0

/-- The fields of a register that show present state. -/
def Dev.view (d : Dev) (a : Nat) : Nat :=
  match regSpecAt a with
  | none => 0
  | some (r, i, w) =>
    match a / 0x10000 with
    | 0 | 1 => d.viewGlbCfg r (max i w)
    | 2 => d.viewTrb r i w
    | 3 | 4 | 6 | 7 => d.viewLink r i
    | 9 | 11 | 12 => d.viewJob r i
    | 13 | 14 | 15 | 16 => d.viewPrint r i
    | 17 | 18 | 20 | 21 => d.viewRest r (max i w)
    | _ => 0

/-- What a read of a register returns, before what the read itself does. -/
def Dev.look (d : Dev) (a : Nat) : Word :=
  if silentRegister d.part a || !holdsRegister d.part a then 0#32
  else if isNzt a then d.nztWord (nztNozzle a)
  else d.reg a ||| BitVec.ofNat 32 (d.view a)

end Sys2Proof.Machine
end

