-- ==== Sys2Proof/Machine/Telemetry.lean ====
section
/-!
DEFINITION. Telemetry records (R485 to R488, R116), the notice and telemetry queues and their resets (R427 to R432), the reads
of the trouble record (R484), the clearing of sticky bits (R475), and the firing-count read (R490).
-/
namespace Sys2Proof.Machine

/-! ### Records (Tables 127, 128) -/

/-- Table 127: a telemetry record. -/
def Dev.telRecord (d : Dev) (type index : Nat) (vs : List Nat) : Bytes :=
  natLE 1 type ++ natLE 1 index ++ natLE 2 0 ++ natLE 4 d.now.sec ++ natLE 4 d.now.ns ++
    padTo 20 (vs.flatMap (natLE 4))

/-- A register as it reads. -/
def Dev.lookNat (d : Dev) (a : Nat) : Nat := (d.look a).toNat

/-- PageId of a plane's current page. -/
def Dev.currentPage (d : Dev) (n : Nat) : Nat :=
  match (d.plane n).runs with
  | r :: _ => d.pageIdOf r.page
  | [] => 0

/-- R409: the kindling watermark as MEM_KWMLO and MEM_KWMHI show it. -/
def Dev.shownMark (d : Dev) : Nat := d.rd Fld.MEM_KWMLO.WmLo * 64 + d.rd Fld.MEM_KWMHI.WmHi * 2 ^ 32

/-- The records of one type, ascending in Index. -/
def Dev.telType (d : Dev) (t : Nat) : List Bytes :=
  match t with
  | 1 => d.planesOn.map (fun n => d.telRecord 1 n
      [d.lookNat (Adr.LT_NEXT n), d.lookNat (Adr.LT_PSTATE n), d.currentPage n, d.lookNat (Adr.LT_IVAL n), d.lookNat (Adr.HT_BAD n)])
  | 2 => (allBelow 4 (fun c => decide (d.rd (Fld.LT_CHCFG.Mode c) ≠ 0))).map (fun c =>
      let pos := patternOf 48 (d.chan (Fin.ofNat 4 c)).pos
      d.telRecord 2 c [pos, pos / 2 ^ 32, d.lookNat (Adr.LT_SPEED c), d.lookNat (Adr.LT_DTCNT c), d.lookNat (Adr.LT_IDXDIST c)])
  | 3 =>
    let sum := fun (f : Nat → Nat) => (List.range 4).foldl (fun a c => a + d.lookNat (f c)) 0
    [d.telRecord 3 0 [sum Adr.MEM_CECNT, sum Adr.MEM_UECNT, d.lookNat Adr.MEM_SRAMCE, d.lookNat Adr.MEM_SWPROG,
      d.shownMark / 2 ^ 20]]
  | 4 => [d.telRecord 4 0 [d.lookNat Adr.TEL_TJ, d.lookNat Adr.CFG_STOKER, d.lookNat Adr.JOB_PAGECNT, d.lookNat Adr.JOB_FLAGCNT,
      d.lookNat Adr.DEC_LIMITPER]]
  | 5 => (allBelow 8 (fun a => decide (d.rd (Fld.MOT_AXCFG.Enable a) = 1))).map (fun a => d.telRecord 5 a
      [d.lookNat (Adr.MOT_POS a), d.lookNat (Adr.MOT_VEL a), d.lookNat (Adr.MOT_LOAD a), d.lookNat (Adr.MOT_STAT a), 0])
  | _ => []

/-- The records of the types in a mask, ascending in Type. -/
def Dev.telRecords (d : Dev) (types : Nat) : List (Nat × Bytes) :=
  ([1, 2, 3, 4, 5].filter (fun t => types.testBit (t - 1))).flatMap (fun t => (d.telType t).map (fun b => (t, b)))

/-- R432: a record enters the telemetry queue; a full queue drops its oldest. -/
def Dev.pushTel (d : Dev) (b : Bytes) : Dev :=
  let q := d.rep.telQueue
  if 32 ≤ q.length then { d with rep := { d.rep with telQueue := q.drop 1 ++ [b] } }.bumpSat Fld.TEL_QSTAT.Lost 1
  else { d with rep := { d.rep with telQueue := q ++ [b] } }

/-- R487: sampling; a Period of 0 stops it. -/
def Dev.telSample (d : Dev) : Dev :=
  if d.rd Fld.TEL_QCFG.Period = 0 then d
  else (d.telRecords (d.rd Fld.TEL_QCFG.Types)).foldl (fun d r => d.pushTel r.2) d

/-- R486, R116: the body of a Telemetry message. -/
def Dev.telBody (d : Dev) : Bytes :=
  let rs := d.telRecords (d.rd Fld.TEL_PUSHSEL.Types)
  let kinds := maskOf 5 (fun t => rs.any (fun r => r.1 == t + 1))
  natBE 2 (kinds + (if 1 ≤ d.boot.level then 0x8000 else 0)) ++ natBE 2 rs.length ++ natBE 6 d.now.sec ++ natBE 4 d.now.ns ++
    natBE 2 0 ++ rs.flatMap (·.2)

/-- R488: the die temperature. -/
def Dev.tjUpdate (d : Dev) (t : Nat) : Dev := d.wr Fld.TEL_TJ.Temp t

/-! ### Queue reads (R430) -/

/-- R430: word 0 of a notice queue pops the oldest notice into the capture buffer. -/
def Dev.popNotice (d : Dev) (q : Nat) : Dev :=
  let x := d.queue q
  match x.entries with
  | n :: rest => d.setQueue q ⟨rest, n.body⟩
  | [] => d.sticky (Fld.TRB_NQSTAT.Underrun q)

/-- R430: word 0 of the telemetry queue. -/
def Dev.popTel (d : Dev) : Dev :=
  match d.rep.telQueue with
  | b :: rest => { d with rep := { d.rep with telQueue := rest, telCapture := b } }
  | [] => d.sticky Fld.TEL_QSTAT.Underrun

/-- R429: a queue non-empty for Timeout with PushEn set drains. -/
def Dev.queueTimeout (d : Dev) (q : Nat) : Dev :=
  if d.rd (Fld.TRB_NQCFG.PushEn q) = 1 ∧ (d.queue q).entries ≠ [] then d.drainQueue q else d

/-! ### Queue resets (R427, Table 98) -/

/-- R427: the trouble record and the notice of a reset queue. -/
def Dev.queueLost (d : Dev) (q n : Nat) : Dev := d.noticeTrouble Nt.QueueReset [(1, q), (4, n)]

/-- A line queue is emptied: its port stalls; a keeper is not Ready until its entries are formed again. -/
def Dev.emptyPort (d : Dev) (p : Nat) : Dev :=
  let x := d.port p
  let d := d.setPort p { x with
    queue := [], whole := false
    shift := match x.shift with
      | .busy => .orphan
      | .orphan => .orphan
      | _ => .none }
  if d.isKeeper then d.setPair (fun s => { s with lateMonitor := s.lateMonitor ++ [p] }) else d

/-- R427, R100: the messages of a session are formed again from its state and sent with their Seq. -/
def Dev.resendAll (d : Dev) : Dev :=
  (List.range 16).foldl (fun d i =>
    match d.session i with
    | some s =>
      (s.unacked.filter (fun m => !m.hostHeld && !m.parked)).foldl (fun d m =>
        match d.session i with
        | some s => d.transmit i s m.kind m.seq m.body
        | none => d) d
    | none => d) d

/-- R427: queue `q` is reset: 0 to 3 notice queues, 4 telemetry, 5 + p the line queue of port p, 69 the OJP queues, 70 a
crossing buffer. -/
def Dev.queueReset (d : Dev) (q : Nat) : Dev :=
  if q < 4 then
    let n := (d.queue q).entries.length
    ((d.setQueue q { d.queue q with entries := [] }).bumpSat (Fld.TRB_NQSTAT.Lost q) n).queueLost q n
  else if q = 4 then
    let n := d.rep.telQueue.length
    ({ d with rep := { d.rep with telQueue := [] } }.bumpSat Fld.TEL_QSTAT.Lost n).queueLost q n
  else if q < 69 then (d.emptyPort (q - 5)).queueLost q (d.port (q - 5)).queue.length
  else if q = 69 then
    let n := (List.range 16).foldl (fun a i => a + (match d.session i with | some s => s.unacked.length | none => 0)) 0
    d.resendAll.queueLost q n
  else d.queueLost q 0

/-! ### Trouble record and sticky bits -/

/-- R484: a read of TRB_RECDATA0 captures the slot. -/
def Dev.captureTrouble (d : Dev) : Dev :=
  let bs := match d.troubleSlot (d.rd Fld.TRB_RECSEL.Slot) with
    | some e => e.bytes
    | none => []
  { d with rep := { d.rep with recCapture := bs } }

/-- R475: a write of TRB_CLRMASK. -/
def Dev.clearNamed (d : Dev) (mask : Nat) : Dev :=
  let a := d.rd Fld.TRB_CLRADDR.Addr * 4
  if holdsRegister d.part a && !silentRegister d.part a then d.clearSticky a mask else d

/-- R490: a read of TEL_FCLO captures TEL_FCHI. -/
def Dev.captureCount (d : Dev) : Dev :=
  let z := d.rd Fld.TEL_FCIDX.Nozzle
  d.wr Fld.TEL_FCHI.CountHi (if d.nozzleIn z then d.firingCount z / 2 ^ 32 else 0)

/-- R490: the counters take the values that the journal's codes read back as. -/
def Dev.restoreCounts (d : Dev) : Dev :=
  { d with fire := { d.fire with cnt := d.jnl.area.counts.map (fun e => (e.1, codeCount e.2)) } }

end Sys2Proof.Machine
end

