-- ==== Sys2Proof/Machine/Window.lean ====
section
/-!
DEFINITION. Accesses to the register window by every path (R11, R12, R14, R17, R18): what a write stores, when a write is
discarded, what each register does when it is written or read.
-/
namespace Sys2Proof.Machine

/-! ### Statuses (R12) -/

/-- Table 25's statuses of a register access: OK. -/
def stOk : Nat := 0
/-- The address is not a multiple of 4. -/
def stAlignment : Nat := 1
/-- The address holds no register. -/
def stNoRegister : Nat := 2

/-! ### What a write stores -/

/-- The bits of a register row that some field covers; those of HT_LOFF and HT_DROP word 3 are the low half. -/
def coveredMask (r : RegSpec) (w : Nat) : Nat :=
  let all := fieldsMask r.flds (fun _ => true)
  if (r.base = Adr.HT_LOFF 0 0 ∨ r.base = Adr.HT_DROP 0 0) ∧ w = 3 then all % 65536 else all

/-- R18: the bits of the word at an address that are not reserved. -/
def definedBits (a : Nat) : Nat :=
  if isNzt a then 0x3FFFF
  else if isThr a then 0xFFFFFFFF
  else
    match regSpecAt a with
    | some (r, _, w) => coveredMask r w
    | none => 0

/-- R18: a write that sets a reserved bit is performed without it and raises a notice. -/
def Dev.reservedBits (d : Dev) (a : Nat) (value : Word) : Dev × Word :=
  let v := BitVec.ofNat 32 (value.toNat &&& definedBits a)
  if v = value then (d, value) else (d.notice Nt.ReservedBit [], v)

/-- R17, R449: the word a write of `value` leaves: RW fields take it, clamped outside the shadow sets; the others keep. -/
def storedWord (p : Part) (r : RegSpec) (old value : Word) : Word :=
  r.flds.foldl (fun w f =>
    if f.acc = .rw then
      let v := bitsOf value.toNat f.hi f.lo
      setBits w f.hi f.lo (if r.set = .none then clampField p r f v else v)
    else w) old

/-- R203, Table 43: the sample point stays below half a clock period: SampleDelay × 5 ns against 500,000 / Clock ns. -/
def Dev.clampSample (d : Dev) (c : Nat) : Dev :=
  let half := ceilDiv 100000 (d.rd (Fld.LT_SSI.Clock c)) - 1
  d.wr (Fld.LT_SSI.SampleDelay c) (min (d.rd (Fld.LT_SSI.SampleDelay c)) half)

/-- R203: a frame period shorter than the frame time is raised to it, within the field's range. -/
def Dev.raisePeriod (d : Dev) (c : Nat) : Dev :=
  let clock := d.rd (Fld.LT_SSI.Clock c)
  let frame := ceilDiv ((d.rd (Fld.LT_SSI.Bits c) + 1) * 1000000 + d.rd (Fld.LT_SSIPOLL.Monoflop c) * 100 * clock) (10 * clock)
  d.wr (Fld.LT_SSIPOLL.Period c) (min 10000 (max (d.rd (Fld.LT_SSIPOLL.Period c)) frame))

/-- R348: LANE_FOM.Target below Floor is raised to Floor. -/
def Dev.raiseTarget (d : Dev) : Dev :=
  d.wr Fld.LANE_FOM.Target (max (d.rd Fld.LANE_FOM.Target) (d.rd Fld.LANE_FOM.Floor))

/-- R369: TIME_STEPNS clamps to ±999,999,999. -/
def Dev.clampStep (d : Dev) : Dev :=
  d.wr Fld.TIME_STEPNS.Ns (patternOf 32 (clampInt (-999999999) 999999999 (signedOf 32 (d.rd Fld.TIME_STEPNS.Ns))))

/-- The word of a register set, where it differs from what is stored. -/
def Dev.keepReg (d : Dev) (a : Nat) (w : Word) : Dev := if w = d.reg a then d else d.setReg a w

/-- The word stored, and the limits that one field sets another. -/
def Dev.storeReg (d : Dev) (r : RegSpec) (i a : Nat) (value : Word) : Dev :=
  let d := d.keepReg a (storedWord d.part r (d.reg a) value)
  if r.base = Adr.LT_SSI 0 then d.clampSample i
  else if r.base = Adr.LT_SSIPOLL 0 then d.raisePeriod i
  else if r.base = Adr.LANE_FOM then d.raiseTarget
  else if r.base = Adr.TIME_STEPNS then d.clampStep
  else d

/-! ### Writes that are discarded -/

/-- R169, R195, R260: a write of a print set's field while its plane waits. -/
def Dev.barPending (d : Dev) (a : Nat) : Option Dev :=
  match d.ownerPlane a with
  | none => none
  | some n =>
    match setOf a with
    | .correction => if (d.ras.corrWait ||| d.ras.corrCopy) &&& bit8 n ≠ 0 then some (d.corrDiscard a) else none
    | .halftone => if d.htBusy n then some (d.htDiscard a) else none
    | .strobe =>
      if d.ras.strobeWait &&& bit8 n ≠ 0 then
        some ((d.sticky Fld.HP_ERR.WriteWhilePending).notice Nt.WriteWhilePendingHP [(4, a)])
      else none
    | _ => none

/-- R300: the axis fields that only a Disabled axis takes. -/
def axisBound (base : Nat) : Bool :=
  base == Adr.MOT_AXCFG 0 || base == Adr.MOT_SENSE 0 || base == Adr.MOT_MOTOR 0 || base == Adr.MOT_USTEP 0 0

/-- R426: a check unit is Open. -/
def Dev.unitOpen (d : Dev) (u : Nat) : Bool := decide (d.rd (Fld.CRC_STAT.State u) = 1)

/-- R426: the write would change Algo or Compare. -/
def Dev.changesUnit (d : Dev) (a : Nat) (value : Word) : Bool := bitsOf value.toNat 2 0 != bitsOf (d.reg a).toNat 2 0

/-- A write that its rule discards, with what it reports; CRC_CTRL's Reset is not discarded (R426). -/
def Dev.barWrite (d : Dev) (r : RegSpec) (i a : Nat) (value : Word) : Option Dev :=
  if r.base = Adr.LT_CHCFG 0 ∧ d.channelBusy i then some (d.sticky Fld.LT_ERR.CfgBusy)
  else if axisBound r.base ∧ d.rd (Fld.MOT_STAT.State i) ≠ 0 then some (d.sticky Fld.MOT_ERR.CfgBusy)
  else if (r.base = Adr.CRC_EXPLO 0 ∨ r.base = Adr.CRC_EXPHI 0) ∧ d.unitOpen i then some (d.sticky Fld.CRC_ERR.WriteBusy)
  else if r.base = Adr.CRC_CTRL 0 ∧ d.unitOpen i ∧ d.changesUnit a value then some (d.sticky Fld.CRC_ERR.WriteBusy)
  else d.barPending a

/-- R170, R177, R197, R261, R283, R318, drop detection's mirroring: the registers whose writes at the pair address the
striker mirrors.  Deskew runs on the device addressed (R261); an axis command goes to the axis's owner (R283). -/
def mirroredReg (a : Nat) : Bool :=
  isNzt a || isThr a || decide (setOf a ≠ .none) || a == Adr.CFG_COMMIT ||
    ([13, 14, 16, 17, 18].contains (a / 0x10000) && a != Adr.HP_DSKCTRL &&
      !((List.range 8).any (fun i => a == Adr.MOT_CMD i)))

/-- R321: the writes at its own address that a keeper discards. -/
def keeperRefuses (a : Nat) (value : Word) : Bool :=
  a == Adr.JOB_CTRL || a == Adr.JOB_DOORBELL || a == Adr.JOB_HEADLO || a == Adr.JOB_HEADHI ||
    ((List.range 4).any (fun c => a == Adr.LT_CHCTRL c) && value != 1#32) || mirroredReg a

/-- R321: the write arrives at a keeper's own address and is one that it discards. -/
def Dev.keeperBars (d : Dev) (path : Path) (a : Nat) (value : Word) : Bool :=
  d.isKeeper && decide (path = .service ∨ path = .ojpOwn) && keeperRefuses a value

/-! ### What a write does -/

/-- R320: a striker names each descriptor it has fetched, with the DescCrc of its copy. -/
def Dev.tellFetch (before d : Dev) (m : Mem) : Dev :=
  if before.job.nextKey = d.job.nextKey then d
  else
    match d.job.target with
    | .link off _ => d.tellKeeper (.fetch off (BitVec.ofNat 32 (leNat (m.read (off + 0x14) 4))))
    | _ => d

/-- R64 to R66, R320: a write of JOB_CTRL; the keeper takes stops and aborts where the striker names them. -/
def Dev.jobControl (d : Dev) (abort stop start : Bool) : Dev :=
  let d := d.jobCtrl abort stop start
  if abort then d.tellKeeper .abort else if stop then d.tellKeeper .stop else d

/-- R74: a doorbell rung, on a device whose sequencer reads links (R320). -/
def Dev.ring (d : Dev) (m : Mem) (finds : Finds) : Dev :=
  if d.isKeeper then d else Dev.tellFetch d (d.doorbell m finds) m

/-- R207: a write of LT_CHCTRLc: ClearFault, SetPos and PageStart act in that order. -/
def channelControl (d : Dev) (m : Mem) (c : Fin 4) (path : Path) (bits : Nat) : Dev × Mem :=
  let d := if bits.testBit 0 then d.clearFault c else d
  let d := if bits.testBit 1 then d.setPos c else d
  if bits.testBit 2 && !d.isKeeper && decide (path ≠ .partner) then dmaPrintEvents d (d.pageStart c, m) else (d, m)

/-- GLB, CFG and TRB. -/
def Dev.actGlobal (d : Dev) (r : RegSpec) (value : Nat) : Dev :=
  if r.base = Adr.CFG_COMMIT then d.commit value
  else if r.base = Adr.CFG_CLAMPCTRL then (if value.testBit 0 then d.clampClear else d)
  else if r.base = Adr.TRB_CLRMASK then d.clearNamed value
  else if r.base = Adr.PWR_REQ then d.powerRequest value
  else d

/-- NET, LANE, TIME and PAIR. -/
def Dev.actLink (d : Dev) (r : RegSpec) (i value : Nat) : Dev :=
  if r.base = Adr.NET_PCTRL 0 then (d.retrainHost i).ptpResettle
  else if r.base = Adr.LANE_CTRL 0 then
    if value.testBit 0 = false then (d.laneOff i).ptpResettle
    else if value.testBit 1 then (d.laneRetrain i).ptpResettle
    else d
  else if r.base = Adr.TIME_INCRHI then d.loadIncr (d.rd Fld.TIME_INCRHI.Whole)
  else if r.base = Adr.TIME_STEPSEC then d.timeStep value
  else if r.base = Adr.TIME_PTPCTRL then d.ptpResettle
  else if r.base = Adr.TIME_TOCTRL 0 then
    let d := if value.testBit 0 then d.toutArm (Fin.ofNat 8 i) else d
    if value.testBit 1 then d.toutDisarm (Fin.ofNat 8 i) else d
  else if r.base = Adr.PAIR_CTRL then
    let d := if value.testBit 0 then d.handoff else d
    if value.testBit 1 then d.selfTest else d
  else d

/-- R411, R419: a write of DMA_CHCTRLc: Resume, then Abort. -/
def dmaControl (d : Dev) (m : Mem) (c value : Nat) : Dev × Mem :=
  let d := if value.testBit 1 then d.dmaResume c else d
  if value.testBit 2 then dmaAbort d m c else (d, m)

/-- R426: Reset of a check unit; channels that waited for it go on. -/
def unitReset (d : Dev) (m : Mem) (u : Nat) : Dev × Mem :=
  dmaWork dmaFuel (dmaChannels.filter (fun c => decide ((d.dmaChan c).phase = .unit))) (d.resetUnit u, m)

/-- MEM, DMA, CRC, JOB and DEC. -/
def actStore (d : Dev) (m : Mem) (finds : Finds) (r : RegSpec) (i value : Nat) : Dev × Mem :=
  if r.base = Adr.MEM_RMREQ then (d.remapRequest value, m)
  else if r.base = Adr.MEM_RMCTRL then (if value.testBit 0 then d.remapClearAll else d, m)
  else if r.base = Adr.DMA_CHCTRL 0 then dmaControl d m i value
  else if r.base = Adr.CRC_CTRL 0 then (if value.testBit 3 then unitReset d m i else (d, m))
  else if r.base = Adr.JOB_CTRL then (d.jobControl (value.testBit 2) (value.testBit 1) (value.testBit 0), m)
  else if r.base = Adr.JOB_DOORBELL then (if value.testBit 0 then d.ring m finds else d, m)
  else if r.base = Adr.DEC_PLANPER then (d.planPeriodWritten, m)
  else (d, m)

/-- LT and HP; `was`: the device before the write. -/
def actPrint (was d : Dev) (m : Mem) (path : Path) (r : RegSpec) (i value : Nat) : Dev × Mem :=
  if r.base = Adr.LT_CHCFG 0 then (d.modeChanged (Fin.ofNat 4 i) (was.mode (Fin.ofNat 4 i)), m)
  else if r.base = Adr.LT_CHCTRL 0 then channelControl d m (Fin.ofNat 4 i) path value
  else if r.base = Adr.HP_ECHO 0 then
    let d := d.echoEnableChanged i
    (if value.testBit 10 then d.echoFind i else d, m)
  else if r.base = Adr.HP_DSKCTRL then (if value.testBit 7 then d.deskewStart true else d, m)
  else (d, m)

/-- R461 to R463, Table 115: a write of JNL_CTRL. -/
def Dev.journalControl (d : Dev) (value : Nat) : Dev :=
  let d := if value.testBit 0 then d.clearStates else d
  let d := if value.testBit 1 then d.clearCounts else d
  let d := if value.testBit 2 then d.clearTrouble else d
  let d := if value.testBit 3 then d.clearCal else d
  if value.testBit 4 then d.checkpoint else d

/-- DD, MOT, CAL and JNL. -/
def Dev.actRest (was d : Dev) (r : RegSpec) (i value : Nat) : Dev :=
  if r.base = Adr.DD_CTRL then
    let d := if value.testBit 0 then d.ddStart else d
    if value.testBit 1 then d.ddStop else d
  else if r.base = Adr.MOT_CMD 0 then d.axisCommand (Fin.ofNat 8 i) (value % 8)
  else if r.base = Adr.MOT_LIMPOL then d.limitsChanged was.limitMask
  else if r.base = Adr.CAL_ADCCTRL then (if value.testBit 8 then d.adcCalStart else d)
  else if r.base = Adr.JNL_CTRL then d.journalControl value
  else d

/-- What a register does when it has been written. -/
def actOn (was d : Dev) (m : Mem) (path : Path) (finds : Finds) (r : RegSpec) (i a : Nat) (value : Nat) : Dev × Mem :=
  match a / 0x10000 with
  | 0 | 1 | 2 | 3 => (d.actGlobal r value, m)
  | 4 | 5 | 6 | 7 => (d.actLink r i value, m)
  | 8 | 9 | 10 | 11 | 12 => actStore d m finds r i value
  | 15 | 16 => actPrint was d m path r i value
  | 17 | 18 | 19 | 20 => (Dev.actRest was d r i value, m)
  | _ => (d, m)

/-- A write of a register that its row describes. -/
def writeReg (d : Dev) (m : Mem) (path : Path) (finds : Finds) (r : RegSpec) (i a : Nat) (value : Word) : Dev × Mem :=
  match d.barWrite r i a value with
  | some e =>
    if r.base = Adr.CRC_CTRL 0 ∧ value.toNat.testBit 3 then unitReset e m i else (e, m)
  | none =>
    if r.base = Adr.DMA_CHPROD 0 then (d.dmaProd i value.toNat, m)
    else actOn d (d.storeReg r i a value) m path finds r i a value.toNat

/-- R174, R460: by whom the journal says a state was written. -/
def stateSource (p : Path) : Nat :=
  match p with
  | .partner => 2
  | .config => 3
  | _ => 0

/-- R318: the striker mirrors a write that arrived at the pair address; of LT_CHCTRLc it mirrors ClearFault and SetPos with
the value loaded, since page starts go as sequence messages (R320, R324). -/
def Dev.mirrorWrite (d : Dev) (path : Path) (a : Nat) (value : Word) : Dev :=
  if path ≠ .ojpPair then d
  else if mirroredReg a then d.sendRegister a value
  else
    match (List.range 4).find? (fun c => a == Adr.LT_CHCTRL c) with
    | none => d
    | some c =>
      let bits := value.toNat % 4
      if bits = 0 then d
      else
        let d := if bits.testBit 1 then
            (d.sendRegister (Adr.LT_POSSETLO c) (d.reg (Adr.LT_POSSETLO c))).sendRegister (Adr.LT_POSSETHI c)
              (d.reg (Adr.LT_POSSETHI c))
          else d
        d.sendRegister a (BitVec.ofNat 32 bits)

/-- R449, R451: the configuration loads the shadow copy and what is in force alike. -/
def Dev.alsoInForce (d : Dev) (path : Path) (a : Nat) : Dev :=
  if path = .config ∧ setOf a ≠ .none then
    { d with act := spPut (resetWord d.part a) a (d.reg a) d.act }
  else d

/-- R11, R12, R18, R321: one write of a word of the window by a path; its status and the state it leaves. -/
def windowWrite (d : Dev) (m : Mem) (path : Path) (finds : Finds) (a : Nat) (value : Word) : Nat × Dev × Mem :=
  if a % 4 ≠ 0 then (stAlignment, d, m)
  else if !holdsRegister d.part a then (stNoRegister, d, m)
  else if silentRegister d.part a then (stOk, d, m)
  else
    let x := d.reservedBits a value
    let d := x.1
    let v := x.2
    if d.keeperBars path a v then (stOk, d.sticky Fld.PAIR_ERR.KeeperWrite, m)
    else
      let d := d.mirrorWrite path a v
      if isNzt a || isThr a then
        (stOk, (if path = .config then d.tableLoad a v else (d.tablePut a v (stateSource path)).1).alsoInForce path a, m)
      else
        match regSpecAt a with
        | none => (stNoRegister, d, m)
        | some (r, i, _) =>
          let y := writeReg d m path finds r i a v
          (stOk, y.1.alsoInForce path a, y.2)

/-! ### Reads -/

/-- The bits 47:32 of a position, as the HI register of a pair holds them (R207). -/
def highBits (x : Int) : Nat := patternOf 48 x / 2 ^ 32

/-- R207, R370, R371, R427, R430, R462, R484, R487, R490: what a read of a register does. -/
def Dev.readEffect (d : Dev) (a : Nat) : Dev :=
  match regSpecAt a with
  | none => d
  | some (r, i, w) =>
    let c := Fin.ofNat 4 i
    if r.base = Adr.LT_POSLO 0 then d.posloRead c
    else if r.base = Adr.LT_HWMLO 0 then d.wr (Fld.LT_HWMHI.HwmHi i) (highBits (d.chan c).hwm)
    else if r.base = Adr.LT_IDXLO 0 then d.wr (Fld.LT_IDXHI.IdxHi i) (highBits (d.chan c).idx)
    else if r.base = Adr.LT_BTGTLO 0 then d.wr (Fld.LT_BTGTHI.TgtHi i) (highBits (vgetD d.lt.targets i 0))
    else if r.base = Adr.LT_PRBLATLO 0 then
      d.wr (Fld.LT_PRBLATHI.LatHi i) (highBits (vgetD d.lt.probes i ⟨0, none⟩).latch)
    else if r.base = Adr.TIME_SECLO then d.captureTime
    else if r.base = Adr.TIME_EXSEQ then d.captureExchange
    else if r.base = Adr.TRB_NQDATA 0 0 ∧ w = 0 then d.popNotice i
    else if r.base = Adr.TEL_QDATA 0 ∧ i = 0 then d.popTel
    else if r.base = Adr.TRB_RECDATA 0 ∧ i = 0 then d.captureTrouble
    else if r.base = Adr.TEL_FCLO then d.captureCount
    else d

/-- R11, R12: one read of a word of the window; its status, its value and the state it leaves.  A read that captures
answers with what it has captured; JNL_RDDATA advances after it has answered (R462). -/
def windowRead (d : Dev) (a : Nat) : Nat × Word × Dev :=
  if a % 4 ≠ 0 then (stAlignment, 0#32, d)
  else if !holdsRegister d.part a then (stNoRegister, 0#32, d)
  else if silentRegister d.part a then (stOk, 0#32, d)
  else if isNzt a || isThr a then (stOk, d.touchTables.tableWord a, d.touchTables)
  else
    let d := d.readEffect a
    (stOk, d.look a, if a = Adr.JNL_RDDATA then d.journalRead else d)

end Sys2Proof.Machine
end

