-- ==== Sys2Proof/Machine/Boot.lean ====
section
/-!
DEFINITION. Start-up: reset (R436), the image check (R440 to R444), the typed and generic configuration records (R441, R445,
R446), the end of step 5 with the journal overlay (R447, R448, R459), readiness (R437), the stoker's load and watchdog
(R455 to R457).
-/
namespace Sys2Proof.Machine

/-! ### Images (R440 to R443) -/

/-- The bytes of an image region (R440). -/
def regionSize : Nat := 8 * 2 ^ 20

/-- R441: the fields of a record's body, lowest first; none where they do not fill it exactly or a pad byte is not 0. -/
def parseFields : Nat → Bytes → Option (List (Nat × Bytes))
  | 0, bs => if bs.isEmpty then some [] else none
  | f + 1, bs =>
    if bs.isEmpty then some []
    else
      let len := leAt bs 2 2
      let size := 4 + ceilDiv len 4 * 4
      if bs.length < size ∨ 65532 < len ∨ ((bs.drop (4 + len)).take (size - 4 - len)).any (fun b => b != 0) then none
      else
        match parseFields f (bs.drop size) with
        | some fs => some ((leAt bs 0 2, sliceB bs 4 len) :: fs)
        | none => none

/-- The records of an image as far as they are good, with Table 107's failure of the run: 0, 2 or 8. -/
structure ImageRun where
  records : List CfgRecord
  fail : Nat
  deriving DecidableEq, Repr

/-- R440, R441: the records from offset `pos` of a region, up to its End record. -/
def readRecords : Nat → Nat → Bytes → ImageRun
  | 0, _, _ => ⟨[], 8⟩
  | f + 1, pos, bs =>
    let type := leAt bs 0 2
    let len := leAt bs 4 4
    if regionSize < pos + 12 ∨ bs.isEmpty then ⟨[], 8⟩
    else if leAt bs 2 2 ≠ 0 ∨ 65536 < len ∨ len % 4 ≠ 0 then ⟨[], 2⟩
    else if regionSize < pos + 12 + len then ⟨[], 8⟩
    else if crc32c (sliceB bs 0 (8 + len)) ≠ leAt bs (8 + len) 4 then ⟨[], 2⟩
    else
      match parseFields (len + 1) (sliceB bs 8 len) with
      | none => ⟨[], 2⟩
      | some fs =>
        if type = 0x7FFF then (if len = 0 then ⟨[⟨type, fs⟩], 0⟩ else ⟨[], 2⟩)
        else
          let r := readRecords f (pos + 12 + len) (bs.drop (12 + len))
          { r with records := ⟨type, fs⟩ :: r.records }

/-- An image region's records. -/
def parseImage (bs : Bytes) : ImageRun := readRecords (bs.length + 1) 0 bs

/-- The last field of a record with a tag and a length. -/
def CfgRecord.value (r : CfgRecord) (tag size : Nat) : Option Bytes :=
  ((r.fields.filter (fun f => f.1 == tag && f.2.length == size)).getLast?).map (·.2)

/-- The same as a little-endian number. -/
def CfgRecord.num (r : CfgRecord) (tag size : Nat) : Option Nat := (r.value tag size).map leNat

/-- R442: the record types of the configuration, Table 105. -/
def cfgTypes : List Nat := [0x0010, 0x0011, 0x0012, 0x0013, 0x0014, 0x0020, 0x0021]

/-- Table 105: the type is known. -/
def knownType (t : Nat) : Bool := t == 1 || t == 2 || t == 3 || t == 0x7FFF || cfgTypes.contains t

/-- R442: header, firmware records, one signature, configuration records, End; records of unknown types between. -/
def orderGood (types : List Nat) : Bool :=
  match types with
  | 1 :: rest =>
    match rest.dropWhile (fun t => t == 2) with
    | 3 :: cfg => cfg.all (fun t => cfgTypes.contains t || t == 0x7FFF)
    | _ => false
  | _ => false

/-- The bytes a record takes in its image. -/
def CfgRecord.size (r : CfgRecord) : Nat := 12 + r.fields.foldl (fun a f => a + 4 + ceilDiv f.2.length 4 * 4) 0

/-- The firmware pieces of the records: offset and data. -/
def firmwareParts (rs : List CfgRecord) : List (Nat × Bytes) :=
  (rs.filter (fun r => r.type == 2)).filterMap (fun r =>
    match r.num 1 4, (r.fields.filter (fun f => f.1 == 2 && f.2.length != 0)).getLast? with
    | some o, some d => some (o, d.2)
    | _, _ => none)

/-- A piece put in its place by offset. -/
def insPart (p : Nat × Bytes) : List (Nat × Bytes) → List (Nat × Bytes)
  | [] => [p]
  | q :: l => if p.1 < q.1 then p :: q :: l else q :: insPart p l

/-- Pieces in offset order that follow one another from `pos`: their bytes. -/
def joinParts : Nat → List (Nat × Bytes) → Option Bytes
  | _, [] => some []
  | pos, p :: l =>
    if p.1 = pos ∧ p.1 % 4 = 0 then (joinParts (pos + p.2.length) l).map (fun bs => p.2 ++ bs) else none

/-- R442, Table 107 code 3: the firmware bytes, where the Data fields cover offsets 0 to FirmwareLength − 1 exactly once. -/
def firmwareOf (rs : List CfgRecord) (length : Nat) : Option Bytes :=
  let parts := firmwareParts rs
  if parts.length ≠ (rs.filter (fun r => r.type == 2)).length ∨ length = 0 ∨ 6291456 < length then none
  else
    match joinParts 0 (parts.foldr insPart []) with
    | some bs => if bs.length = length then some bs else none
    | none => none

/-- The bytes of a record's body as the image holds them. -/
def CfgRecord.body (r : CfgRecord) : Bytes :=
  r.fields.flatMap (fun f => natLE 2 f.1 ++ natLE 2 f.2.length ++ padTo (ceilDiv f.2.length 4 * 4) f.2)

/-- The configuration records of an image, in image order. -/
def configRecords (rs : List CfgRecord) : List CfgRecord :=
  (rs.dropWhile (fun r => r.type != 3)).filter (fun r => r.type != 3 && r.type != 0x7FFF)

/-- Table 107: the first failure of an image, 0 when it is good. -/
def imageFail (part : Part) (fuseHash bs : Bytes) : Nat :=
  let run := parseImage bs
  let known := run.records.filter (fun r => knownType r.type)
  let header := run.records.headD ⟨0, []⟩
  if leAt bs 0 2 ≠ 1 ∨ (run.records ≠ [] ∧ header.num 1 1 ≠ some 1) then 1
  else if run.fail = 2 then 2
  else
    let firmware := firmwareOf known ((header.num 3 4).getD 0)
    let part := match part with
      | .sn262 => 0
      | .sn131 => 1
    let sig := (known.find? (fun r => r.type == 3)).getD ⟨3, []⟩
    let key := (sig.value 1 64).getD []
    let rs := (sig.value 2 64).getD []
    if orderGood (known.map (fun r => r.type)) = false ∨ firmware.isNone then (if run.fail = 8 then 8 else 3)
    else if !(((header.num 2 1).getD 0).testBit part) then 4
    else if sha256 key ≠ fuseHash then 5
    else if !ecdsaVerify (beAt key 0 32) (beAt key 32 32) (beAt rs 0 32) (beAt rs 32 32) (header.body ++ firmware.getD []) then 6
    else if 2 ^ 20 < ((run.records.dropWhile (fun r => r.type != 3)).drop 1).foldl (fun a r => a + r.size) 0 then 7
    else if run.fail = 8 then 8
    else 0

/-! ### Reset (R436, R437 steps 1 to 3) -/

/-- R436: reset begins: everything but what survives it is lost. -/
def Dev.resetAssert (d : Dev) : Dev :=
  { heldInReset d.part d.devNum d.boot.fuseHash { d.jnl with queue := [] } with
    win := d.win.filter (fun e => e.1 == Adr.JNL_MAXWR || e.1 == Adr.JNL_SPARES), out := d.out, free := d.free }

/-- The image taken: its registers and records. -/
def Dev.takeImage (d : Dev) (b : Bool) (bs : Bytes) : Dev :=
  let run := parseImage bs
  let header := run.records.headD ⟨0, []⟩
  let d := d.setReg Adr.CFG_FWVER (BitVec.ofNat 32 ((header.num 4 4).getD 0))
  let d := d.setReg Adr.CFG_IMAGEGEN (BitVec.ofNat 32 ((header.num 5 4).getD 0))
  let d := d.setReg Adr.CFG_CONFIGID (BitVec.ofNat 32 ((header.num 6 4).getD 0))
  let d := if b then (d.sticky Fld.CFG_ERR.ImageB).wr Fld.CFG_BOOTSTAT.Image 1 else d
  { d with boot := { d.boot with records := configRecords run.records, phase := if b then .readingB else .readingA } }

/-- R437 steps 1 to 3, R7, R443: reset is released with the DEVSEL level and the two image regions. -/
def Dev.resetRelease (d : Dev) (devsel : Bool) (imageA imageB : Bytes) : Dev :=
  if !d.boot.inReset then d
  else
    let d := { d with devNum := if devsel then 1 else 0, boot := { d.boot with inReset := false } }
    let d := (d.setReg Adr.CFG_DIEIDLO (Config.dieIdentity 0)).setReg Adr.CFG_DIEIDHI (Config.dieIdentity 1)
    let j := d.jnl.area
    let d := { d with rep := { d.rep with ring := j.trouble, nextSeq := seqAdd j.lastSeq 1, lastSeq := j.lastSeq } }
    let a := imageFail d.part d.boot.fuseHash imageA
    let d := (d.wr Fld.CFG_BOOTSTAT.FailA a).wr Fld.CFG_BOOTSTAT.NvmReleased 1
    if a = 0 then d.takeImage false imageA
    else
      let b := imageFail d.part d.boot.fuseHash imageB
      let d := d.wr Fld.CFG_BOOTSTAT.FailB b
      if b = 0 then d.takeImage true imageB else { d with boot := { d.boot with phase := .noImage } }

/-! ### The clamp report of the configuration -/

/-- Table 108: FieldId of a typed field. -/
def typedId (type tag : Nat) : Nat := 0xFFFF0000 + type % 256 * 256 + tag

/-- R442, R445, R446: an entry for something ignored. -/
def ignoredEntry (id width given : Nat) : ClampEntry := ⟨id, 0, 1, width % 256, 0, given % 2 ^ 32, given % 2 ^ 32⟩

/-- R449: an entry where a typed field's value was clamped. -/
def clampedEntry (id width lsb given used : Nat) : List ClampEntry :=
  if given = used then [] else [⟨id, 0, 0, width, lsb, given % 2 ^ 32, used % 2 ^ 32⟩]

/-! ### Typed records (R445) -/

/-- The size of a typed field, Table 106; none where the table has no such field. -/
def typedSize (type tag : Nat) : Option Nat :=
  if type = 0x10 then (if tag = 1 ∨ tag = 2 ∨ tag = 4 then some 1 else if tag = 3 then some 2 else none)
  else if type = 0x11 then
    (if tag = 1 ∨ tag = 4 then some 6 else if tag = 2 ∨ tag = 5 then some 4 else if tag = 3 ∨ tag = 6 then some 16
     else if tag = 7 then some 2 else none)
  else if type = 0x12 then (if 1 ≤ tag ∧ tag ≤ 4 then some 32 else none)
  else if type = 0x13 then (if 1 ≤ tag ∧ tag ≤ 4 then some 3 else none)
  else if type = 0x14 then (if 1 ≤ tag ∧ tag ≤ 4 then some 1 else if 0x10 ≤ tag ∧ tag < 0x14 then some 40 else none)
  else none

/-- R449: the nearer of two legal values, the lower on a tie. -/
def nearer (lo hi v : Nat) : Nat := if 2 * v ≤ lo + hi then lo else hi

/-- Table 106: the legal value of a Device, Network or Memory number. -/
def legalTyped (part : Part) (type tag v : Nat) : Nat :=
  if type = 0x10 then
    if tag = 1 then (match part with | .sn262 => min v 1 | .sn131 => 0)
    else if tag = 2 then min v 64
    else if tag = 3 then clampNat 10 1000 v
    else min v 1
  else if type = 0x11 then (if tag = 7 then max 1 v else v)
  else if type = 0x14 then
    if tag = 1 then min v 2
    else if tag = 2 then (match part with | .sn262 => nearer 3 15 v | .sn131 => 3)
    else if tag = 3 then clampNat 1 2 v
    else nearer 8 16 v
  else v

/-- A TypedCfg with one number of Table 106 set. -/
def TypedCfg.put (c : TypedCfg) (type tag v : Nat) : TypedCfg :=
  match type, tag with
  | 0x10, 1 => { c with pairMode := decide (v = 1) }
  | 0x10, 2 => { c with poolSize := v }
  | 0x10, 3 => { c with watchdogMs := v }
  | 0x10, 4 => { c with nozzleStates := v }
  | 0x11, 1 => { c with baseMac := some (v / 4 * 4) }
  | 0x11, 2 => { c with ip4 := some v }
  | 0x11, 3 => { c with ip6 := some v }
  | 0x11, 4 => { c with pairMac := some v }
  | 0x11, 5 => { c with pairIp4 := some v }
  | 0x11, 6 => { c with pairIp6 := some v }
  | 0x14, 1 => { c with speed := some v }
  | 0x14, 2 => { c with channels := some v }
  | 0x14, 3 => { c with ranks := some v }
  | 0x14, 4 => { c with density := some v }
  | _, _ => c

/-- R445: the board delays of one channel, each at most 4,000 ps; its entries. -/
def legalDelays (id : Nat) (bs : Bytes) : Bytes × List ClampEntry :=
  let vs := (List.range 20).map (fun k => leAt bs (2 * k) 2)
  (vs.flatMap (fun v => natLE 2 (min v 4000)),
    ((List.range 20).zip vs).flatMap (fun e => clampedEntry id 16 (16 * e.1) e.2 (min e.2 4000)))

/-- R347, R445: the taps of a host lane, clamped and then reduced. -/
def Dev.hostTaps (d : Dev) (id l : Nat) (bs : Bytes) : Dev :=
  let given : Taps := ⟨leAt bs 0 1, leAt bs 1 1, leAt bs 2 1⟩
  let t := reduceSwing 64 ⟨min given.pre 15, clampNat 32 63 given.main, min given.post 31⟩
  let num := fun (t : Taps) => t.pre + t.main * 256 + t.post * 65536
  (d.addClamps (clampedEntry id 24 0 (num given) (num t))).setTaps l t

/-- R445: one field of a typed record. -/
def Dev.typedField (type : Nat) (d : Dev) (f : Nat × Bytes) : Dev :=
  let id := typedId type f.1
  let setCfg := fun (d : Dev) (c : TypedCfg) => { d with boot := { d.boot with cfg := c } }
  match typedSize type f.1 with
  | none => d.addClamp (ignoredEntry id (8 * f.2.length) (leNat f.2))
  | some n =>
    if f.2.length ≠ n then d.addClamp (ignoredEntry id (8 * f.2.length) (leNat f.2))
    else if type = 0x12 then
      { d with ojp := { d.ojp with keys := d.ojp.keys.filter (fun e => e.1 != f.1) ++ [(f.1, f.2)] } }
    else if type = 0x13 then d.hostTaps id (f.1 - 1) f.2
    else if type = 0x14 ∧ 0x10 ≤ f.1 then
      let r := legalDelays id f.2
      let c := d.boot.cfg
      setCfg (d.addClamps r.2) { c with delays := c.delays.filter (fun e => e.1 != f.1 - 0x10) ++ [(f.1 - 0x10, r.1)] }
    else
      let v := leNat f.2
      let u := legalTyped d.part type f.1 v
      let d := d.addClamps (clampedEntry id (8 * n) 0 v u)
      if type = 0x11 ∧ f.1 = 7 then d.wr Fld.NET_OJPPORT.Port u else setCfg d (d.boot.cfg.put type f.1 u)

/-! ### Registers and WindowData (R446) -/

/-- The bits at an address that configuration writes: not those of RO fields, which the reserved bits are, or WO fields. -/
def openBits (a : Nat) : Nat :=
  match regSpecAt a with
  | some (r, _, _) => definedBits a &&& fieldsMask r.flds (fun f => decide (f.acc ≠ .ro ∧ f.acc ≠ .wo))
  | none => definedBits a

/-- R449: the clamps that a written register outside the shadow sets shows. -/
def Dev.writtenClamps (d : Dev) (a : Nat) (value : Word) : List ClampEntry :=
  match regSpecAt a with
  | none => []
  | some (r, _, _) =>
    if r.set ≠ .none ∨ silentRegister d.part a then []
    else r.flds.flatMap (fun (f : FieldSpec) =>
      if f.acc = .rw then
        clampedEntry a (f.hi + 1 - f.lo) f.lo (bitsOf value.toNat f.hi f.lo) (bitsOf (d.reg a).toNat f.hi f.lo)
      else [])

/-- R446, R448: what configuration sets a nozzle's State to is remembered. -/
def Dev.noteState (d : Dev) (a : Nat) (value : Word) : Dev :=
  if isNzt a ∧ nztNozzle a ≤ d.part.maxNozzle then
    { d with boot := { d.boot with
      cfgStates := spPut 0#2 (nztNozzle a) (BitVec.ofNat 2 (bitsOf value.toNat 17 16)) d.boot.cfgStates } }
  else d

/-- R446, R447: one register write of the configuration. -/
def cfgWrite (s : Dev × Mem) (a : Nat) (value : Word) : Dev × Mem :=
  if a % 4 ≠ 0 ∨ !holdsRegister s.1.part a then (s.1.addClamp (ignoredEntry a 32 value.toNat), s.2)
  else
    let used := BitVec.ofNat 32 (value.toNat &&& openBits a)
    let d := s.1.addClamps (clampedEntry a 32 0 value.toNat used.toNat)
    let r := windowWrite (d.noteState a used) s.2 .config [] a used
    (r.2.1.addClamps (r.2.1.writtenClamps a used), r.2.2)

/-- R446: a field of a Registers record. -/
def cfgRegister (s : Dev × Mem) (f : Nat × Bytes) : Dev × Mem :=
  if f.1 = 1 ∧ f.2.length = 8 then cfgWrite s (leAt f.2 0 4) (BitVec.ofNat 32 (leAt f.2 4 4))
  else (s.1.addClamp (ignoredEntry (typedId 0x20 f.1) (8 * f.2.length) (leNat f.2)), s.2)

/-- R446: the decoded bytes of a WindowData record; none where it is ignored. -/
def windowBytes (r : CfgRecord) : Option (Nat × Bytes) :=
  match r.num 1 4, r.num 2 1, r.num 3 4, (r.fields.filter (fun f => f.1 == 4)).getLast? with
  | some a, some enc, some len, some data =>
    if a % 4 ≠ 0 ∨ len % 4 ≠ 0 then none
    else if enc = 0 then (if data.2.length = len then some (a, data.2) else none)
    else if enc = 1 then
      let o := inflate Inf.fresh data.2 len false false
      if o.error.isNone ∧ o.state.ended ∧ o.data.length = len then some (a, o.data) else none
    else none
  | _, _, _, _ => none

/-- R446: a WindowData record's words, from its Address upward. -/
def cfgWords : Nat → Bytes → Dev × Mem → Dev × Mem
  | a, b0 :: b1 :: b2 :: b3 :: bs, s => cfgWords (a + 4) bs (cfgWrite s a (BitVec.ofNat 32 (leNat [b0, b1, b2, b3])))
  | _, _, s => s

/-- R447: one configuration record applied. -/
def applyRecord (s : Dev × Mem) (r : CfgRecord) : Dev × Mem :=
  if r.type = 0x20 then r.fields.foldl cfgRegister s
  else if r.type = 0x21 then
    match windowBytes r with
    | some (a, bs) => cfgWords a bs s
    | none => (s.1.addClamp (ignoredEntry (0xFFFE0000 + r.type) 0 0), s.2)
  else if cfgTypes.contains r.type then (r.fields.foldl (Dev.typedField r.type) s.1, s.2)
  else (s.1.addClamp (ignoredEntry (0xFFFE0000 + r.type) 0 0), s.2)

/-! ### What the typed fields set (R360, R379, R124) -/

/-- The bits `32 w + 31 : 32 w` of an address, word 0 the highest of an IPv6 address. -/
def Dev.showIp6 (d : Dev) (f : Nat → FieldRef) (v : Nat) : Dev :=
  (List.range 4).foldl (fun d w => d.wr (f w) (v / 2 ^ (32 * (3 - w)))) d

/-- R360: the addresses in force. -/
def Dev.showAddresses (d : Dev) : Dev :=
  let c := d.boot.cfg
  let mac := c.baseMac.getD 0
  let pmac := c.pairMac.getD 0
  let d := (d.wr Fld.NET_MACLO.MacLo mac).wr Fld.NET_MACHI.MacHi (mac / 2 ^ 32)
  let d := (d.wr Fld.NET_PMACLO.MacLo pmac).wr Fld.NET_PMACHI.MacHi (pmac / 2 ^ 32)
  let d := (d.wr Fld.NET_IP4.Addr (c.ip4.getD 0)).wr Fld.NET_PIP4.Addr (c.pairIp4.getD 0)
  (d.showIp6 Fld.NET_IP6.Addr (c.ip6.getD 0)).showIp6 Fld.NET_PIP6.Addr (c.pairIp6.getD 0)

/-- R445: the Memory record gives every field marked "none", with board delays for each populated channel. -/
def TypedCfg.memoryGiven (c : TypedCfg) : Bool :=
  match c.speed, c.channels, c.ranks, c.density with
  | some _, some ch, some _, some _ => (List.range 4).all (fun k => !ch.testBit k || c.delays.any (fun e => e.1 == k))
  | _, _, _, _ => false

/-- R124, R379: the memory's build-up, and the pool clamped so that JOB_LIMIT is never below 4 GiB. -/
def Dev.showMemory (d : Dev) : Dev :=
  let c := d.boot.cfg
  if c.memoryGiven then
    let ch := c.channels.getD 0
    let ranks := c.ranks.getD 1
    let density := c.density.getD 8
    let size := (if ch = 15 then 4 else 2) * ranks * density
    let pool := min c.poolSize (size - 7)
    let d := ((d.wr Fld.MEM_CFG.Speed (c.speed.getD 0)).wr Fld.MEM_CFG.Density (density / 16)).wr Fld.MEM_CFG.Ranks (ranks - 1)
    let d := ((d.wr Fld.MEM_CFG.Channels ch).wr Fld.MEM_SIZE.GiB size).wr Fld.DEC_POOL.SizeGiB pool
    (d.addClamps (clampedEntry (typedId 0x10 2) 8 0 c.poolSize pool))
  else d.wr Fld.DEC_POOL.SizeGiB c.poolSize

/-! ### The end of step 5 (R447, R448, R459) -/

/-- R447: the checks of every set are applied to what is in force. -/
def Dev.checkSets (d : Dev) : Dev :=
  let d := d.addClamps (d.geometryClamps 0 ++ d.portClamps 0 true)
  let d := d.addClamps (d.actClamps 0 (fun a =>
    decide (setOf a = .scale ∨ setOf a = .codeWidth ∨ setOf a = .correction ∨ setOf a = .halftone ∨ setOf a = .strobe)))
  let d := (d.planesOn.foldl Dev.halftoneReports d.showWidths).checkCycles
  { d with hp := { d.hp with configured := true } }

/-- R448, R258, R302: calibration restored from the journal: ports where the configured ClkSel matches, and every ADC. -/
def Dev.restoreCalibration (d : Dev) : Dev :=
  let clk := d.inForce Fld.HP_CLK.ClkSel
  let d := { d with hp := { d.hp with deskew := { d.hp.deskew with journalClk := clk } } }
  d.jnl.area.calib.foldl (fun d e =>
    if e.1 < 64 then
      if e.2 % 2 = 1 ∧ e.2 / 4 % 8 = clk then
        (d.wrPortBit Fld.HP_DSKDONELO.Ports Fld.HP_DSKDONEHI.Ports e.1 true).wrPortBit Fld.HP_DSKPASSLO.Ports
          Fld.HP_DSKPASSHI.Ports e.1 (e.2.testBit 1)
      else d
    else if e.2 % 2 = 1 then
      let a := e.1 - 64
      let d := d.wr Fld.CAL_ADCDONE.Done (d.rd Fld.CAL_ADCDONE.Done ||| 2 ^ a)
      if e.2.testBit 1 then d.wr Fld.CAL_ADCPASS.Pass (d.rd Fld.CAL_ADCPASS.Pass ||| 2 ^ a) else d
    else d) d

/-- R459: areas of the journal that had no valid copy. -/
def Dev.reportLostAreas (d : Dev) : Dev :=
  (List.range 8).foldl (fun d a =>
    if d.jnl.area.lostAreas.testBit a then (d.sticky Fld.JNL_ERR.AreaLost).noticeTrouble Nt.JournalLost [] else d) d

/-- R448: the nozzle states after the overlay, adopted by every plane. -/
def Dev.overlayStates (d : Dev) : Dev :=
  let map := d.journalStates
  let d := { d with ras := { d.ras with pendingMap := map, adoptedMap := map, statePend := 0#8, hostWrites := [] } }
  let d := if d.boot.cfg.nozzleStates = 1 then d.setArea (fun a => { a with states := [], log := [], logHead := 0 }) else d
  (List.range 8).foldl Dev.adopt d

/-- R437 step 5: fields that the board controller wrote before take their reset values before the records are applied. -/
def Dev.dropEarlyWrites (d : Dev) : Dev :=
  { d with win := d.win.filterMap (fun e =>
      if earlyBlock e.1 then
        match regSpecAt e.1 with
        | some (r, _, _) =>
          let w := storedWord d.part r e.2 (resetWord d.part e.1)
          if w = resetWord d.part e.1 then none else some (e.1, w)
        | none => some e
      else some e) }

/-- R437 step 7: every lane that may begins to train. -/
def Dev.trainLanes (d : Dev) : Dev :=
  let d := (List.range 4).foldl Dev.beginAdapt d
  if d.hasPairLanes && d.boot.cfg.pairMode then pairLanes.foldl Dev.beginTraining d else d

/-- R437 step 8, R310: a pair begins to negotiate; a single device drives its own ports. -/
def Dev.beginRoles (d : Dev) : Dev :=
  if d.boot.cfg.pairMode then d.setPair (fun p => { p with mode := true, state := .negotiating, partnerState := 15 })
  else (d.setPair (fun p => { p with driving := true })).rolesSettled

/-- R437 steps 4 to 8: the stoker is released, applies the configuration and overlays the journal. -/
def stokerRelease (d : Dev) (m : Mem) : Dev × Mem :=
  if d.boot.phase ≠ .readingA ∧ d.boot.phase ≠ .readingB then (d, m)
  else
    let d := { d.dropEarlyWrites with boot := { d.boot with stokerUp := true, phase := .configuring } }
    let s := d.boot.records.foldl applyRecord (d, m)
    let d := s.1.showAddresses.showMemory.checkSets
    let d := d.restoreCalibration.overlayStates.reportLostAreas
    let d := { d with ojp := { d.ojp with former := d.jnl.area.sessions } }
    let d := (d.wr Fld.JNL_STATUS.Loaded 1).clampNotice
    let d := { d with boot := { d.boot with phase := .memory } }
    (d.trainLanes.beginRoles, s.2)

/-! ### Ready (R437 step 9) -/

/-- CFG_BOOTSTAT.Phase while steps 6 to 8 run. -/
def Dev.bootPhase (d : Dev) : Dev :=
  if d.boot.phase = .memory ∨ d.boot.phase = .lanes ∨ d.boot.phase = .roles then
    { d with boot := { d.boot with
      phase := if d.rd Fld.MEM_STATUS.ReservedKindled = 0 then .memory
        else if d.boot.rolesSettled then .lanes else .roles } }
  else d

/-- R95, R99: a Reset of a session; outside a session AckSeq and AckMap are 0. -/
def resetPayload (session reason ackSeq ackMap : Nat) : Bytes :=
  ojpFrame 0x07 2 session 0 ackSeq ackMap (natBE 1 session ++ natBE 1 reason ++ [0#8, 0#8])

/-- R95: Reset messages of reason Restart to the journal's former sessions: they leave by the first port that is up, to a
hardware address that the network resolves. -/
def Dev.sendRestarts (d : Dev) : Dev :=
  match hostPorts.find? (fun p => decide (d.rd (Fld.NET_PSTAT.LinkUp p.val) = 1)) with
  | none => d
  | some p => d.ojp.former.foldl (fun d e => d.sendFrame p (.ojp e.1 0#48 p (resetPayload e.2 3 0 0))) d

/-- R437 step 9: steps 5, 6 up to ReservedKindled, and 8 have completed. -/
def Dev.mayBeReady (d : Dev) : Bool :=
  decide (d.boot.phase = .memory ∨ d.boot.phase = .lanes ∨ d.boot.phase = .roles) && d.boot.rolesSettled && d.memTrained &&
    decide (d.rd Fld.MEM_STATUS.ReservedKindled = 1)

/-- R437 step 9, R95. -/
def Dev.deviceReady (d : Dev) : Dev :=
  if d.mayBeReady then
    let d := { d with boot := { d.boot with phase := .ready, readied := true } }
    let d := d.sendRestarts
    { d with ojp := { d.ojp with former := [] } }
  else d

/-! ### The stoker (R455 to R457) -/

/-- R455, R456: the shed level set; what level 3 held back goes on below it. -/
def Dev.setLevel (d : Dev) (level load : Nat) : Dev :=
  let was := d.boot.level
  let d := { d with boot := { d.boot with level := level, highRun := 0, lowRun := 0 } }
  let d := if was = 0 ∧ 0 < level then
      (d.sticky Fld.CFG_STOKER.OverloadSeen).trouble Nt.StokerOverload [(1, level), (1, load)]
    else d
  if 3 ≤ was ∧ level < 3 then d.resumeSweep else d

/-- R455: a 10 ms window ends with the given Load in percent. -/
def Dev.stokerLoadWindow (d : Dev) (load : Nat) : Dev :=
  if !d.stokerRuns then d
  else
    let d := d.wr Fld.CFG_STOKER.Load (min load 100)
    let hi := if 90 ≤ load then d.boot.highRun + 1 else 0
    let lo := if load ≤ 60 then d.boot.lowRun + 1 else 0
    let d := { d with boot := { d.boot with highRun := hi, lowRun := lo } }
    if 3 ≤ hi ∧ d.boot.level < 3 then d.setLevel (d.boot.level + 1) load
    else if 100 ≤ lo ∧ 0 < d.boot.level then d.setLevel (d.boot.level - 1) load
    else d

/-- R457: four restarts lie in the 10 minutes before this one. -/
def Dev.fifthRestart (d : Dev) : Bool :=
  match d.boot.restartSecs with
  | t :: _ => decide (4 ≤ d.boot.restartSecs.length) && decide (d.now.sec ≤ t + 600)
  | [] => false

/-- R457, R467: the watchdog, paused while STOKER sleeps, expires; `hashOk`: the firmware memory still has the hash kept. -/
def Dev.watchdogExpiry (d : Dev) (hashOk : Bool) : Dev :=
  if !d.stokerRuns || !d.domOn 1 then d
  else if !hashOk || d.fifthRestart then
    { d with boot := { d.boot with stokerHalted := true, phase := .stokerFailed } }.sticky Fld.CFG_ERR.StokerFailed
  else
    let secs := d.boot.restartSecs ++ [d.now.sec]
    let d := { d with boot := { d.boot with restartSecs := secs.drop (secs.length - 4) } }
    ((d.bump Fld.CFG_STKRST.Count).sticky Fld.CFG_ERR.StokerRestart).noticeTrouble Nt.StokerRestart []

end Sys2Proof.Machine
end

