-- ==== Sys2Proof/Machine/Sram.lean ====
section
/-!
DEFINITION. SRAM protection (R396 to R398): what the sweeper's read of an SRAM byte finds and does (Table 87).
-/
namespace Sys2Proof.Machine

/-! ### The outcomes of Table 87 -/

/-- Codes with those of some nozzles set to 0. -/
def zeroCodes (nozzles : List Nat) (codes : List Nat) : List Nat :=
  codes.zipIdx.map (fun e => if nozzles.contains e.2 then 0 else e.1)

/-- R397: a page is flagged DataLoss (R80). -/
def Dev.flagLoss (d : Dev) (key : Nat) : Dev := d.flag key 5

/-- Codes of a line waiting in the row-stagger buffer are rewritten as 0. -/
def Dev.sramStagger (d : Dev) (n line p : Nat) (nozzles : List Nat) : Dev :=
  let r := d.raster n
  let h := p - d.firstPort n
  let hit := fun (l : StagLine) => l.line == line
  let d := d.setRaster n { r with
    stag := r.stag.map (fun l =>
      if hit l then { l with codes := l.codes.zipIdx.map (fun e => if e.2 = h then zeroCodes nozzles e.1 else e.1) } else l) }
  (r.stag.filter hit).foldl (fun d l => d.flagLoss l.page) d

/-- Codes of a line queue entry are rewritten as 0. -/
def Dev.sramQueue (d : Dev) (p entry : Nat) (nozzles : List Nat) : Dev :=
  let x := d.port p
  match x.queue[entry]? with
  | none => d
  | some e =>
    let codes := zeroCodes nozzles e.codes
    let e' : Entry := { e with codes := codes, lcv := d.lineCheck e.plane codes }
    let d := d.setPort p { x with queue := x.queue.zipIdx.map (fun q => if q.2 = entry then e' else q.1) }
    e.parts.foldl (fun d q => d.flagLoss q.1) d

/-- A word of an active copy: used at its reset value by the page in hand; the stoker copies it from the shadow copy where
the plane's commit is not pending. -/
def Dev.sramActive (d : Dev) (a : Nat) : Dev :=
  match d.ownerPlane a with
  | none => { d with act := spPut (resetWord d.part a) a (d.reg a) d.act }
  | some n =>
    let pending := decide ((d.ras.corrWait ||| d.ras.corrCopy ||| d.ras.htWait ||| d.ras.htCopy) &&& bit8 n ≠ 0)
    let w := if pending || !d.stokerRuns then resetWord d.part a else d.reg a
    let d := { d with act := spPut (resetWord d.part a) a w d.act }
    match (d.raster n).page with
    | some k => d.flagLoss k
    | none => d

/-- A byte of a shadow copy takes its reset value, with a notice of the register's address. -/
def Dev.sramShadow (d : Dev) (a byte : Nat) : Dev :=
  let b := byte % 4
  let w := setBits (d.reg a) (8 * b + 7) (8 * b) (bitsOf (resetWord d.part a).toNat (8 * b + 7) (8 * b))
  (d.setReg a w).notice Nt.SramUncorrectable [(4, a)]

/-- A row error is taken as 0; in a pair the line it feeds carries evidence (Table 66). -/
def Dev.sramRowError (d : Dev) (n p j : Nat) : Dev :=
  let r := d.raster n
  let h := p - d.firstPort n
  let rows := r.rowErr.zipIdx.map (fun e => if e.2 = h then e.1.zipIdx.map (fun v => if v.2 = j then 0 else v.1) else e.1)
  let d := d.setRaster n { r with rowErr := rows }
  if d.inPair then
    let e := d.planeOffset n + r.line + (d.staggers n).getD (j % d.rowCount n) 0
    d.setPair (fun x => { x with evidence := x.evidence ++ [(n, e)] })
  else d

/-- R145: the use in hand of a plane ends: its lines not yet in the ring print blank, and its stream's history is lost. -/
def Dev.sramDecode (d : Dev) (n : Nat) : Dev :=
  let x := d.decode n
  match x.uses.getLast? with
  | none => d
  | some u =>
    let off := match x.cursor with
      | some c => c.strip
      | none => 0
    let v : Use := { u with
      lines := u.lines.map (fun l => { l with data := [], judged := false, fault := true })
      finish := { quietEnd with stripId := u.finish.stripId } }
    let d := d.setDecode n { x with uses := x.uses.dropLast ++ [v] }
    let d := match u.stream with
      | some s => d.breakStream s
      | none => d
    d.dataLoss u.page u.finish.stripId off

/-- R397: an uncorrectable byte; where the table says so, a fatal fault in a pair (Table 63, row 3). -/
def Dev.sramLost (d : Dev) (place : SramPlace) : Dev :=
  match place with
  | .stagger n line p js => if d.pair.mode then d.fatalFault 2 else d.sramStagger n.val line p.val js
  | .queue p entry js => if d.pair.mode then d.fatalFault 2 else d.sramQueue p.val entry js
  | .activeCopy a => if d.pair.mode then d.fatalFault 2 else d.sramActive a
  | .shadowCopy a byte => d.sramShadow a byte
  | .rowError n p j => d.sramRowError n.val p.val j
  | .decode n => d.sramDecode n.val
  | .stoker => d.watchdogExpiry true
  | .other q => d.queueReset q

/-- R398: a pass over the SRAM ends when the sweeper comes back to a lower address. -/
def Dev.sramPass (d : Dev) (addr : Nat) : Dev :=
  let d := if addr < d.memc.sramLast then d.bump Fld.MEM_SRAMPASS.Count else d
  d.setMemc (fun c => { c with sramLast := addr })

/-- R396 to R398: the sweeper reads an SRAM byte and corrects or reports it. -/
def Dev.sramSweepRead (d : Dev) (addr : Nat) (place : SramPlace) (find : Option LineFind) : Dev :=
  if d.rd Fld.MEM_CTRL.SweepEn = 0 then d
  else
    let d := d.sramPass addr
    match find with
    | none => d
    | some .corrected => (d.bump Fld.MEM_SRAMCE.Count).lastFind 4 addr
    | some .uncorrectable =>
      let d := ((d.bump Fld.MEM_SRAMUE.Count).lastFind 5 addr).sticky Fld.MEM_ERR.SramUnc
      (d.trouble Nt.SramUncorrectable []).sramLost place

end Sys2Proof.Machine
end

