-- ==== Sys2Proof/Machine/Service.lean ====
section
/-!
DEFINITION. The service port (R491 to R495): the board controller's requests and the device's responses.
-/
namespace Sys2Proof.Machine

/-- R494: the statuses of Table 129 for those of the window (R12). -/
def serviceStatus (st : Nat) : Nat := if st = stAlignment then 2 else if st = stNoRegister then 3 else 0

/-- R492: the 6-byte response. -/
def serviceResponse (status data : Nat) : Bytes :=
  let b := natBE 1 status ++ natBE 4 data
  b ++ natBE 1 (crc8 b)

/-- R437: before the stoker is released only GLB, CFG, TRB and PWR are reached. -/
def Dev.serviceReaches (d : Dev) (a : Nat) : Bool := d.boot.stokerUp || earlyBlock a

/-- R494: the address lies in NZT or THR and RASTER is not ON. -/
def Dev.serviceWakes (d : Dev) (a : Nat) : Bool := (isNzt a || isThr a) && !d.domOn 7

/-- R494: the status that turns a request away before it is performed, 0 where none does. -/
def Dev.serviceBar (d : Dev) (len : Nat) (req : Bytes) : Nat :=
  let a := beAt req 1 4
  if crc8 (req.take (len - 1)) ≠ beAt req (len - 1) 1 then 1
  else if a % 4 ≠ 0 then 2
  else if !d.serviceReaches a then 3
  else if d.serviceWakes a then 4
  else 0

/-- A request turned away: it has no effect but the wake that its status names. -/
def Dev.serviceRefuse (d : Dev) (status : Nat) : Dev :=
  (if status = 4 then d.touchTables else d).emit (.service (serviceResponse status 0))

/-- R492: a Read request, performed once and answered; R466: an access wakes STOKER. -/
def Dev.serviceRead (d : Dev) (req : Bytes) : Dev :=
  let d := d.wake 1 6
  match d.serviceBar 6 req with
  | 0 =>
    let r := windowRead d (beAt req 1 4)
    r.2.2.emit (.service (serviceResponse (serviceStatus r.1) r.2.1.toNat))
  | s => d.serviceRefuse s

/-- R492: a Write request, performed once and answered with the value written. -/
def serviceWrite (d : Dev) (m : Mem) (req : Bytes) : Dev × Mem :=
  let d := d.wake 1 6
  match d.serviceBar 10 req with
  | 0 =>
    let r := windowWrite d m .service [] (beAt req 1 4) (BitVec.ofNat 32 (beAt req 5 4))
    (r.2.1.emit (.service (serviceResponse (serviceStatus r.1) (if r.1 = stOk then beAt req 5 4 else 0))), r.2.2)
  | s => (d.serviceRefuse s, m)

/-- R494: a request of another Cmd. -/
def Dev.badCommand (d : Dev) : Dev := (d.wake 1 6).serviceRefuse 5

/-- R492, R494, R495: one transaction: what its first byte makes of it, where its last request bit has come. -/
def servicePort (d : Dev) (m : Mem) (req : Bytes) : Dev × Mem :=
  match req with
  | [] => (d, m)
  | cmd :: _ =>
    if cmd = 1 then (if req.length < 6 then d else d.serviceRead req, m)
    else if cmd = 2 then (if req.length < 10 then (d, m) else serviceWrite d m req)
    else (d.badCommand, m)

end Sys2Proof.Machine
end

