-- ==== Sys2Proof/Machine/Ojp.lean ====
section
/-!
DEFINITION. The Oaxia job protocol's sessions: what is accepted (R82 to R88), opening and closing (R89 to R95), the order in
which messages are performed (R96 to R99, R102), and the acknowledgement and resending of the device's own (R100).
-/
namespace Sys2Proof.Machine

/-! ### A received message (R86, R87) -/

/-- Flags.Tag. -/
def msgTagged (m : OjpMsg) : Bool := m.flags.toNat.testBit 0
/-- The payload's length. -/
def msgSize (m : OjpMsg) : Nat := 28 + m.body.length + m.tail.length
/-- The header with a MsgCrc, and the body. -/
def msgFrame (kind crc : Nat) (m : OjpMsg) : Bytes :=
  ojpHeader kind m.flags.toNat m.session.toNat m.bodyLength.toNat m.seq.toNat m.ackSeq.toNat m.ackMap.toNat crc ++ m.body
/-- R86, R87: the header is sound and the lengths agree. -/
def msgSound (kind : Nat) (m : OjpMsg) : Bool :=
  decide (m.magic = 0x4F4A#16) && decide (m.version = 1#8) && decide (m.flags.toNat < 4) &&
    decide (m.body.length = m.bodyLength.toNat) && decide (m.tail.length = if msgTagged m then 16 else 0) &&
    decide (crc32c (msgFrame kind 0 m) = m.msgCrc.toNat)
/-- R358: the length of the frame that carries the payload, without a VLAN tag: payload, UDP, IP and Ethernet. -/
def msgFrameSize (m : OjpMsg) : Nat := msgSize m + (if m.ep.v6 then 48 else 28) + 18

/-- R88: the sequenced control messages of a host: Close, LinkWrite, Doorbell, RegWrite, RegRead. -/
def controlKind (kind : Nat) : Bool := [0x03, 0x11, 0x12, 0x20, 0x21].contains kind
/-- R102: the messages the stoker performs. -/
def stokerKind (kind : Nat) : Bool := [0x03, 0x20, 0x21].contains kind
/-- R88: the sequenced messages of a host. -/
def sequencedKind (kind : Nat) : Bool := [0x03, 0x10, 0x11, 0x12, 0x13, 0x20, 0x21].contains kind

/-- R112: the message carries the tag of a key under given nonces. -/
def msgTagOk (kind : Nat) (m : OjpMsg) (key devNonce hostNonce : Bytes) : Bool :=
  msgTagged m && decide (m.tail = ojpTag key devNonce hostNonce (msgFrame kind m.msgCrc.toNat m))

/-- R111, R113: the message passes the authentication that its session asks of it. -/
def Dev.authentic (d : Dev) (s : Session) (kind : Nat) (m : OjpMsg) : Bool :=
  if s.keyId = 0 then !msgTagged m
  else if msgTagged m then
    match d.keyOf s.keyId with
    | some k => msgTagOk kind m k s.devNonce s.hostNonce
    | none => false
  else !controlKind kind

/-! ### Results and replies (R110) -/

/-- R110: a Result for the host message with sequence number `ref`. -/
def Dev.result (d : Dev) (i ref status detail extra : Nat) : Dev :=
  d.sendSeq i 0x30 (natBE 4 ref ++ natBE 2 status ++ natBE 2 detail ++ natBE 8 extra) none

/-- R107: a JobReadReply without data. -/
def readReply (m : OjpMsg) (status : Nat) (data : Bytes) : Bytes :=
  natBE 8 (beAt m.body 0 8) ++ natBE 4 data.length ++ natBE 2 status ++ natBE 2 0 ++ data

/-- R109: a RegReadReply that carries a failure as a whole. -/
def regReply (count status : Nat) (entries : Bytes) : Bytes := natBE 2 count ++ natBE 2 status ++ entries

/-! ### Sessions end (R93, R94, R118) -/

/-- R118: a session that has ended receives no record any more. -/
def Dev.dropRecords (d : Dev) (i : Nat) : Dev :=
  { d with job := { d.job with pages := d.job.pages.map (fun p =>
    { p with records := p.records.map (fun r => { r with waiting := delNat i r.waiting }) }) } }

/-- A session is freed; mirrored lines of its messages are waited for no longer, and the journal is told (Table 114). -/
def Dev.freeSession (d : Dev) (i : Nat) : Dev :=
  let d := (d.setSession i none).dropRecords i
  let d := d.setPair (fun p => { p with mirrors := p.mirrors.map (fun x => if x.session = i then { x with session := 32, result := none } else x) })
  { d with jnl := { d.jnl with queue := d.jnl.queue ++ [.sessions] } }

/-- R94: the device closes a session by itself: one Reset, a trouble record, and the session is freed. -/
def Dev.closeSession (d : Dev) (i : Nat) (s : Session) (reason : Nat) : Dev :=
  let d := d.sendFrame s.port (.ojp s.ep s.mac s.port (resetPayload i reason s.ackSeq s.ackMap))
  (d.trouble Nt.SessionClosed [(1, i), (1, reason)]).freeSession i

/-- R94: NET_OJPIDLE.Timeout has passed without a message of the session. -/
def Dev.idleTimeout (d : Dev) (i : Nat) : Dev :=
  match d.session i with
  | some s => (d.sticky Fld.NET_OJPERR.IdleClose).closeSession i s 1
  | none => d

/-- R99: AckDelay has passed: a standalone Ack. -/
def Dev.ackDelay (d : Dev) (i : Nat) : Dev :=
  match d.session i with
  | some s => if s.ackPending then d.transmit i s 0x05 0 [] else d
  | none => d

/-- One device message of a session changed. -/
def Session.modMsg (s : Session) (seq : Nat) (f : DevMsg → DevMsg) : Session :=
  { s with unacked := s.unacked.map (fun m => if m.seq = seq then f m else m) }

/-- R94, R100: the retransmit time of message `seq` of session `i` has run out. -/
def Dev.retransmit (d : Dev) (i seq : Nat) : Dev :=
  match d.session i with
  | none => d
  | some s =>
    match s.unacked.find? (fun m => m.seq == seq) with
    | none => d
    | some m =>
      if m.hostHeld || m.parked then d
      else if d.rd Fld.NET_OJPRTO.MaxTries ≤ m.tries then (d.sticky Fld.NET_OJPERR.RetryLimit).closeSession i s 2
      else if d.carries i s m.kind m.seq m.body then
        (d.bump Fld.NET_OJPRETX.Count).transmit i
          (s.modMsg seq (fun m => { m with tries := m.tries + 1, rto := if m.tries ≤ 6 then 2 * m.rto else m.rto }))
          m.kind m.seq m.body
      else d.setSession i (some (s.modMsg seq (fun m => { m with parked := true })))

/-- R116: TelemetryPeriod has passed in a session subscribed to Telemetry. -/
def Dev.telemetryPeriod (d : Dev) (i : Nat) : Dev :=
  match d.session i with
  | some s => if s.subscribe.toNat.testBit 1 then d.sendSeq i 0x41 d.telBody none else d
  | none => d

/-! ### The path a session follows (R362, R363) -/

/-- A waiting message that its path now carries is sent. -/
def Dev.unpark (i : Nat) (d : Dev) (m : DevMsg) : Dev :=
  match d.session i with
  | some s =>
    if m.parked && d.carries i s m.kind m.seq m.body then
      let d := if m.tries = 0 then d else d.bump Fld.NET_OJPRETX.Count
      d.transmit i (s.modMsg m.seq (fun m => { m with parked := false, tries := m.tries + 1 })) m.kind m.seq m.body
    else d
  | none => d

/-- R362, R363: the session follows the port and address of a valid message; what waited for a path is sent. -/
def Dev.followPath (d : Dev) (i : Nat) (s : Session) (m : OjpMsg) : Dev :=
  let s := { s with mac := m.mac, port := m.port }
  let path := d.sessionPath s
  let d :=
    if path < s.maxMessage ∧ s.shrunk = false then
      ((d.setSession i (some { s with shrunk := true })).sticky Fld.NET_OJPERR.PathShrink).notice Nt.PathShrink
        [(1, i), (1, m.port.val), (8, s.maxMessage), (8, path)]
    else d.setSession i (some s)
  s.unacked.foldl (Dev.unpark i) d

/-! ### The host's acknowledgements (R99, R100) -/

/-- R100: AckSeq and AckMap of a host message; one that is out of date or acknowledges what was never sent says nothing. -/
def Session.takeAck (s : Session) (ack map : Nat) : Session :=
  let base := match s.unacked with
    | m :: _ => m.seq
    | [] => s.txNext
  if seqBefore ack base || seqBefore s.txNext ack then s
  else
    { s with unacked := (s.unacked.filter (fun m => !seqBefore m.seq ack)).map (fun m =>
      { m with hostHeld := (List.range 64).any (fun k => map.testBit k && m.seq == seqAdd ack (1 + k)) }) }

/-- R100: messages that waited enter the window while it has room. -/
def Dev.fillWindow (i : Nat) : Nat → Dev → Dev
  | 0, d => d
  | k + 1, d =>
    match d.session i with
    | none => d
    | some s =>
      match s.waiting with
      | [] => d
      | w :: rest =>
        if s.unacked.length < s.hostWindow then
          Dev.fillWindow i k (d.launch i { s with waiting := rest } w.kind w.body w.page)
        else d

/-- A host message's acknowledgement taken, where AckValid is set. -/
def Dev.hostAck (d : Dev) (i : Nat) (m : OjpMsg) : Dev :=
  match d.session i with
  | some s =>
    if m.flags.toNat.testBit 1 then
      (d.setSession i (some (s.takeAck m.ackSeq.toNat m.ackMap.toNat))).fillWindow i s.waiting.length
    else d
  | none => d

/-! ### Open (R89 to R92) -/

/-- Table 23 as clamped by R90: windows, Subscribe, KeyId, TelemetryPeriod. -/
structure OpenAsk where
  nonce : Bytes
  devWindow : Nat
  hostWindow : Nat
  subscribe : Nat
  keyId : Nat
  telPeriod : Nat

/-- The values an Open asks for, clamped to legal ones. -/
def openAsk (b : Bytes) : OpenAsk :=
  ⟨sliceB b 0 8, clampNat 1 1024 (beAt b 8 2), clampNat 1 1024 (beAt b 10 2), beAt b 12 2 % 16, min 4 (beAt b 14 1),
    clampNat 10 60000 (beAt b 16 4)⟩

/-- Table 24: the OpenReply body. -/
def Dev.openReplyBody (d : Dev) (q : OpenAsk) (status session maxMessage : Nat) (devNonce : Bytes) : Bytes :=
  natBE 2 status ++ natBE 1 session ++ natBE 1 d.pair.role.code ++ devNonce ++ q.nonce ++ natBE 2 q.devWindow ++
    natBE 2 q.hostWindow ++ natBE 2 q.subscribe ++ natBE 2 maxMessage ++ natBE 1 (d.devNum % 2) ++ [0#8, 0#8, 0#8]

/-- R91: an Open refused with a status. -/
def Dev.refuseOpen (d : Dev) (m : OjpMsg) (q : OpenAsk) (status maxMessage : Nat) : Dev :=
  let nonce := natBE 8 (Config.deviceNonce d.free).toNat
  d.draw.sendFrame m.port
    (.ojp m.ep m.mac m.port (ojpFrame 0x02 2 0xFF 0 0 0 (d.openReplyBody q status 0xFF maxMessage nonce)))

/-- R91, R113: an Open passes authentication. -/
def Dev.openAuthentic (d : Dev) (m : OjpMsg) (q : OpenAsk) : Bool :=
  if q.keyId = 0 then decide (d.rd Fld.NET_OJPCTRL.AuthRequired = 0) && !msgTagged m
  else
    match d.keyOf q.keyId with
    | some k => msgTagOk 0x01 m k (List.replicate 8 0#8) q.nonce
    | none => false

/-- The free session numbers, ascending. -/
def Dev.freeSessions (d : Dev) : List Nat := allBelow 16 (fun i => (d.session i).isNone)

/-- R92: a new session; the number granted, of those that are free, is the device's choice. -/
def Dev.grantOpen (d : Dev) (m : OjpMsg) (q : OpenAsk) (free : List Nat) (maxMessage : Nat) : Dev :=
  let i := free.getD (Config.sessionChoice d.free % free.length) 0
  let nonce := natBE 8 (Config.deviceNonce d.free).toNat
  let reply := d.openReplyBody q 0 i maxMessage nonce
  let s : Session := { ep := m.ep, mac := m.mac, port := m.port, atPair := m.atPair, hostNonce := q.nonce, devNonce := nonce
                       devWindow := q.devWindow, hostWindow := q.hostWindow, subscribe := BitVec.ofNat 4 q.subscribe
                       keyId := q.keyId, telPeriod := q.telPeriod, maxMessage := maxMessage, openReply := reply, ackSeq := 1
                       held := [], ackPending := false, txNext := 1, unacked := [], waiting := [], shrunk := false }
  let d : Dev := { d.draw with jnl := { d.jnl with queue := d.jnl.queue ++ [JnlChange.sessions] } }
  d.transmit i s 0x02 0 reply

/-- R91: the open session that an Open of this endpoint and nonce has opened already. -/
def Dev.openedBy (d : Dev) (m : OjpMsg) (nonce : Bytes) : Option (Nat × Session) :=
  (List.range 16).findSome? (fun i =>
    match d.session i with
    | some s => if decide (s.ep = m.ep ∧ s.hostNonce = nonce) then some (i, s) else none
    | none => none)

/-- R89 to R92: an Open, performed by the stoker. -/
def Dev.openSession (d : Dev) (m : OjpMsg) : Dev :=
  let q := openAsk m.body
  let maxMessage := pathMax m.ep.v6 (decide (d.rd (Fld.NET_PCTRL.Jumbo m.port.val) = 1))
  if m.session ≠ 0xFF#8 ∨ m.seq ≠ 0#32 ∨ m.body.length ≠ 32 then d.refuseOpen m q 9 maxMessage
  else
    match d.openedBy m q.nonce with
    | some (i, s) =>
      let d := d.followPath i s m
      match d.session i with
      | some s => d.transmit i s 0x02 0 s.openReply
      | none => d
    | none =>
      if !d.openAuthentic m q then (d.bump Fld.NET_OJPAUTHF.Count).refuseOpen m q 6 maxMessage
      else if d.freeSessions = [] then (d.sticky Fld.NET_OJPERR.SessionFull).refuseOpen m q 10 maxMessage
      else d.grantOpen m q d.freeSessions maxMessage

/-! ### Performing (R98, R102) -/

/-- The session, after the message at its AckSeq has been performed. -/
def Session.consumed (s : Session) : Session :=
  { s with ackSeq := seqAdd s.ackSeq 1, held := s.held.filter (fun h => h.msg.seq.toNat != s.ackSeq), ackPending := true }

/-- R97, R98: the message at AckSeq of session `i` is performed: its number is consumed. -/
def Dev.consume (d : Dev) (i : Nat) : Dev :=
  match d.session i with
  | some s => d.setSession i (some s.consumed)
  | none => d

/-- R119: a keeper's own address takes no change of the job store and no doorbell. -/
def Dev.notStriker (d : Dev) : Bool := d.isKeeper

/-- Bits 63:40 of a preamble's Offset, or its 4 reserved bytes, are set. -/
def preambleBad (b : Bytes) : Bool := decide (2 ^ 40 ≤ beAt b 0 8) || decide (beAt b 12 4 ≠ 0)

/-- R104: the status a JobWrite fails with, 0 where it is written. -/
def Dev.jobWriteFail (d : Dev) (m : OjpMsg) : Nat :=
  let n := beAt m.body 8 4
  if m.body.length < 16 ∨ n ≠ m.body.length - 16 ∨ preambleBad m.body = true then 9
  else if n ≠ 0 ∧ d.jobLimit < beAt m.body 0 8 + n then 1
  else if d.notStriker then 8
  else 0

/-- R105: the status a LinkWrite fails with. -/
def Dev.linkWriteFail (d : Dev) (m : OjpMsg) : Nat :=
  let off := beAt m.body 0 8
  if m.body.length ≠ 16 ∨ 2 ^ 40 ≤ off then 9
  else if off % 8 ≠ 0 then 2
  else if d.jobLimit < off + 8 then 1
  else if d.notStriker then 8
  else 0

/-- R106, R119: the status a Doorbell fails with. -/
def Dev.doorbellFail (d : Dev) (m : OjpMsg) : Nat := if m.body ≠ [] then 9 else if d.notStriker then 8 else 0

/-- R107: the status a JobRead fails with before it reads. -/
def Dev.jobReadFail (d : Dev) (s : Session) (m : OjpMsg) : Nat :=
  let n := beAt m.body 8 4
  if m.body.length ≠ 16 ∨ preambleBad m.body = true then 9
  else if n = 0 then 0
  else if s.maxMessage < n + (if s.keyId = 0 then 44 else 60) then 7
  else if d.jobLimit < beAt m.body 0 8 + n then 1
  else 0

/-- R102: does performing the message need the job store? -/
def Dev.needsStore (d : Dev) (s : Session) (kind : Nat) (m : OjpMsg) : Bool :=
  d.authentic s kind m &&
    ((decide (kind = 0x10) && decide (d.jobWriteFail m = 0) && decide (beAt m.body 8 4 ≠ 0)) ||
      (decide (kind = 0x11) && decide (d.linkWriteFail m = 0)) || (decide (kind = 0x12) && decide (d.doorbellFail m = 0)) ||
      (decide (kind = 0x13) && decide (d.jobReadFail s m = 0) && decide (beAt m.body 8 4 ≠ 0)))

/-- R104, R105, R319: bytes written for the message at AckSeq of session `i`; in a pair it is performed once the keeper has
acknowledged every line. -/
def storeFor (d : Dev) (m : Mem) (i : Nat) (finds : Finds) (a : Nat) (bs : Bytes) : Dev × Mem :=
  let d := d.meetMerge m finds a bs.length
  let w := m.hostWrite finds d.now.sec a bs
  let result := if w.2 = [] then none else some (4, w.2.length, w.2.headD 0)
  if d.mirrors then (d.sendMirror w.1 (linesOf a bs.length) i result, w.1)
  else
    let ref := match d.session i with
      | some s => s.ackSeq
      | none => 0
    let d := d.consume i
    match result with
    | some (st, n, x) => (d.result i ref st n x, w.1)
    | none => (d, w.1)

/-- R103, R104: JobWrite. -/
def performJobWrite (d : Dev) (m : Mem) (i : Nat) (g : OjpMsg) : Dev × Mem :=
  let st := d.jobWriteFail g
  if st ≠ 0 then ((d.consume i).result i g.seq.toNat st 0 0, m)
  else if g.body.length = 16 then (d.consume i, m)
  else storeFor d m i g.finds (beAt g.body 0 8) (g.body.drop 16)

/-- R105: LinkWrite. -/
def performLinkWrite (d : Dev) (m : Mem) (i : Nat) (g : OjpMsg) : Dev × Mem :=
  let st := d.linkWriteFail g
  if st ≠ 0 then ((d.consume i).result i g.seq.toNat st 0 0, m)
  else storeFor d m i g.finds (beAt g.body 0 8) (natLE 8 (beAt g.body 8 8))

/-- R106: Doorbell. -/
def Dev.performDoorbell (d : Dev) (m : Mem) (i : Nat) (g : OjpMsg) : Dev :=
  let st := d.doorbellFail g
  if st ≠ 0 then (d.consume i).result i g.seq.toNat st 0 0 else (d.ring m g.finds).consume i

/-- R107: the bytes of a JobRead: zeros for a damaged line. -/
def Mem.readZeroed (m : Mem) (finds : Finds) (a : Nat) : Nat → Bytes
  | 0 => []
  | n + 1 => (if m.bad finds (lineOf a) then 0#8 else m.seen a) :: Mem.readZeroed m finds (a + 1) n

/-- R107: JobRead. -/
def Dev.performJobRead (d : Dev) (m : Mem) (i : Nat) (s : Session) (g : OjpMsg) : Dev :=
  let st := d.jobReadFail s g
  if st ≠ 0 then (d.consume i).sendSeq i 0x14 (readReply g st []) none
  else
    let a := beAt g.body 0 8
    let n := beAt g.body 8 4
    let lines := linesOf a n
    let d := (d.meetLines m g.finds lines).consume i
    d.sendSeq i 0x14 (readReply g (if lines.any (m.bad g.finds) then 5 else 0) (m.readZeroed g.finds a n)) none

/-- The path by which a session's register messages reach the window: the address they arrived at (R119). -/
def msgPath (g : OjpMsg) : Path := if g.atPair then .ojpPair else .ojpOwn

/-- R108: a RegWrite in progress: the device, the store, how many entries failed, and the first that did with its
status. -/
structure WriteRun where
  dev : Dev
  mem : Mem
  fails : Nat
  first : Option (Nat × Nat)

/-- R108: entry `k` of a RegWrite. -/
def writeEntry (g : OjpMsg) (v : WriteRun) (k : Nat) : WriteRun :=
  let w := windowWrite v.dev v.mem (msgPath g) g.finds (beAt g.body (4 + 8 * k) 4) (BitVec.ofNat 32 (beAt g.body (8 + 8 * k) 4))
  if w.1 = stOk then { v with dev := w.2.1, mem := w.2.2 }
  else ⟨w.2.1, w.2.2, v.fails + 1, match v.first with
    | some x => some x
    | none => some (k, w.1)⟩

/-- Table 26's code of a window status (R12). -/
def windowStatus (st : Nat) : Nat := if st = stAlignment then 2 else if st = stNoRegister then 3 else 0

/-- R108: RegWrite. -/
def performRegWrite (d : Dev) (m : Mem) (i : Nat) (g : OjpMsg) : Dev × Mem :=
  let n := beAt g.body 0 2
  if g.body.length ≠ 4 + 8 * n ∨ beAt g.body 2 2 ≠ 0 then ((d.consume i).result i g.seq.toNat 9 0 0, m)
  else if 1024 < n then ((d.consume i).result i g.seq.toNat 7 0 0, m)
  else
    let v := (List.range n).foldl (writeEntry g) ⟨d, m, 0, none⟩
    let d := v.dev.consume i
    match v.first with
    | some (k, st) => (d.result i g.seq.toNat (windowStatus st) k v.fails, v.mem)
    | none => (d, v.mem)

/-- R109: entry `k` of a RegRead, with the reply's bytes so far. -/
def readEntry (g : OjpMsg) (v : Dev × Bytes) (k : Nat) : Dev × Bytes :=
  let a := beAt g.body (4 + 4 * k) 4
  let r := windowRead v.1 a
  (r.2.2, v.2 ++ natBE 4 a ++ natBE 4 r.2.1.toNat ++ natBE 2 (windowStatus r.1) ++ natBE 2 0)

/-- R109: RegRead. -/
def Dev.performRegRead (d : Dev) (i : Nat) (s : Session) (g : OjpMsg) : Dev :=
  let n := beAt g.body 0 2
  if g.body.length ≠ 4 + 4 * n ∨ beAt g.body 2 2 ≠ 0 then (d.consume i).sendSeq i 0x22 (regReply 0 9 []) none
  else if 1024 < n ∨ s.maxMessage < 32 + 12 * n + (if s.keyId = 0 then 0 else 16) then
    (d.consume i).sendSeq i 0x22 (regReply 0 7 []) none
  else
    let r := (List.range n).foldl (readEntry g) (d, [])
    (r.1.consume i).sendSeq i 0x22 (regReply n 0 r.2) none

/-- R93: Close: acknowledged, then the session is freed. -/
def Dev.performClose (d : Dev) (i : Nat) (s : Session) (g : OjpMsg) : Dev :=
  if g.body ≠ [] then (d.consume i).result i g.seq.toNat 9 0 0
  else ((d.consume i).transmit i s.consumed 0x05 0 []).freeSession i

/-- R113: a message that fails authentication consumes its number and has no other effect; reads carry it in their reply. -/
def Dev.performAuthFail (d : Dev) (i kind : Nat) (g : OjpMsg) : Dev :=
  let d := (d.bump Fld.NET_OJPAUTHF.Count).consume i
  if kind = 0x13 then d.sendSeq i 0x14 (readReply g 6 []) none
  else if kind = 0x21 then d.sendSeq i 0x22 (regReply 0 6 []) none
  else d.result i g.seq.toNat 6 0 0

/-- R98: the message at AckSeq of session `i` is performed. -/
def performMsg (d : Dev) (m : Mem) (i : Nat) (s : Session) (h : HeldMsg) : Dev × Mem :=
  if !d.authentic s h.kind h.msg then (d.performAuthFail i h.kind h.msg, m)
  else if h.kind = 0x03 then (d.performClose i s h.msg, m)
  else if h.kind = 0x10 then performJobWrite d m i h.msg
  else if h.kind = 0x11 then performLinkWrite d m i h.msg
  else if h.kind = 0x12 then (d.performDoorbell m i h.msg, m)
  else if h.kind = 0x13 then (d.performJobRead m i s h.msg, m)
  else if h.kind = 0x20 then performRegWrite d m i h.msg
  else (d.performRegRead i s h.msg, m)

/-- R97: the message that session `i` is to perform next: held at AckSeq, with no earlier one waiting for the keeper. -/
def Dev.nextHeld (d : Dev) (i : Nat) : Option (Session × HeldMsg) :=
  match d.session i with
  | none => none
  | some s =>
    if d.pair.mirrors.any (fun x => x.session == i) then none
    else (s.held.find? (fun h => h.msg.seq.toNat == s.ackSeq)).map (fun h => (s, h))

/-- R97, R102: a session's messages performed in unbroken order, as far as the stoker runs and the domains they need are ON;
a domain that is not is woken, and the message is performed once it is. -/
def performHeld (i : Nat) : Nat → Dev × Mem → Dev × Mem
  | 0, x => x
  | k + 1, x =>
    match x.1.nextHeld i with
    | none => x
    | some (s, h) =>
      if stokerKind h.kind && !x.1.stokerRuns then x
      else if stokerKind h.kind && !x.1.domOn 1 then (x.1.wake 1 7, x.2)
      else if x.1.needsStore s h.kind h.msg && !x.1.memRuns then (x.1.wake 5 8, x.2)
      else performHeld i k (performMsg x.1 x.2 i s h)

/-- Session `i` goes on. -/
def sessionGoesOn (x : Dev × Mem) (i : Nat) : Dev × Mem :=
  match x.1.session i with
  | some s => performHeld i s.held.length x
  | none => x

/-- Every session goes on. -/
def sessionsGoOn (x : Dev × Mem) : Dev × Mem := (List.range 16).foldl sessionGoesOn x

/-! ### Receiving (R87, R97) -/

/-- R97, Table 25: a sequenced message. -/
def receiveSequenced (d : Dev) (m : Mem) (i : Nat) (s : Session) (kind : Nat) (g : OjpMsg) : Dev × Mem :=
  let n := g.seq.toNat
  if seqBefore n s.ackSeq || s.held.any (fun h => h.msg.seq == g.seq) then
    ((d.bump Fld.NET_OJPDUP.Count).setSession i (some { s with ackPending := true }), m)
  else if n = s.ackSeq ∨ seqBefore n (seqAdd s.ackSeq s.devWindow) = true then
    sessionGoesOn (d.setSession i (some { s with held := s.held ++ [⟨kind, g⟩] }), m) i
  else ((d.bump Fld.NET_OJPDROP.Count).setSession i (some { s with ackPending := true }), m)

/-- A message of an open session. -/
def receiveIn (d : Dev) (m : Mem) (i : Nat) (s : Session) (kind : Nat) (g : OjpMsg) : Dev × Mem :=
  if s.maxMessage < msgSize g ∨ (kind = 0x06 ∧ g.body ≠ []) then (d.bump Fld.NET_OJPDROP.Count, m)
  else
    let good := d.authentic s kind g
    if !good && !sequencedKind kind then (d.bump Fld.NET_OJPAUTHF.Count, m)
    else
      let d := if good then (d.followPath i s g).hostAck i g else d
      if sequencedKind kind then
        match d.session i with
        | some s => receiveSequenced d m i s kind g
        | none => (d, m)
      else (d, m)

/-- R87: the open session that a message names. -/
def Dev.namedSession (d : Dev) (g : OjpMsg) : Option (Nat × Session) :=
  match d.session g.session.toNat with
  | some s => if decide (s.ep = g.ep) then some (g.session.toNat, s) else none
  | none => none

/-- R87, R95: no session of this number is open for the sender: a Reset. -/
def Dev.noSession (d : Dev) (kind : Nat) (g : OjpMsg) : Dev :=
  d.sendFrame g.port
    (.ojp g.ep g.mac g.port (resetPayload g.session.toNat (if kind = 0x03 then 4 else 0) 0 0))

/-- A message that has passed the checks of its header, in a HOST island that is ON. -/
def deliverMsg (d : Dev) (m : Mem) (kind : Nat) (g : OjpMsg) : Dev × Mem :=
  if kind = 0x01 then (d.openSession g, m)
  else
    match d.namedSession g with
    | some (i, s) => receiveIn d m i s kind g
    | none => (d.noSession kind g, m)

/-- R10: the command that holds a frame waits at the crossing into HOST or STOKER. -/
def Dev.holdFrame (d : Dev) (i : Instr) : Dev := { d with ojp := { d.ojp with arrived := d.ojp.arrived ++ [i] } }

/-- R10, R102: is HOST ON, and for an Open also the stoker? A stoker that has failed leaves it unanswered (R457). -/
def takeMsg (d : Dev) (m : Mem) (kind : Nat) (g : OjpMsg) (i : Instr) : Dev × Mem :=
  if !d.domOn 3 then (d.holdFrame i, m)
  else if kind = 0x01 && !d.stokerRuns then (d, m)
  else if kind = 0x01 && !d.domOn 1 then ((d.wake 1 7).holdFrame i, m)
  else deliverMsg d m kind g

/-- R358: the longest frame a port takes. -/
def Dev.frameLimit (d : Dev) (p : Fin 4) : Nat := if d.rd (Fld.NET_PCTRL.Jumbo p.val) = 1 then 9022 else 1522

/-- R82 to R87, R119, R437: an OJP datagram arrives on a host port. -/
def receiveMsg (d : Dev) (m : Mem) (kind : Nat) (g : OjpMsg) (i : Instr) : Dev × Mem :=
  if d.frameLimit g.port < msgFrameSize g then (d.frameDiscard g.port .tooLong, m)
  else
    let d := d.frameIn g.port.val
    if g.atPair && !d.usesPair then (d, m)
    else if !d.isReady || decide (pathMax g.ep.v6 (decide (d.rd (Fld.NET_PCTRL.Jumbo g.port.val) = 1)) < msgSize g) ||
        !msgSound kind g then (d.bump Fld.NET_OJPDROP.Count, m)
    else takeMsg d m kind g i

end Sys2Proof.Machine
end

