-- ==== Sys2Proof/Machine/PairLink.lean ====
section
/-!
DEFINITION. What arrives over the Igmal link and is not in Pair: mirrored lines and their acknowledgement (R319), registers,
sequence messages (R320), verdicts, sessions (R120), repair (R338) and resynchronisation (R339, R340).
-/
namespace Sys2Proof.Machine

/-! ### Mirrored lines (R319) -/

/-- R319: a line written whole, with the marking it is given. -/
def Mem.putLine (m : Mem) (sec line : Nat) (bs : Bytes) (poisoned : Bool) : Mem :=
  let m := ((m.block line).write line (padTo 64 bs)).heal sec line
  if poisoned then m.poisonLine line else m

/-- R319: a keeper writes mirrored lines and acknowledges them. -/
def mirrorLines (d : Dev) (m : Mem) (lines : List (Nat × Bytes × Bool)) : Dev × Mem :=
  if d.pair.mode && d.isKeeper then
    (d.emit (.pair (.mirrorAck lines.length)), lines.foldl (fun m l => m.putLine d.now.sec (lineOf l.1) l.2.1 l.2.2) m)
  else (d, m)

/-- The oldest mirrored messages, less `n` lines acknowledged in order. -/
def takeMirrorAck : Nat → List MirrorWait → List MirrorWait
  | _, [] => []
  | n, w :: rest => if n < w.left then { w with left := w.left - n } :: rest else { w with left := 0 } :: takeMirrorAck (n - w.left) rest

/-- R98, R319: mirrored messages whose lines the keeper has all acknowledged, or that no keeper will acknowledge, are
performed in order; `fuel` bounds them. -/
def mirrorsDone : Nat → Dev × Mem → Dev × Mem
  | 0, x => x
  | k + 1, x =>
    match x.1.pair.mirrors with
    | [] => x
    | w :: rest =>
      if w.left ≠ 0 ∧ x.1.mirrors = true then x
      else
        let d := x.1.setPair (fun p => { p with mirrors := rest })
        if w.session < 16 then
          let ref := match d.session w.session with
            | some s => s.ackSeq
            | none => 0
          let d := d.consume w.session
          let d := match w.result with
            | some (st, n, e) => d.result w.session ref st n e
            | none => d
          mirrorsDone k (sessionGoesOn (d, x.2) w.session)
        else if w.session < 32 then mirrorsDone k (dmaMirrored d x.2 (w.session - 16))
        else mirrorsDone k (d, x.2)

/-- Enough steps for the mirrored messages waiting. -/
def settleMirrors (x : Dev × Mem) : Dev × Mem := mirrorsDone x.1.pair.mirrors.length x

/-- R319: the keeper's acknowledgement of `n` lines. -/
def mirrorAck (d : Dev) (m : Mem) (n : Nat) : Dev × Mem :=
  settleMirrors (d.setPair (fun p => { p with mirrors := takeMirrorAck n p.mirrors }), m)

/-! ### Register messages and verdicts -/

/-- R318: a keeper performs a mirrored register write; a striker takes a keeper's request for a handoff (R335). -/
def registerMessage (d : Dev) (m : Mem) (a : Nat) (v : Word) : Dev × Mem :=
  if !d.pair.mode then (d, m)
  else if d.isKeeper then (windowWrite d m .partner [] a v).2
  else if a = Adr.PAIR_CTRL ∧ v.toNat.testBit 0 = true then (d.handoff, m)
  else (d, m)

/-- R177: a keeper writes a mirrored verdict to its pending map. -/
def Dev.verdictMessage (d : Dev) (z : Nat) (v : BitVec 2) : Dev :=
  if d.pair.mode && d.isKeeper && decide (z ≤ d.part.maxNozzle) then d.setNozzleState z v 2 else d

/-! ### Sequence messages (R320) -/

/-- R320: a keeper fetches a descriptor its striker names. A copy that is damaged, or whose DescCrc differs, is repaired from
the striker first. -/
def Dev.keeperFetch (d : Dev) (m : Mem) (off : Nat) (crc : Word) : Dev :=
  let lines := [off, off + 64]
  if lines.any (m.bad []) || decide (leNat (m.read (off + 0x14) 4) ≠ crc.toNat) then
    (lines.foldl Dev.askRepair d).setPair (fun p => { p with heldFetch := p.heldFetch ++ [(off, crc)] })
  else d.fetchDescriptor m [] off

/-- R320: the repairs of a named descriptor have been answered: it is fetched, or taken as malformed. -/
def Dev.keeperRefetch (m : Mem) (d : Dev) (f : Nat × Word) : Dev :=
  let lines := [f.1, f.1 + 64]
  if lines.any (fun l => d.pair.repairs.contains l) then d
  else
    let d := d.setPair (fun p => { p with heldFetch := p.heldFetch.filter (fun g => g != f) })
    if lines.any (m.bad []) || decide (leNat (m.read (f.1 + 0x14) 4) ≠ f.2.toNat) then d.malformed f.1 0x14
    else d.fetchDescriptor m [] f.1

/-- R320: a page start named by the striker, with its S and its time. -/
def Dev.keeperStart (d : Dev) (c : Fin 4) (s : Int) (t : TimeStamp) : Dev :=
  let d := d.setsAtPageStart
  match d.unbegun c.val with
  | [] => d
  | p :: _ =>
    let d := (d.endGrants).beginPage c.val s p
    if p.startTime = none then d.modPage p.key (fun q => { q with startTime := some t }) else d

/-- R340: the pages begun on a channel's planes, and the streams that the keeper lacks for them. -/
def Dev.lackBegun (d : Dev) (m : Mem) (c : Nat) : Dev :=
  (d.planesOn.filter (fun n => d.channelOf n == c)).foldl (fun d n =>
    (d.plane n).runs.foldl (fun d r => ((d.page r.page).map (fun p => d.lackStreams m p n)).getD d) d) d

/-- The page of plane `n` that an event named by the striker belongs to: the oldest not abandoned that reaches it. -/
def Dev.runOf (d : Dev) (n e : Nat) : Option Run :=
  (d.plane n).runs.find? (fun r => r.abandoned.isNone && decide (e ≤ d.lastEvent n r))

/-- R320: an abandonment at the event the striker names. -/
def Dev.keeperAbandon (d : Dev) (n e : Nat) : Dev :=
  match d.runOf n e with
  | none => d
  | some r =>
    d.abandon n ((d.plane n).due.filter (fun v => !(v.parts.any (fun q => q.1 == r.page && decide (e ≤ q.2))))) [(r.page, e)]

/-- R320: a plane stops with the resume event the striker names. -/
def Dev.keeperStop (d : Dev) (n e : Nat) : Dev :=
  let d := d.stopPlane n
  match d.runOf n e with
  | none => d
  | some r =>
    let x := d.plane n
    let parts := match x.resume with
      | some (ps, _) => if ps.contains (r.page, e) then ps else [(r.page, e)]
      | none => [(r.page, e)]
    let d := d.setPlane n { x with
      state := .stopped, due := [], open_ := [], resume := some (parts, d.runThreshold n r e)
      heldStrobed := if x.resume.map (·.1) = some parts then x.heldStrobed else []
      runs := x.runs.map (fun q => if q.page = r.page then { q with next := e } else q) }
    d.wr (Fld.LT_RESUME.Event n) e

/-- R320, R222: a data-late stop named by the striker; a keeper's HALT_REQ stays low (R308) and it raises no notice. -/
def Dev.keeperLate (d : Dev) (resume : List (Fin 8 × Nat)) : Dev :=
  let inFlight := (List.range 8).flatMap (fun n => (d.plane n).runs.map (fun r => r.page))
  let d := resume.foldl (fun d e => d.keeperStop e.1.val e.2) d
  let d := (List.range 4).foldl Dev.setTarget d
  let d := { d with lt := { d.lt with haltReq := true } }
  (((d.sticky Fld.LT_ERR.DataLate).bump Fld.LT_LATECNT.Count).flagAll inFlight.eraseDups 8).rearm

/-- R320: what a sequence message says, acted on. -/
def keeperActs (d : Dev) (m : Mem) (g : SeqMsg) : Dev × Mem :=
  match g with
  | .fetch off crc => (d.keeperFetch m off crc, m)
  | .pageStart c s t => dmaPrintEvents d ((d.keeperStart c (signedOf 48 s.toNat) t).lackBegun m c.val, m)
  | .stop => (d.jobStop, m)
  | .abort => (d.jobAbort, m)
  | .abandon n e => (d.keeperAbandon n.val e, m)
  | .dataLate _ _ resume => (d.keeperLate resume, m)

/-- R320: a sequence message reaches a keeper; behind a descriptor under repair it waits. -/
def sequenceMessage (d : Dev) (m : Mem) (g : SeqMsg) : Dev × Mem :=
  if !(d.pair.mode && d.isKeeper) then (d, m)
  else if d.pair.heldFetch ≠ [] then (d.holdFrame (.sequenceMessage g), m)
  else keeperActs d m g

/-! ### Sessions (R120) -/

/-- R120: a session as the striker mirrors it. -/
def Session.copy (s : Session) : SessionCopy :=
  { ep := s.ep, mac := s.mac, port := s.port, hostNonce := s.hostNonce, devNonce := s.devNonce, devWindow := s.devWindow
    hostWindow := s.hostWindow, subscribe := s.subscribe, keyId := s.keyId, telPeriod := s.telPeriod
    maxMessage := s.maxMessage, openReply := s.openReply, ackSeq := s.ackSeq, txNext := s.txNext
    held := s.held.map (fun h => (h.kind, h.msg)), unacked := s.unacked.map (fun m => (m.kind, m.seq, m.body)) }

/-- R120: the session that a copy gives; its messages start anew with their retransmit time. -/
def SessionCopy.session (c : SessionCopy) (rto : Nat) : Session :=
  { ep := c.ep, mac := c.mac, port := c.port, atPair := true, hostNonce := c.hostNonce, devNonce := c.devNonce
    devWindow := c.devWindow, hostWindow := c.hostWindow, subscribe := c.subscribe, keyId := c.keyId
    telPeriod := c.telPeriod, maxMessage := c.maxMessage, openReply := c.openReply, ackSeq := c.ackSeq
    held := c.held.map (fun h => ⟨h.1, h.2⟩), ackPending := true, txNext := c.txNext
    unacked := c.unacked.map (fun m => ⟨m.1, m.2.1, m.2.2, 1, rto, false, false, none⟩), waiting := [], shrunk := false }

/-- The copies changed. -/
def Dev.setCopies (d : Dev) (l : List (Nat × Session)) : Dev := { d with ojp := { d.ojp with copies := l } }

/-- R120: a keeper updates its copy of a session of the pair address. -/
def Dev.sessionMessage (d : Dev) (i : Nat) (c : Option SessionCopy) : Dev :=
  if d.pair.mode && d.isKeeper then
    let others := d.ojp.copies.filter (fun e => e.1 != i)
    match c with
    | some c => d.setCopies (others ++ [(i, SessionCopy.session c d.initialRto)])
    | none => d.setCopies others
  else d

/-- R120, R341: a device that has become striker serves the copies it holds; one that has become keeper keeps copies of the
sessions at the pair address. -/
def Dev.swapSessions (before d : Dev) : Dev :=
  if before.isKeeper && !d.isKeeper then
    (d.ojp.copies.foldl (fun d e => d.setSession e.1 (some e.2)) d).setCopies []
  else if !before.isKeeper && d.isKeeper then
    (List.range 16).foldl (fun d i =>
      match d.session i with
      | some s => if s.atPair then (d.setSession i none).setCopies (d.ojp.copies ++ [(i, s)]) else d
      | none => d) d
  else d

/-! ### Repair (R338) -/

/-- R338: the partner asks for a line. -/
def Dev.repairRequest (d : Dev) (m : Mem) (line : Nat) (finds : Finds) : Dev :=
  if !d.pair.mode then d
  else if m.bad finds line then
    let d := if m.poison.contains line then d else d.queueReread line
    d.emit (.pair (.repairAnswer line none))
  else
    let d := if foundAs finds .corrected line && decide (line < m.watermark) then d.countCorrected line else d
    d.emit (.pair (.repairAnswer line (some (m.read line 64))))

/-- R338: the partner's answer: the line is written whole, or the repair has failed; what waited for it goes on. -/
def repairAnswer (d : Dev) (m : Mem) (line : Nat) (data : Option Bytes) : Dev × Mem :=
  if !d.pair.mode then (d, m)
  else
    let d := d.setPair (fun p => { p with repairs := delNat line p.repairs })
    let x := match data with
      | some bs => ((d.bump Fld.PAIR_RPROK.Count).dropWait line, m.putLine d.now.sec line bs false)
      | none => (((d.bump Fld.PAIR_RPRFAIL.Count).sticky Fld.PAIR_ERR.RepairFail).endWait line, m)
    (x.1.pair.heldFetch.foldl (Dev.keeperRefetch x.2) x.1, x.2)

/-! ### Resynchronisation (R339, R340) -/

/-- The size of a region of Table 69. -/
def resyncRegion : Nat := 2 ^ 20

/-- R339: a region of the store received whole: the lines listed, zeros elsewhere, no poison. -/
def Mem.putRegion (m : Mem) (sec off : Nat) (lines : List (Nat × Bytes)) : Mem :=
  let out := fun (a : Nat) => decide (a < off) || decide (off + resyncRegion ≤ a)
  let m := { m with store := m.store.filter (fun e => out e.1), poison := m.poison.filter out }
  lines.foldl (fun m l => m.putLine sec (lineOf l.1) l.2 false) m

/-- R340: resynchronisation has completed. -/
def Dev.resyncDone (d : Dev) : Dev :=
  (d.setPair (fun p => { p with state := .paired, resynced := true, validStore := true })).notice Nt.ResyncDone []

/-- R340: a continued stream's saved state reaches a keeper that has none. -/
def Dev.takeStream (d : Dev) (x : StreamSt) : Dev :=
  if (d.stream x.number).isSome then d else (d.setStream x).haveStream x.number

/-- R340: the item may arrive after resynchronisation has completed. -/
def lateItem : ResyncItem → Bool
  | .stream _ => true
  | _ => false

/-- R339: an item of resynchronisation data reaches a keeper that synchronises. -/
def resyncItem (d : Dev) (m : Mem) (x : ResyncItem) : Dev × Mem :=
  match x with
  | .storeRegion off lines =>
    (d.setPair (fun p => { p with copied := p.copied + resyncRegion }), m.putRegion d.now.sec off lines)
  | .storePoison line => (d, m.poisonLine line)
  | .register a v f =>
    let d := d.setReg a v
    (if setOf a = .none then d else { d with act := spPut (resetWord d.part a) a f d.act }, m)
  | .nozzle z p a =>
    ({ d with ras := { d.ras with
      pendingMap := spPut 0#2 z p d.ras.pendingMap, adoptedMap := spPut 0#2 z a d.ras.adoptedMap } }, m)
  | .results cal remap => (d.setArea (fun j => { j with calib := cal, remap := remap }), m)
  | .channel c pos hwm fault =>
    let y := d.chan c
    let p := signedOf 48 pos.toNat
    ((d.setChan c { y with pos := p, hwm := signedOf 48 hwm.toNat, mark := p, fault := fault }).wr
      (Fld.LT_CHSTAT.Fault c.val) (if fault then 1 else 0), m)
  | .sequence g => keeperActs d m g
  | .position n e =>
    let y := d.plane n.val
    (d.setPlane n.val { y with runs := y.runs.map (fun r =>
      if r.page = (y.runs.getLast?.map (fun q => q.page)).getD 0 then { r with next := e, formed := max e r.formed } else r) }, m)
  | .stream x => (d.takeStream x, m)
  | .finish => (d.resyncDone, m)

/-- R339, R340: resynchronisation data reaches this device; a stream's saved state may come after the rest. -/
def resyncData (d : Dev) (m : Mem) (x : ResyncItem) : Dev × Mem :=
  if d.pair.mode && (decide (d.pair.state = .syncing) || (d.isKeeper && lateItem x)) then resyncItem d m x else (d, m)

/-- The regions below JOB_LIMIT that hold other than zeros, ascending. -/
def resyncRegions (d : Dev) (m : Mem) : List Nat :=
  ((m.store.filter (fun e => decide (e.1 < d.jobLimit))).map (fun e => e.1 / resyncRegion * resyncRegion)).eraseDups

/-- A region as an item. -/
def Mem.regionItem (m : Mem) (off : Nat) : ResyncItem :=
  let cells := m.store.filter (fun e => decide (off ≤ e.1) && decide (e.1 < off + resyncRegion))
  .storeRegion off ((cells.map (fun e => lineOf e.1)).eraseDups.map (fun l => (l, m.raw l 64)))

/-- The registers that resynchronisation copies: every shadow set and what is mirrored at the pair address. -/
def Dev.resyncRegisters (d : Dev) : List ResyncItem :=
  ((d.win.map (·.1) ++ d.act.map (·.1)).filter (fun a => setOf a != .none || mirroredReg a)).eraseDups.map (fun a =>
    .register a (d.reg a) (if setOf a = .none then d.reg a else d.actReg a))

/-- Sequencer state: the held descriptors, the page starts made, and the next event of each plane that prints. -/
def Dev.resyncSequence (d : Dev) (m : Mem) : List ResyncItem :=
  d.job.pages.map (fun p => .sequence (.fetch p.offset (BitVec.ofNat 32 (leNat (m.read (p.offset + 0x14) 4))))) ++
    d.job.pages.flatMap (fun p => (d.planesOn.filterMap (fun n =>
      ((d.plane n).runs.find? (fun r => r.page == p.key)).map (fun r => (d.channelOf n, r.start)))).eraseDups.map (fun e =>
        .sequence (.pageStart (Fin.ofNat 4 e.1) (BitVec.ofInt 48 e.2) (p.startTime.getD ⟨0, 0, 0⟩)))) ++
    d.planesOn.filterMap (fun n => ((d.plane n).runs.getLast?).map (fun r => .position (Fin.ofNat 8 n) r.next)) ++
    (if d.stoppedPlanes = [] then []
     else [.sequence (.dataLate 8 0xFF (d.stoppedPlanes.map (fun n =>
       (Fin.ofNat 8 n, ((d.plane n).resume.map (fun r => (evName r.1).2)).getD 0))))])

/-- Table 69: everything that a striker sends its keeper. -/
def resyncItems (d : Dev) (m : Mem) : List ResyncItem :=
  (resyncRegions d m).map m.regionItem ++
    (m.poison.filter (fun l => decide (l < d.jobLimit))).map .storePoison ++ d.resyncRegisters ++
    ((d.ras.pendingMap.map (·.1) ++ d.ras.adoptedMap.map (·.1)).eraseDups.map (fun z =>
      .nozzle z (d.pendingState z) (d.adoptedState z))) ++
    [.results d.jnl.area.calib d.jnl.area.remap] ++
    (List.range 4).map (fun c =>
      let y := d.chan (Fin.ofNat 4 c)
      .channel (Fin.ofNat 4 c) (BitVec.ofInt 48 y.pos) (BitVec.ofInt 48 y.hwm) y.fault) ++
    d.resyncSequence m ++ [.finish]

/-- R339: a striker whose partner has begun to synchronise sends it everything, its sessions with it, and each continued
stream's state at its next save. -/
def startResync (before d : Dev) (m : Mem) : Dev :=
  if d.pair.mode && decide (d.pair.role = .striker) && decide (d.pair.partnerState = 3) &&
      !(decide (before.pair.role = .striker) && decide (before.pair.partnerState = 3)) then
    let d := (List.range 16).foldl (fun d i =>
      match d.session i with
      | some s => if s.atPair then d.emit (.pair (.session i (some s.copy))) else d
      | none => d) d
    let d := d.setPair (fun p => { p with dueStreams := (d.dec.streams.filter (fun x => x.valid)).map (fun x => x.number) })
    (resyncItems d m).foldl (fun d x => d.emit (.pair (.resync x))) d
  else d

end Sys2Proof.Machine
end

