-- ==== Sys2Proof/Machine/Settle.lean ====
section
/-!
DEFINITION. What every command shares: whether it finds the device running, what it leaves the pair to do (mirrored messages
performed, roles changed, what leaves over the Igmal link), and accesses and frames that wait for a domain (R10, R470).
-/
namespace Sys2Proof.Machine

/-! ### What leaves over the Igmal link (R318, R355, R357) -/

/-- R120: the session messages for the sessions at the pair address that a command has changed. -/
def sessionNews (before d : Dev) : List Out :=
  if !d.mirrors then []
  else
    (List.range 16).filterMap (fun i =>
      let was := before.session i
      let is := d.session i
      if was = is then none
      else
        match is, was with
        | some s, _ => if s.atPair then some (.pair (.session i (some s.copy))) else none
        | none, some s => if s.atPair then some (.pair (.session i none)) else none
        | none, none => none)

/-- R355, R357: a pair message leaves while the link is up, takes its Seq, and waits for its acknowledgement. -/
def Dev.sendOne (d : Dev) (o : Out) : Dev :=
  match o with
  | .pair m => if d.lane.link.up then { d with lane := { d.lane with link := d.lane.link.send m } }.emit o else d
  | _ => d.emit o

/-- What a command has sent goes off: a striker's session changes before the messages they belong to (R341). -/
def Dev.sendOff (before d : Dev) : Dev :=
  let n := before.out.length
  let new := sessionNews before d ++ d.out.drop n
  new.foldl Dev.sendOne { d with out := d.out.take n }

/-- What a command leaves a pair to do: sessions change hands with the roles (R120), mirrored messages whose keeper has gone
are performed (R319), a keeper that synchronises is sent everything (R339), and what was sent goes off. -/
def settlePair (before : Dev) (x : Dev × Mem) : Dev × Mem :=
  let d := Dev.swapSessions before x.1
  let x := settleMirrors (d, x.2)
  let x := if before.isKeeper && !x.1.isKeeper then sessionsGoOn x else x
  (Dev.sendOff before (startResync before x.1 x.2), x.2)

/-- The state a command leaves. -/
def settle (s : State) (x : Dev × Mem) : State :=
  if x.1.pair.mode then
    let y := settlePair s.dev x
    ⟨y.1, y.2, s.pending⟩
  else ⟨x.1, x.2, s.pending⟩

/-- A command that acts on a device that is not held in reset (R436). -/
def live (s : State) (f : Dev → Mem → Dev × Mem) : Host.Outcome State Fault Refusal :=
  if s.dev.boot.inReset then .next s else .next (settle s (f s.dev s.mem))

/-- A command that changes no byte of the job store. -/
def liveDev (s : State) (f : Dev → Dev) : Host.Outcome State Fault Refusal := live s (fun d m => (f d, m))

/-! ### Accesses to the window by a command's path (R11, R437, R466) -/

/-- The path can bring an access now: the service port where R437 lets it reach, OJP once the device is ready and at an
address it uses, a register message at a keeper. The configuration is applied in one step (R447). -/
def Dev.pathOpen (d : Dev) (path : Path) (a : Nat) : Bool :=
  match path with
  | .service => d.serviceReaches a
  | .ojpOwn => d.isReady && d.stokerRuns
  | .ojpPair => d.isReady && d.stokerRuns && d.usesPair
  | .partner => d.pair.mode && d.isKeeper
  | .config => false

/-- R466: which wake an access of a path gives the stoker. -/
def pathWake (path : Path) : Nat := if path = .service then 6 else 7

/-- An access of a path waits for the stoker where the stoker brings it (R102, R466). -/
def Dev.pathWaits (d : Dev) (path : Path) : Bool :=
  decide (path = .ojpOwn ∨ path = .ojpPair) && !d.domOn 1

/-- The command that holds a waiting write. -/
def heldWrite (path : Path) (finds : Finds) (a : Nat) (v : Word) : Instr :=
  if a = Adr.JOB_DOORBELL then .doorbellRing path finds else .registerWrite path a v

/-- One write of a register by a path. -/
def writeAccess (path : Path) (finds : Finds) (a : Nat) (v : Word) (d : Dev) (m : Mem) : Dev × Mem :=
  if !d.pathOpen path a then (d, m)
  else if d.pathWaits path then ((d.wake 1 7).holdFrame (heldWrite path finds a v), m)
  else (windowWrite (if path = .partner then d else d.wake 1 (pathWake path)) m path finds a v).2

/-- A write that sets bits of a register and leaves its other fields as they stand. -/
def writeBits (path : Path) (a bits : Nat) (d : Dev) (m : Mem) : Dev × Mem :=
  writeAccess path [] a (d.reg a ||| BitVec.ofNat 32 bits) d m

/-- R256: HP_DSKCTRL written with Start set; `granted`: in a pair, the partner's answer. -/
def deskewWrite (path : Path) (all : Bool) (port : Fin 64) (granted : Bool) (d : Dev) (m : Mem) : Dev × Mem :=
  if !d.pathOpen path Adr.HP_DSKCTRL then (d, m)
  else if d.pathWaits path then ((d.wake 1 7).holdFrame (.deskewStart path all port granted), m)
  else
    let x := writeAccess path [] Adr.HP_DSKCTRL (BitVec.ofNat 32 (port.val + if all then 64 else 0)) d m
    (x.1.deskewStart granted, x.2)

/-- One read of a register that has an effect, by a path that is open. -/
def Dev.readAccess (d : Dev) (a : Nat) : Dev := if d.serviceReaches a then (windowRead d a).2.2 else d

/-! ### Frames and messages that wait (R10) -/

/-- A frame that HOST takes: it is counted, it wakes HOST, and it waits where HOST is not ON. -/
def Dev.hostFrame (d : Dev) (i : Instr) (port : Fin 4) (f : Dev → Dev) : Dev :=
  let d := d.frameIn port.val
  if d.domOn 3 then f d else d.holdFrame i

/-- A message that needs the job store waits where MEM is not ON (R471). -/
def storeMessage (i : Instr) (f : Dev → Mem → Dev × Mem) (d : Dev) (m : Mem) : Dev × Mem :=
  if d.memRuns then f d m else ((d.wake 5 8).holdFrame i, m)

/-- R116: a Telemetry message, formed by the stoker (R471). -/
def Dev.telemetryDue (d : Dev) (i : Instr) (k : Fin 16) : Dev :=
  if !d.stokerRuns then d
  else if !d.domOn 1 then (d.wake 1 7).holdFrame i
  else d.telemetryPeriod k.val

/-- A frame, message or access that waited is taken up again. -/
def takeUp (x : Dev × Mem) (i : Instr) : Dev × Mem :=
  let host (f : Dev → Dev) : Dev × Mem := if x.1.domOn 3 then (f x.1, x.2) else (x.1.holdFrame i, x.2)
  match i with
  | .openSession g => takeMsg x.1 x.2 0x01 g i
  | .close g => takeMsg x.1 x.2 0x03 g i
  | .ack g => takeMsg x.1 x.2 0x05 g i
  | .keepalive g => takeMsg x.1 x.2 0x06 g i
  | .jobWrite g => takeMsg x.1 x.2 0x10 g i
  | .linkWrite g => takeMsg x.1 x.2 0x11 g i
  | .doorbell g => takeMsg x.1 x.2 0x12 g i
  | .jobRead g => takeMsg x.1 x.2 0x13 g i
  | .regWrite g => takeMsg x.1 x.2 0x20 g i
  | .regRead g => takeMsg x.1 x.2 0x21 g i
  | .telemetryPeriod k => (x.1.telemetryDue i k, x.2)
  | .arpRequest p mac s t => host (fun d => d.arpRequest p mac s t)
  | .neighbourSolicitation p mac s t => host (fun d => d.neighbourSolicitation p mac s t)
  | .echoRequest p ep t data => host (fun d => d.echoRequest p ep t data)
  | .announce a => host (fun d => d.announce a)
  | .sync g => host (fun d => d.ptpSync g)
  | .followUp g => host (fun d => d.ptpFollowUp g)
  | .delayResp g => host (fun d => d.ptpDelayResp g)
  | .mirror lines => storeMessage i (fun d m => mirrorLines d m lines) x.1 x.2
  | .repairRequest line finds => storeMessage i (fun d m => (d.repairRequest m line finds, m)) x.1 x.2
  | .repairAnswer line data => storeMessage i (fun d m => repairAnswer d m line data) x.1 x.2
  | .resyncData item => storeMessage i (fun d m => resyncData d m item) x.1 x.2
  | .sequenceMessage g => sequenceMessage x.1 x.2 g
  | .registerWrite path a v => writeAccess path [] a v x.1 x.2
  | .doorbellRing path finds => writeAccess path finds Adr.JOB_DOORBELL 1#32 x.1 x.2
  | .deskewStart path all port granted => deskewWrite path all port granted x.1 x.2
  | _ => x

/-- R470: what waited is taken up in the order it came, and every session goes on. -/
def takeUpAll (x : Dev × Mem) : Dev × Mem :=
  let waiting := x.1.ojp.arrived
  let d : Dev := { x.1 with ojp := { x.1.ojp with arrived := [] } }
  sessionsGoOn (waiting.foldl takeUp (d, x.2))

end Sys2Proof.Machine
end

