-- ==== Sys2Proof/Machine/ExecPage.lean ====
section
/-!
DEFINITION. The commands of the page sequencer (R58 to R80) and of a plain register write.
-/
namespace Sys2Proof.Machine

/-- R11, R12, R17, R18: REGISTER_WRITE. -/
def execRegisterWrite (path : Path) (addr : Nat) (value : Word) (s : State) : Host.Outcome State Fault Refusal :=
  live s (writeAccess path [] addr value)

/-- R64: JOB_START. -/
def execJobStart (path : Path) (s : State) : Host.Outcome State Fault Refusal :=
  live s (writeAccess path [] Adr.JOB_CTRL 1#32)

/-- R65: JOB_STOP. -/
def execJobStop (path : Path) (s : State) : Host.Outcome State Fault Refusal :=
  live s (writeAccess path [] Adr.JOB_CTRL 2#32)

/-- R66: JOB_ABORT. -/
def execJobAbort (path : Path) (s : State) : Host.Outcome State Fault Refusal :=
  live s (writeAccess path [] Adr.JOB_CTRL 4#32)

/-- R74: DOORBELL_RING. -/
def execDoorbellRing (path : Path) (finds : Finds) (s : State) : Host.Outcome State Fault Refusal :=
  live s (writeAccess path finds Adr.JOB_DOORBELL 1#32)

/-- R67, R320, R471: the sequencer fetches where its conditions hold; a keeper's never reads a link, and MEM is woken. -/
def Dev.fetchNow (d : Dev) (m : Mem) (finds : Finds) : Dev :=
  if d.isKeeper || !d.mayFetch then d
  else if !d.memRuns then d.wake 5 8
  else Dev.tellFetch d (d.descriptorFetch m finds) m

/-- R67: DESCRIPTOR_FETCH. -/
def execDescriptorFetch (finds : Finds) (s : State) : Host.Outcome State Fault Refusal :=
  live s (fun d m => (d.fetchNow m finds, m))

/-- R74, R79, R320: a parked sequencer reads its link again. -/
def Dev.pollNow (d : Dev) (m : Mem) (finds : Finds) : Dev :=
  if d.isKeeper || !decide (d.job.seq = .parkedEnd ∨ d.job.seq = .parkedFault) then d
  else if !d.memRuns then d.wake 5 8
  else Dev.tellFetch d (d.linkPoll m finds) m

/-- R74: LINK_POLL. -/
def execLinkPoll (finds : Finds) (s : State) : Host.Outcome State Fault Refusal :=
  live s (fun d m => (d.pollNow m finds, m))

/-- R69: PAGE_RETIRE. -/
def execPageRetire (s : State) : Host.Outcome State Fault Refusal :=
  liveDev s Dev.pageRetire

/-- R144: DEC_PLANPER_WRITE. -/
def execDecPlanperWrite (path : Path) (value : Word) (s : State) : Host.Outcome State Fault Refusal :=
  live s (writeAccess path [] Adr.DEC_PLANPER value)

end Sys2Proof.Machine
end

