-- ==== Sys2Proof/Machine/ExecOjp.lean ====
section
/-!
DEFINITION. The commands of the Oaxia job protocol (R82 to R123).
-/
namespace Sys2Proof.Machine

/-- R89 to R92: OPEN. -/
def execOpenSession (g : OjpMsg) (s : State) : Host.Outcome State Fault Refusal :=
  live s (fun d m => receiveMsg d m 0x01 g (.openSession g))

/-- R93: CLOSE. -/
def execClose (g : OjpMsg) (s : State) : Host.Outcome State Fault Refusal :=
  live s (fun d m => receiveMsg d m 0x03 g (.close g))

/-- R99, R100: ACK. -/
def execAck (g : OjpMsg) (s : State) : Host.Outcome State Fault Refusal :=
  live s (fun d m => receiveMsg d m 0x05 g (.ack g))

/-- R94: KEEPALIVE. -/
def execKeepalive (g : OjpMsg) (s : State) : Host.Outcome State Fault Refusal :=
  live s (fun d m => receiveMsg d m 0x06 g (.keepalive g))

/-- R103, R104: JOB_WRITE. -/
def execJobWrite (g : OjpMsg) (s : State) : Host.Outcome State Fault Refusal :=
  live s (fun d m => receiveMsg d m 0x10 g (.jobWrite g))

/-- R105: LINK_WRITE. -/
def execLinkWrite (g : OjpMsg) (s : State) : Host.Outcome State Fault Refusal :=
  live s (fun d m => receiveMsg d m 0x11 g (.linkWrite g))

/-- R106: DOORBELL. -/
def execDoorbell (g : OjpMsg) (s : State) : Host.Outcome State Fault Refusal :=
  live s (fun d m => receiveMsg d m 0x12 g (.doorbell g))

/-- R107: JOB_READ. -/
def execJobRead (g : OjpMsg) (s : State) : Host.Outcome State Fault Refusal :=
  live s (fun d m => receiveMsg d m 0x13 g (.jobRead g))

/-- R108: REG_WRITE. -/
def execRegWrite (g : OjpMsg) (s : State) : Host.Outcome State Fault Refusal :=
  live s (fun d m => receiveMsg d m 0x20 g (.regWrite g))

/-- R109: REG_READ. -/
def execRegRead (g : OjpMsg) (s : State) : Host.Outcome State Fault Refusal :=
  live s (fun d m => receiveMsg d m 0x21 g (.regRead g))

/-- R99: ACK_DELAY_EXPIRY. -/
def execAckDelayExpiry (session : Fin 16) (s : State) : Host.Outcome State Fault Refusal :=
  liveDev s (fun d => d.ackDelay session.val)

/-- R94, R100: RETRANSMIT_TIMEOUT. -/
def execRetransmitTimeout (session : Fin 16) (seq : Nat) (s : State) : Host.Outcome State Fault Refusal :=
  liveDev s (fun d => d.retransmit session.val seq)

/-- R94: IDLE_TIMEOUT. -/
def execIdleTimeout (session : Fin 16) (s : State) : Host.Outcome State Fault Refusal :=
  liveDev s (fun d => d.idleTimeout session.val)

/-- R116: TELEMETRY_PERIOD. -/
def execTelemetryPeriod (session : Fin 16) (s : State) : Host.Outcome State Fault Refusal :=
  liveDev s (fun d => d.telemetryDue (.telemetryPeriod session) session)

/-- R121, R122: WAKE_FRAME. -/
def execWakeFrame (port : Fin 4) (payload : Bytes) (s : State) : Host.Outcome State Fault Refusal :=
  liveDev s (fun d => d.wakeFrame port payload)

end Sys2Proof.Machine
end

