-- ==== Sys2Proof/Machine/ExecDecode.lean ====
section
/-!
DEFINITION. The commands of decoding, the budget and the print record (R124 to R150).
-/
namespace Sys2Proof.Machine

/-- R130, R471: the dispatcher, where DECODE and the job store are there; what is not is woken for it. -/
def Dev.dispatchNow (d : Dev) (m : Mem) (finds : Finds) (n : Nat) : Dev :=
  if (d.decode n).cursor.isNone && (d.nextTable n).isNone then d
  else if !d.domOn 6 then d.wake 6 7
  else if !d.memRuns then d.wake 5 8
  else d.decodeUseStart m finds n

/-- R130: DECODE_USE_START. -/
def execDecodeUseStart (plane : Fin 8) (finds : Finds) (s : State) : Host.Outcome State Fault Refusal :=
  live s (fun d m => (d.dispatchNow m finds plane.val, m))

/-- R125: DECODE_RESUME. -/
def execDecodeResume (plane : Fin 8) (s : State) : Host.Outcome State Fault Refusal :=
  liveDev s (fun d => d.decodeResume plane.val)

/-- R52: DECODE_USE_END. -/
def execDecodeUseEnd (plane : Fin 8) (s : State) : Host.Outcome State Fault Refusal :=
  liveDev s (fun d => d.decodeUseEnd plane.val)

/-- R142: PRE_EXPANSION_DONE. -/
def execPreExpansionDone (ok : Bool) (s : State) : Host.Outcome State Fault Refusal :=
  live s (fun d m => (d.preExpansionDone m ok, m))

/-- R145: REPAIR_WAIT_END. -/
def execRepairWaitEnd (line : Nat) (s : State) : Host.Outcome State Fault Refusal :=
  liveDev s (fun d => d.endWait line)

/-- R148: PRINT_RECORD_CHUNK. -/
def execPrintRecordChunk (plane : Fin 8) (s : State) : Host.Outcome State Fault Refusal :=
  liveDev s (fun d => d.recordChunk plane.val)

/-- R138 to R143: BUDGET_SCAN_DONE. -/
def execBudgetScanDone (s : State) : Host.Outcome State Fault Refusal :=
  live s (fun d m => (d.budgetScanDone m, m))

end Sys2Proof.Machine
end

