-- ==== Sys2Proof/Machine/ExecRaster.lean ====
section
/-!
DEFINITION. The commands of the raster pipeline and the nozzle tables (R151 to R195).
-/
namespace Sys2Proof.Machine

/-- R165, R467: the raster pipeline computes a line where RASTER is ON; a line that waits for it wakes it. -/
def Dev.rasterNow (d : Dev) (n : Nat) : Dev :=
  if d.domOn 7 then d.rasterStep n else if (d.decode n).ring.isEmpty then d else d.wake 7 7

/-- R165: RASTER_LINE. -/
def execRasterLine (plane : Fin 8) (s : State) : Host.Outcome State Fault Refusal :=
  liveDev s (fun d => d.rasterNow plane.val)

/-- R168: CORR_COPY_DONE. -/
def execCorrCopyDone (plane : Fin 8) (s : State) : Host.Outcome State Fault Refusal :=
  liveDev s (fun d => d.corrCopyDone plane.val)

/-- R195: HT_COPY_DONE. -/
def execHtCopyDone (plane : Fin 8) (s : State) : Host.Outcome State Fault Refusal :=
  liveDev s (fun d => d.htCopyDone plane.val)

/-- R164, R174: NZT_WRITE. -/
def execNztWrite (path : Path) (nozzle : Nat) (value : Word) (s : State) : Host.Outcome State Fault Refusal :=
  live s (fun d m => if nozzle < 2 ^ 18 then writeAccess path [] (0x01000000 + 4 * nozzle) value d m else (d, m))

end Sys2Proof.Machine
end

