-- ==== Sys2Proof/Machine/ExecLine.lean ====
section
/-!
DEFINITION. The commands of the position channels, the probes and the planes' line timing (R199 to R230).
-/
namespace Sys2Proof.Machine

/-- R467: POSITION counts its inputs unless it is cold, or enters or leaves cold. -/
def Dev.counting (d : Dev) : Bool :=
  match (d.domain 13).state with
  | .cold | .toCold | .fromCold => false
  | _ => true

/-- What counts in ember too. -/
def Dev.ifCounting (d : Dev) (f : Dev → Dev) : Dev := if d.counting then f d else d

/-- What POSITION does only where it is ON. -/
def Dev.ifPosition (d : Dev) (f : Dev → Dev) : Dev := if d.domOn 13 then f d else d

/-- R200: QUADRATURE_EDGE. -/
def execQuadratureEdge (ch : Fin 4) (a b : Bool) (ns : Nat) (s : State) : Host.Outcome State Fault Refusal :=
  liveDev s (fun d => d.ifCounting (fun d => d.quadratureEdge ch a b ns))

/-- R202: STEP_EDGE. -/
def execStepEdge (ch : Fin 4) (rising dir changed : Bool) (ns : Nat) (s : State) : Host.Outcome State Fault Refusal :=
  liveDev s (fun d => d.ifCounting (fun d => d.stepEdge ch rising dir changed ns))

/-- R203: SSI_FRAME_START. -/
def execSsiFrameStart (ch : Fin 4) (ns : Nat) (s : State) : Host.Outcome State Fault Refusal :=
  liveDev s (fun d => d.ifPosition (fun d => d.ssiFrameStart ch ns))

/-- R204: SSI_FRAME. -/
def execSsiFrame (ch : Fin 4) (raw : Nat) (startHigh stopLow : Bool) (ns : Nat) (s : State) : Host.Outcome State Fault Refusal :=
  liveDev s (fun d => d.ifPosition (fun d => d.ssiFrame ch raw startHigh stopLow ns))

/-- R204: SSI_HOLD_EXPIRY. -/
def execSsiHoldExpiry (ch : Fin 4) (s : State) : Host.Outcome State Fault Refusal :=
  liveDev s (fun d => d.ifPosition (fun d => d.ssiHoldExpiry ch))

/-- R204: SSI_COUNT_ADVANCE. -/
def execSsiCountAdvance (ch : Fin 4) (ns : Nat) (s : State) : Host.Outcome State Fault Refusal :=
  liveDev s (fun d => d.ifPosition (fun d => d.ssiCountAdvance ch ns))

/-- R208: INDEX_LATCH. -/
def execIndexLatch (ch : Fin 4) (rising : Bool) (s : State) : Host.Outcome State Fault Refusal :=
  liveDev s (fun d => d.ifCounting (fun d => d.indexLatch ch rising))

/-- R205, R467, R471: a probe edge; in a sleeping POSITION it wakes it, and its latch is lost. -/
def probeEdge (d : Dev) (m : Mem) (k : Fin 4) (rising : Bool) : Dev × Mem :=
  if d.domOn 13 then dmaPrintEvents d (d.probeLatch k rising, m) else (d.wake 13 5, m)

/-- R205, R213, R214: PROBE_LATCH; the arrival time of the edge becomes the latest. -/
def execProbeLatch (k : Fin 4) (rising : Bool) (ns : Nat) (s : State) : Host.Outcome State Fault Refusal :=
  live s (fun d m => probeEdge { d with lt := { d.lt with ns := max ns d.lt.ns } } m k rising)

/-- R213: PAGE_START. -/
def execPageStart (path : Path) (ch : Fin 4) (s : State) : Host.Outcome State Fault Refusal :=
  live s (writeAccess path [] (Adr.LT_CHCTRL ch.val) 4#32)

/-- R207: SET_POS. -/
def execSetPos (path : Path) (ch : Fin 4) (s : State) : Host.Outcome State Fault Refusal :=
  live s (writeAccess path [] (Adr.LT_CHCTRL ch.val) 2#32)

/-- R228: CLEAR_FAULT. -/
def execClearFault (path : Path) (ch : Fin 4) (s : State) : Host.Outcome State Fault Refusal :=
  live s (writeAccess path [] (Adr.LT_CHCTRL ch.val) 1#32)

/-- R207: LT_POSLO_READ. -/
def execLtPosloRead (ch : Fin 4) (s : State) : Host.Outcome State Fault Refusal :=
  liveDev s (fun d => d.readAccess (Adr.LT_POSLO ch.val))

/-- R218, R415: LINE_EVENT, with the descriptors that wait for it. -/
def execLineEvent (plane : Fin 8) (s : State) : Host.Outcome State Fault Refusal :=
  live s (fun d m => dmaPrintEvents d (d.fireLine plane.val, m))

/-- R216, R222: STROBE. -/
def execStrobe (port : Fin 64) (s : State) : Host.Outcome State Fault Refusal :=
  liveDev s (fun d => d.strobe port.val)

/-- R246: LAT_FALL. -/
def execLatFall (port : Fin 64) (s : State) : Host.Outcome State Fault Refusal :=
  liveDev s (fun d => d.latFell port.val)

/-- R212, R220, R221: SPEED_WINDOW_END. -/
def execSpeedWindowEnd (ch : Fin 4) (s : State) : Host.Outcome State Fault Refusal :=
  liveDev s (fun d => d.ifPosition (fun d => d.speedWindowEnd ch))

/-- R212: STILL_TIMEOUT. -/
def execStillTimeout (ch : Fin 4) (s : State) : Host.Outcome State Fault Refusal :=
  liveDev s (fun d => d.ifPosition (fun d => d.stillTimeout ch))

end Sys2Proof.Machine
end

