-- ==== Sys2Proof/Machine/ExecHeads.lean ====
section
/-!
DEFINITION. The commands of the head ports and the shadow sets (R231 to R262, R450 to R452).
-/
namespace Sys2Proof.Machine

/-- R10, R243: a port begins its shift; an entry that waits for its HEADQ domain wakes it. -/
def Dev.shiftNow (d : Dev) (p : Nat) : Dev :=
  if d.domOn (8 + p / 16) || (d.port p).queue.isEmpty then d.shiftStart p else d.wake (8 + p / 16) 7

/-- R243: SHIFT_START. -/
def execShiftStart (port : Fin 64) (s : State) : Host.Outcome State Fault Refusal :=
  liveDev s (fun d => d.shiftNow port.val)

/-- R244: SHIFT_COMPLETE. -/
def execShiftComplete (port : Fin 64) (s : State) : Host.Outcome State Fault Refusal :=
  liveDev s (fun d => d.shiftComplete port.val)

/-- R250 to R254: ECHO_COMPARE_RESULT. -/
def execEchoCompareResult (port : Fin 64) (bits : List Bool) (s : State) : Host.Outcome State Fault Refusal :=
  liveDev s (fun d => d.echoCompare port.val bits)

/-- R254: ECHO_FIND: HP_ECHOp written with Find set. -/
def execEchoFind (path : Path) (port : Fin 64) (s : State) : Host.Outcome State Fault Refusal :=
  live s (writeBits path (Adr.HP_ECHO port.val) 0x400)

/-- R254: FIND_TIMEOUT. -/
def execFindTimeout (port : Fin 64) (s : State) : Host.Outcome State Fault Refusal :=
  liveDev s (fun d => d.findTimeout port.val)

/-- R256: DESKEW_START. -/
def execDeskewStart (path : Path) (all : Bool) (port : Fin 64) (granted : Bool) (s : State) : Host.Outcome State Fault Refusal :=
  live s (deskewWrite path all port granted)

/-- R257, R258: DESKEW_PORT_DONE. -/
def execDeskewPortDone (port : Fin 64) (calRef pass : Bool) (s : State) : Host.Outcome State Fault Refusal :=
  liveDev s (fun d => d.deskewDone port.val calRef pass)

/-- R42: COMMIT_GEOMETRY. -/
def execCommitGeometry (path : Path) (s : State) : Host.Outcome State Fault Refusal :=
  live s (writeAccess path [] Adr.CFG_COMMIT 1#32)

/-- R166: COMMIT_SCALE. -/
def execCommitScale (path : Path) (s : State) : Host.Outcome State Fault Refusal :=
  live s (writeAccess path [] Adr.CFG_COMMIT 2#32)

/-- R196: COMMIT_CODE_WIDTH. -/
def execCommitCodeWidth (path : Path) (s : State) : Host.Outcome State Fault Refusal :=
  live s (writeAccess path [] Adr.CFG_COMMIT 4#32)

/-- R259: COMMIT_PORT. -/
def execCommitPort (path : Path) (s : State) : Host.Outcome State Fault Refusal :=
  live s (writeAccess path [] Adr.CFG_COMMIT 8#32)

/-- R167, R195, R260: COMMIT_PRINT. -/
def execCommitPrint (path : Path) (s : State) : Host.Outcome State Fault Refusal :=
  live s (writeAccess path [] Adr.CFG_COMMIT 16#32)

/-- R450: CLAMP_CLEAR. -/
def execClampClear (path : Path) (s : State) : Host.Outcome State Fault Refusal :=
  live s (writeAccess path [] Adr.CFG_CLAMPCTRL 1#32)

/-- R256: DESKEW_GRANT_REQUEST, from the partner. -/
def execDeskewGrantRequest (port : Fin 64) (s : State) : Host.Outcome State Fault Refusal :=
  liveDev s (fun d => if d.pair.mode then d.deskewGrant port.val else d)

end Sys2Proof.Machine
end

