-- ==== Sys2Proof/Machine/ExecSweep.lean ====
section
/-!
DEFINITION. The commands of drop detection (R263 to R279).
-/
namespace Sys2Proof.Machine

/-- R274: DD_START. -/
def execDdStart (path : Path) (s : State) : Host.Outcome State Fault Refusal :=
  live s (writeBits path Adr.DD_CTRL 1)

/-- R276: DD_STOP. -/
def execDdStop (path : Path) (s : State) : Host.Outcome State Fault Refusal :=
  live s (writeBits path Adr.DD_CTRL 2)

/-- R277: SWEEP_SCHEDULE. -/
def execSweepSchedule (s : State) : Host.Outcome State Fault Refusal :=
  liveDev s Dev.sweepSchedule

/-- R265: CARRIAGE_SETTLED. -/
def execCarriageSettled (gate : Fin 4) (s : State) : Host.Outcome State Fault Refusal :=
  liveDev s (fun d => d.carriageSettled gate)

/-- R268: PACER_TICK. -/
def execPacerTick (ns : Nat) (s : State) : Host.Outcome State Fault Refusal :=
  liveDev s (fun d => d.pacerTick ns)

/-- R271: GATE_PULSE. -/
def execGatePulse (gate : Fin 4) (ns : Nat) (s : State) : Host.Outcome State Fault Refusal :=
  liveDev s (fun d => d.gatePulse gate ns)

/-- R272: WINDOW_CLOSE. -/
def execWindowClose (gate : Fin 4) (s : State) : Host.Outcome State Fault Refusal :=
  liveDev s (fun d => d.windowClose gate)

end Sys2Proof.Machine
end

