-- ==== Sys2Proof/Machine/ExecAxes.lean ====
section
/-!
DEFINITION. The commands of the motion axes (R280 to R305).
-/
namespace Sys2Proof.Machine

/-- R290, R291: MOVE. -/
def execMove (path : Path) (axis : Fin 8) (s : State) : Host.Outcome State Fault Refusal :=
  live s (writeAccess path [] (Adr.MOT_CMD axis.val) 1#32)

/-- R292: MOT_STOP. -/
def execMotStop (path : Path) (axis : Fin 8) (s : State) : Host.Outcome State Fault Refusal :=
  live s (writeAccess path [] (Adr.MOT_CMD axis.val) 2#32)

/-- R297: HOME. -/
def execHome (path : Path) (axis : Fin 8) (s : State) : Host.Outcome State Fault Refusal :=
  live s (writeAccess path [] (Adr.MOT_CMD axis.val) 3#32)

/-- R288: DISABLE. -/
def execDisable (path : Path) (axis : Fin 8) (s : State) : Host.Outcome State Fault Refusal :=
  live s (writeAccess path [] (Adr.MOT_CMD axis.val) 4#32)

/-- R288: ENABLE. -/
def execEnable (path : Path) (axis : Fin 8) (s : State) : Host.Outcome State Fault Refusal :=
  live s (writeAccess path [] (Adr.MOT_CMD axis.val) 5#32)

/-- R298: GO_PRINT. -/
def execGoPrint (path : Path) (axis : Fin 8) (s : State) : Host.Outcome State Fault Refusal :=
  live s (writeAccess path [] (Adr.MOT_CMD axis.val) 6#32)

/-- R298: GO_SERVICE. -/
def execGoService (path : Path) (axis : Fin 8) (s : State) : Host.Outcome State Fault Refusal :=
  live s (writeAccess path [] (Adr.MOT_CMD axis.val) 7#32)

/-- R288: ENERGISE_DELAY. -/
def execEnergiseDelay (axis : Fin 8) (s : State) : Host.Outcome State Fault Refusal :=
  liveDev s (fun d => d.energiseDelay axis)

/-- R285, R289, R295: PWM_PERIOD. -/
def execPwmPeriod (axis : Fin 8) (ia ib va vb : Int) (s : State) : Host.Outcome State Fault Refusal :=
  liveDev s (fun d => d.pwmPeriod axis ia ib va vb)

/-- R290: MOVE_COMPLETE. -/
def execMoveComplete (axis : Fin 8) (s : State) : Host.Outcome State Fault Refusal :=
  liveDev s (fun d => d.moveComplete axis)

/-- R293, R294: LIMIT_INPUT. -/
def execLimitInput (k : Fin 16) (level : Bool) (s : State) : Host.Outcome State Fault Refusal :=
  liveDev s (fun d => d.limitInput k level)

/-- R299: STANDSTILL. -/
def execStandstill (axis : Fin 8) (s : State) : Host.Outcome State Fault Refusal :=
  liveDev s (fun d => d.standstill axis)

/-- R301: ADC_CAL_START. -/
def execAdcCalStart (path : Path) (mask : BitVec 8) (s : State) : Host.Outcome State Fault Refusal :=
  live s (writeAccess path [] Adr.CAL_ADCCTRL (BitVec.ofNat 32 (256 + mask.toNat)))

/-- R301, R302: ADC_CAL_DONE. -/
def execAdcCalDone (vcal : Bool) (results : List AdcResult) (s : State) : Host.Outcome State Fault Refusal :=
  liveDev s (fun d => d.adcCalDone vcal results)

/-- R283: AXIS_COMMAND_FORWARD, from the partner. -/
def execAxisCommandForward (axis : Fin 8) (op : BitVec 3) (s : State) : Host.Outcome State Fault Refusal :=
  liveDev s (fun d => if d.pair.mode then d.axisForward axis op.toNat else d)

/-- R283: AXIS_STATUS_REPORT, from the partner. -/
def execAxisStatusReport (axis : Fin 8) (pos vel load stat : Word) (s : State) : Host.Outcome State Fault Refusal :=
  liveDev s (fun d => if d.pair.mode then d.axisReport axis pos vel load stat else d)

end Sys2Proof.Machine
end

