-- ==== Sys2Proof/Machine/ExecPair.lean ====
section
/-!
DEFINITION. The commands of pair operation (R306 to R343).
-/
namespace Sys2Proof.Machine

/-- R310 to R312: HELLO. -/
def execHello (h : Hello) (s : State) : Host.Outcome State Fault Refusal :=
  live s (fun d m => ((d.hello h).bootPhase, if d.startsEmpty h then m.emptied else m))

/-- R310: JOIN_WAIT_EXPIRY. -/
def execJoinWaitExpiry (s : State) : Host.Outcome State Fault Refusal :=
  liveDev s (fun d => d.joinWaitExpiry.bootPhase)

/-- R311: SOLO_RESAMPLE. -/
def execSoloResample (level : Bool) (s : State) : Host.Outcome State Fault Refusal :=
  liveDev s (fun d => d.soloResample level)

/-- R307, R316: STRK_IN_CHANGE. -/
def execStrkInChange (level : Bool) (s : State) : Host.Outcome State Fault Refusal :=
  liveDev s (fun d => d.strkInChange level)

/-- R313: HEARTBEAT_SEND. -/
def execHeartbeatSend (s : State) : Host.Outcome State Fault Refusal :=
  liveDev s Dev.heartbeatSend

/-- R313: HEARTBEAT. -/
def execHeartbeat (h : Heartbeat) (s : State) : Host.Outcome State Fault Refusal :=
  liveDev s (fun d => d.heartbeat h)

/-- R313, R316: HEARTBEAT_LOSS. -/
def execHeartbeatLoss (s : State) : Host.Outcome State Fault Refusal :=
  liveDev s Dev.heartbeatLoss

/-- R316: STRK_IN_WAIT_EXPIRY. -/
def execStrkInWaitExpiry (s : State) : Host.Outcome State Fault Refusal :=
  liveDev s Dev.strkInWaitExpiry

/-- R314: FATAL_FAULT. -/
def execFatalFault (kind : FatalKind) (s : State) : Host.Outcome State Fault Refusal :=
  liveDev s (fun d => d.fatalFault kind)

/-- R313: FATAL_MESSAGE. -/
def execFatalMessage (s : State) : Host.Outcome State Fault Refusal :=
  liveDev s Dev.fatalMessage

/-- R315: PAIR_GUARD. -/
def execPairGuard (s : State) : Host.Outcome State Fault Refusal :=
  liveDev s Dev.pairGuard

/-- R319: MIRROR. -/
def execMirror (lines : List (Nat × Bytes × Bool)) (s : State) : Host.Outcome State Fault Refusal :=
  live s (storeMessage (.mirror lines) (fun d m => mirrorLines d m lines))

/-- R319: MIRROR_ACK. -/
def execMirrorAck (n : Nat) (s : State) : Host.Outcome State Fault Refusal :=
  live s (fun d m => mirrorAck d m n)

/-- R318: REGISTER_MESSAGE. -/
def execRegisterMessage (addr : Nat) (value : Word) (s : State) : Host.Outcome State Fault Refusal :=
  live s (fun d m => registerMessage d m addr value)

/-- R320: SEQUENCE_MESSAGE. -/
def execSequenceMessage (msg : SeqMsg) (s : State) : Host.Outcome State Fault Refusal :=
  live s (fun d m => sequenceMessage d m msg)

/-- R177: VERDICT_MESSAGE. -/
def execVerdictMessage (nozzle : Nat) (state : BitVec 2) (s : State) : Host.Outcome State Fault Refusal :=
  liveDev s (fun d => d.verdictMessage nozzle state)

/-- R120: SESSION_MESSAGE. -/
def execSessionMessage (session : Fin 16) (copy : Option SessionCopy) (s : State) : Host.Outcome State Fault Refusal :=
  liveDev s (fun d => d.sessionMessage session.val copy)

/-- R322: TIME_MESSAGE. -/
def execTimeMessage (t : TimeStamp) (s : State) : Host.Outcome State Fault Refusal :=
  liveDev s (fun d => d.timeMessage t)

/-- R335: HANDOFF_MESSAGE. -/
def execHandoffMessage (events : List (Fin 8 × Nat)) (s : State) : Host.Outcome State Fault Refusal :=
  liveDev s (fun d => d.handoffMessage events)

/-- R338: REPAIR_REQUEST, from the partner. -/
def execRepairRequest (line : Nat) (finds : Finds) (s : State) : Host.Outcome State Fault Refusal :=
  live s (storeMessage (.repairRequest line finds) (fun d m => (d.repairRequest m line finds, m)))

/-- R338: REPAIR_ANSWER; what waited for the repair goes on. -/
def execRepairAnswer (line : Nat) (data : Option Bytes) (s : State) : Host.Outcome State Fault Refusal :=
  live s (storeMessage (.repairAnswer line data) (fun d m => takeUpAll (repairAnswer d m line data)))

/-- R325, R327: RALLY_RECORD. -/
def execRallyRecord (r : RallyRec) (s : State) : Host.Outcome State Fault Refusal :=
  liveDev s (fun d => d.rallyRecord r)

/-- R325: RALLY_WAIT_EXPIRY. -/
def execRallyWaitExpiry (plane : Fin 8) (event : Nat) (s : State) : Host.Outcome State Fault Refusal :=
  liveDev s (fun d => d.rallyWaitExpiry plane.val event)

/-- R323: LAT_MONITOR_EDGE. -/
def execLatMonitorEdge (port : Fin 64) (rising : Bool) (s : State) : Host.Outcome State Fault Refusal :=
  liveDev s (fun d => d.latMonitorEdge port.val rising)

/-- R335: HANDOFF. -/
def execHandoff (path : Path) (s : State) : Host.Outcome State Fault Refusal :=
  live s (writeAccess path [] Adr.PAIR_CTRL 1#32)

/-- R330: SELF_TEST. -/
def execSelfTest (path : Path) (s : State) : Host.Outcome State Fault Refusal :=
  live s (writeAccess path [] Adr.PAIR_CTRL 2#32)

/-- R331: SELF_TEST_DONE. -/
def execSelfTestDone (pass : Bool) (s : State) : Host.Outcome State Fault Refusal :=
  liveDev s (fun d => d.selfTestDone pass)

/-- R339, R340: RESYNC_DATA. -/
def execResyncData (item : ResyncItem) (s : State) : Host.Outcome State Fault Refusal :=
  live s (storeMessage (.resyncData item) (fun d m => resyncData d m item))

end Sys2Proof.Machine
end

