-- ==== Sys2Proof/Machine/ExecLanes.lean ====
section
/-!
DEFINITION. The commands of the serial lanes, the Igmal link and the host ports (R344 to R363).
-/
namespace Sys2Proof.Machine

/-- R348, R352: LANE_SIGNAL. -/
def execLaneSignal (lane : Fin 12) (s : State) : Host.Outcome State Fault Refusal :=
  liveDev s (fun d => d.laneSignal lane)

/-- R352 to R355: TRAINING_FRAME. -/
def execTrainingFrame (f : TrainFrame) (s : State) : Host.Outcome State Fault Refusal :=
  liveDev s (fun d => d.trainingFrame f)

/-- R354: TRAINING_REQUEST_TIMEOUT. -/
def execTrainingRequestTimeout (lane : Fin 8) (s : State) : Host.Outcome State Fault Refusal :=
  liveDev s (fun d => d.trainingTimeout lane)

/-- R354: TRAIN_RETRY. -/
def execTrainRetry (lane : Fin 8) (s : State) : Host.Outcome State Fault Refusal :=
  liveDev s (fun d => d.trainRetry lane)

/-- R357: FLIT. -/
def execFlit (bytes : Bytes) (s : State) : Host.Outcome State Fault Refusal :=
  liveDev s (fun d => d.flit bytes)

/-- R357: LINK_LOSS; the causes of R357 act alike. -/
def execLinkLoss (_reason : Nat) (s : State) : Host.Outcome State Fault Refusal :=
  liveDev s Dev.linkLoss

/-- R348: HOST_ADAPT_TIMEOUT. -/
def execHostAdaptTimeout (lane : Fin 4) (fom : Nat) (s : State) : Host.Outcome State Fault Refusal :=
  liveDev s (fun d => d.hostAdaptTimeout lane fom)

/-- R348, R365: LINK_DROP; the causes of R348 act alike. -/
def execLinkDrop (lane : Fin 4) (_reason : Nat) (s : State) : Host.Outcome State Fault Refusal :=
  liveDev s (fun d => (d.linkDrop lane).ptpResettle)

/-- R349: SPEED_AUTO_SWITCH. -/
def execSpeedAutoSwitch (port : Fin 4) (s : State) : Host.Outcome State Fault Refusal :=
  liveDev s (fun d => d.autoSwitch port)

/-- R349: NET_PCTRL_WRITE. -/
def execNetPctrlWrite (path : Path) (port : Fin 4) (value : Word) (s : State) : Host.Outcome State Fault Refusal :=
  live s (writeAccess path [] (Adr.NET_PCTRL port.val) value)

/-- R377: LANE_RETRAIN: LANE_CTRLl written with Retrain set. -/
def execLaneRetrain (path : Path) (lane : Fin 12) (s : State) : Host.Outcome State Fault Refusal :=
  live s (writeBits path (Adr.LANE_CTRL lane.val) 2)

/-- R345, R365: REFCLK_LOSS. -/
def execRefclkLoss (s : State) : Host.Outcome State Fault Refusal :=
  liveDev s (fun d => d.refclkLoss.ptpResettle)

/-- R345: REFCLK_RETURN. -/
def execRefclkReturn (s : State) : Host.Outcome State Fault Refusal :=
  liveDev s Dev.refclkReturn

/-- R361: ARP_REQUEST. -/
def execArpRequest (port : Fin 4) (mac : BitVec 48) (sender target : Nat) (s : State) : Host.Outcome State Fault Refusal :=
  liveDev s (fun d => d.hostFrame (.arpRequest port mac sender target) port (fun d => d.arpRequest port mac sender target))

/-- R361: NEIGHBOUR_SOLICITATION. -/
def execNeighbourSolicitation (port : Fin 4) (mac : BitVec 48) (sender target : Nat) (s : State) : Host.Outcome State Fault Refusal :=
  liveDev s (fun d => d.hostFrame (.neighbourSolicitation port mac sender target) port (fun d => d.neighbourSolicitation port mac sender target))

/-- R361: ECHO_REQUEST. -/
def execEchoRequest (port : Fin 4) (ep : Endpoint) (target : Nat) (data : Bytes) (s : State) : Host.Outcome State Fault Refusal :=
  liveDev s (fun d => d.hostFrame (.echoRequest port ep target data) port (fun d => d.echoRequest port ep target data))

/-- R358: PAUSE_FRAME. -/
def execPauseFrame (port : Fin 4) (s : State) : Host.Outcome State Fault Refusal :=
  liveDev s (fun d => d.pauseFrame port)

/-- R348, R350, R361: BLOCK_LOCK. -/
def execBlockLock (lane : Fin 4) (fom : Nat) (hiBer : Bool) (s : State) : Host.Outcome State Fault Refusal :=
  liveDev s (fun d => d.blockLock lane fom hiBer)

/-- R84, R87, R358, R437: FRAME_DISCARD. -/
def execFrameDiscard (port : Fin 4) (cause : DiscardCause) (s : State) : Host.Outcome State Fault Refusal :=
  liveDev s (fun d => d.frameDiscard port cause)

end Sys2Proof.Machine
end

