-- ==== Sys2Proof/Machine/ExecTime.lean ====
section
/-!
DEFINITION. The commands of network time and the timed outputs (R364 to R374).
-/
namespace Sys2Proof.Machine

/-- R365: ANNOUNCE. -/
def execAnnounce (a : PtpAnnounce) (s : State) : Host.Outcome State Fault Refusal :=
  liveDev s (fun d => d.hostFrame (.announce a) a.port (fun d => d.announce a))

/-- R371: SYNC. -/
def execSync (m : PtpMsg) (s : State) : Host.Outcome State Fault Refusal :=
  liveDev s (fun d => d.hostFrame (.sync m) m.port (fun d => d.ptpSync m))

/-- R371: FOLLOW_UP. -/
def execFollowUp (m : PtpMsg) (s : State) : Host.Outcome State Fault Refusal :=
  liveDev s (fun d => d.hostFrame (.followUp m) m.port (fun d => d.ptpFollowUp m))

/-- R371: DELAY_RESP. -/
def execDelayResp (m : PtpMsg) (s : State) : Host.Outcome State Fault Refusal :=
  liveDev s (fun d => d.hostFrame (.delayResp m) m.port (fun d => d.ptpDelayResp m))

/-- R371: DELAY_REQ_SEND. -/
def execDelayReqSend (s : State) : Host.Outcome State Fault Refusal :=
  liveDev s Dev.delayReqSend

/-- R365: ANNOUNCE_TIMEOUT. -/
def execAnnounceTimeout (source : Nat) (s : State) : Host.Outcome State Fault Refusal :=
  liveDev s (fun d => d.announceTimeout source)

/-- R371: HOLDOVER. -/
def execHoldover (s : State) : Host.Outcome State Fault Refusal :=
  liveDev s Dev.holdover

/-- R367: TIME_TICK. -/
def execTimeTick (s : State) : Host.Outcome State Fault Refusal :=
  liveDev s Dev.timeTick

/-- R368: TIME_INCR_WRITE. -/
def execTimeIncrWrite (path : Path) (value : Word) (s : State) : Host.Outcome State Fault Refusal :=
  live s (writeAccess path [] Adr.TIME_INCRHI value)

/-- R369: TIME_STEP. -/
def execTimeStep (path : Path) (value : Word) (s : State) : Host.Outcome State Fault Refusal :=
  live s (writeAccess path [] Adr.TIME_STEPSEC value)

/-- R370: TIME_SECLO_READ. -/
def execTimeSecloRead (s : State) : Host.Outcome State Fault Refusal :=
  liveDev s (fun d => d.readAccess (Adr.TIME_SECLO))

/-- R371: TIME_EXSEQ_READ. -/
def execTimeExseqRead (s : State) : Host.Outcome State Fault Refusal :=
  liveDev s (fun d => d.readAccess (Adr.TIME_EXSEQ))

/-- R373: TOUT_ARM: TIME_TOCTRLk written with Arm set. -/
def execToutArm (path : Path) (k : Fin 8) (s : State) : Host.Outcome State Fault Refusal :=
  live s (writeBits path (Adr.TIME_TOCTRL k.val) 1)

/-- R373: TOUT_DISARM: TIME_TOCTRLk written with Disarm set. -/
def execToutDisarm (path : Path) (k : Fin 8) (s : State) : Host.Outcome State Fault Refusal :=
  live s (writeBits path (Adr.TIME_TOCTRL k.val) 2)

/-- R373: TOUT_EDGE. -/
def execToutEdge (k : Fin 8) (s : State) : Host.Outcome State Fault Refusal :=
  liveDev s (fun d => d.toutEdge k)

end Sys2Proof.Machine
end

