-- ==== Sys2Proof/Machine/ExecMemory.lean ====
section
/-!
DEFINITION. The commands of the memories (R379 to R410).
-/
namespace Sys2Proof.Machine

/-- R383, R405, R407: DRAM_TRAINING_DONE; what waited for the job store goes on. -/
def execDramTrainingDone (ok : BitVec 4) (s : State) : Host.Outcome State Fault Refusal :=
  live s (fun d m => takeUpAll (d.trainingDone m ok.toNat))

/-- R385: ALERT_N. -/
def execAlertN (channel : Fin 4) (accepted : Bool) (s : State) : Host.Outcome State Fault Refusal :=
  liveDev s (fun d => d.alertN channel accepted)

/-- R384: REFRESH. -/
def execRefresh (channel : Fin 4) (s : State) : Host.Outcome State Fault Refusal :=
  liveDev s (fun d => d.refresh channel)

/-- R384: ZQ_CALIBRATION. -/
def execZqCalibration (s : State) : Host.Outcome State Fault Refusal :=
  liveDev s Dev.zqCalibration

/-- R386: TEMP_POLL. -/
def execTempPoll (channel : Fin 4) (range : BitVec 2) (s : State) : Host.Outcome State Fault Refusal :=
  liveDev s (fun d => d.tempPoll channel range)

/-- R398, R399: SWEEPER_READ. -/
def execSweeperRead (errors : Bytes) (s : State) : Host.Outcome State Fault Refusal :=
  live s (fun d m => d.sweeperRead m errors)

/-- R396 to R398: SRAM_SWEEP_READ. -/
def execSramSweepRead (addr : Nat) (place : SramPlace) (find : Option LineFind) (s : State) : Host.Outcome State Fault Refusal :=
  liveDev s (fun d => d.sramSweepRead addr place find)

/-- R393: SWEEPER_REREAD. -/
def execSweeperReread (line : Nat) (errors : Bytes) (s : State) : Host.Outcome State Fault Refusal :=
  live s (fun d m => d.sweeperReread m line errors)

/-- R400: LIVE_LINE_ACTION. -/
def execLiveLineAction (line : Nat) (s : State) : Host.Outcome State Fault Refusal :=
  live s (fun d m => (d.liveLineAction m line, m))

/-- R403: REMAP_REQUEST. -/
def execRemapRequest (path : Path) (value : Word) (s : State) : Host.Outcome State Fault Refusal :=
  live s (writeAccess path [] Adr.MEM_RMREQ value)

/-- R404: REMAP_DONE. -/
def execRemapDone (s : State) : Host.Outcome State Fault Refusal :=
  liveDev s Dev.remapDone

/-- R405: REMAP_CLEAR_ALL. -/
def execRemapClearAll (path : Path) (s : State) : Host.Outcome State Fault Refusal :=
  live s (writeAccess path [] Adr.MEM_RMCTRL 1#32)

/-- R407, R387: KINDLE_DONE. -/
def execKindleDone (s : State) : Host.Outcome State Fault Refusal :=
  live s (fun d m => ((d.kindleDone m).1.kindlingOver, (d.kindleDone m).2))

/-- R407, R490: RESERVED_KINDLED; the firing counts take the journal's values. -/
def execReservedKindled (s : State) : Host.Outcome State Fault Refusal :=
  liveDev s (fun d => (d.reservedKindled.restoreCounts).bootPhase)

end Sys2Proof.Machine
end

