-- ==== Sys2Proof/Machine/ExecDma.lean ====
section
/-!
DEFINITION. The commands of the DMA channels and the check units (R411 to R426).
-/
namespace Sys2Proof.Machine

/-- R411: DMA_PROD_WRITE. -/
def execDmaProdWrite (path : Path) (c : Fin 16) (value : Word) (s : State) : Host.Outcome State Fault Refusal :=
  live s (writeAccess path [] (Adr.DMA_CHPROD c.val) value)

/-- R419: DMA_RESUME: DMA_CHCTRLc written with Resume set. -/
def execDmaResume (path : Path) (c : Fin 16) (s : State) : Host.Outcome State Fault Refusal :=
  live s (writeBits path (Adr.DMA_CHCTRL c.val) 2)

/-- R419: DMA_ABORT: DMA_CHCTRLc written with Abort set. -/
def execDmaAbort (path : Path) (c : Fin 16) (s : State) : Host.Outcome State Fault Refusal :=
  live s (writeBits path (Adr.DMA_CHCTRL c.val) 4)

/-- R411, R413: DMA_DESC_FETCH. -/
def execDmaDescFetch (c : Fin 16) (finds : Finds) (s : State) : Host.Outcome State Fault Refusal :=
  live s (fun d m => dmaFetch d m c.val finds)

/-- R415: DMA_TRIGGER. -/
def execDmaTrigger (c : Fin 16) (s : State) : Host.Outcome State Fault Refusal :=
  live s (fun d m => dmaTrigger d m c.val)

/-- R415: DMA_TIMER_EXPIRY. -/
def execDmaTimerExpiry (t : Fin 8) (s : State) : Host.Outcome State Fault Refusal :=
  live s (fun d m => dmaTimer d m t.val)

/-- R416 to R422: DMA_COMPLETE. -/
def execDmaComplete (c : Fin 16) (finds : Finds) (s : State) : Host.Outcome State Fault Refusal :=
  live s (fun d m => dmaComplete d m c.val finds)

/-- R422: DMA_RECORD_WRITE. -/
def execDmaRecordWrite (s : State) : Host.Outcome State Fault Refusal :=
  live s dmaRecordWrite

/-- R422: DMA_CQCONS_WRITE. -/
def execDmaCqconsWrite (path : Path) (value : Word) (s : State) : Host.Outcome State Fault Refusal :=
  live s (writeAccess path [] Adr.DMA_CQCONS value)

/-- R426: CRC_RESET: CRC_CTRLu written with Reset set. -/
def execCrcReset (path : Path) (u : Fin 4) (s : State) : Host.Outcome State Fault Refusal :=
  live s (writeBits path (Adr.CRC_CTRL u.val) 8)

end Sys2Proof.Machine
end

