-- ==== Sys2Proof/Machine/ExecReport.lean ====
section
/-!
DEFINITION. The commands of the queues, sticky bits, trouble record, telemetry and service port (R427 to R435, R475 to R495).
-/
namespace Sys2Proof.Machine

/-- R427: QUEUE_RESET of the queues numbered 0 to 70. -/
def execQueueReset (q : Nat) (s : State) : Host.Outcome State Fault Refusal :=
  liveDev s (fun d => if q ≤ 70 then d.queueReset q else d)

/-- R429: NOTICE_QUEUE_TIMEOUT. -/
def execNoticeQueueTimeout (q : Fin 4) (s : State) : Host.Outcome State Fault Refusal :=
  liveDev s (fun d => d.queueTimeout q.val)

/-- R430: TRB_NQDATA_READ. -/
def execTrbNqdataRead (q : Fin 4) (s : State) : Host.Outcome State Fault Refusal :=
  liveDev s (fun d => d.readAccess (Adr.TRB_NQDATA q.val 0))

/-- R430: TEL_QDATA_READ. -/
def execTelQdataRead (s : State) : Host.Outcome State Fault Refusal :=
  liveDev s (fun d => d.readAccess (Adr.TEL_QDATA 0))

/-- R487: TELEMETRY_SAMPLE. -/
def execTelemetrySample (s : State) : Host.Outcome State Fault Refusal :=
  liveDev s Dev.telSample

/-- R475: STICKY_CLEAR. -/
def execStickyClear (path : Path) (mask : Word) (s : State) : Host.Outcome State Fault Refusal :=
  live s (writeAccess path [] Adr.TRB_CLRMASK mask)

/-- R484: TRB_RECACK_WRITE. -/
def execTrbRecackWrite (path : Path) (value : Word) (s : State) : Host.Outcome State Fault Refusal :=
  live s (writeAccess path [] Adr.TRB_RECACK value)

/-- R484: TRB_RECDATA_READ. -/
def execTrbRecdataRead (s : State) : Host.Outcome State Fault Refusal :=
  liveDev s (fun d => d.readAccess (Adr.TRB_RECDATA 0))

/-- R492 to R494: SERVICE_READ. -/
def execServiceRead (request : Bytes) (s : State) : Host.Outcome State Fault Refusal :=
  live s (fun d m => servicePort d m request)

/-- R492 to R494: SERVICE_WRITE. -/
def execServiceWrite (request : Bytes) (s : State) : Host.Outcome State Fault Refusal :=
  live s (fun d m => servicePort d m request)

/-- R494: BAD_COMMAND. -/
def execBadCommand (request : Bytes) (s : State) : Host.Outcome State Fault Refusal :=
  live s (fun d m => servicePort d m request)

/-- R495: SERVICE_INCOMPLETE: no effect. -/
def execServiceIncomplete (_request : Bytes) (s : State) : Host.Outcome State Fault Refusal :=
  .next s

/-- R490: TEL_FCLO_READ. -/
def execTelFcloRead (s : State) : Host.Outcome State Fault Refusal :=
  liveDev s (fun d => d.readAccess (Adr.TEL_FCLO))

/-- R489: FIRING_COUNT_FOLD. -/
def execFiringCountFold (port : Fin 64) (s : State) : Host.Outcome State Fault Refusal :=
  liveDev s (fun d => d.foldCounts port.val)

/-- R488: TJ_UPDATE. -/
def execTjUpdate (temp : BitVec 16) (s : State) : Host.Outcome State Fault Refusal :=
  liveDev s (fun d => d.tjUpdate temp.toNat)

end Sys2Proof.Machine
end

