-- ==== Sys2Proof/Machine/ExecBoot.lean ====
section
/-!
DEFINITION. The commands of reset, start-up, the journal and the power domains (R436 to R463, R466 to R474, R507, R513).
-/
namespace Sys2Proof.Machine

/-- R436: RESET_ASSERT. -/
def execResetAssert (s : State) : Host.Outcome State Fault Refusal :=
  .next { s with dev := s.dev.resetAssert }

/-- R436, R437: RESET_RELEASE: steps 1 to 3. -/
def execResetRelease (devsel : Bool) (imageA imageB : Bytes) (s : State) : Host.Outcome State Fault Refusal :=
  .next { s with dev := s.dev.resetRelease devsel imageA imageB }

/-- R437: STOKER_RELEASE: steps 4 to 8. -/
def execStokerRelease (s : State) : Host.Outcome State Fault Refusal :=
  live s stokerRelease

/-- R437, R95: DEVICE_READY. -/
def execDeviceReady (s : State) : Host.Outcome State Fault Refusal :=
  liveDev s Dev.deviceReady

/-- R455, R456: STOKER_LOAD_WINDOW. -/
def execStokerLoadWindow (load : Nat) (s : State) : Host.Outcome State Fault Refusal :=
  liveDev s (fun d => d.stokerLoadWindow load)

/-- R457: WATCHDOG_EXPIRY; the restarted stoker performs what it had not. -/
def execWatchdogExpiry (hashOk : Bool) (s : State) : Host.Outcome State Fault Refusal :=
  live s (fun d m => takeUpAll (d.watchdogExpiry hashOk, m))

/-- R460, R461: JOURNAL_WRITE. -/
def execJournalWrite (ok : Bool) (s : State) : Host.Outcome State Fault Refusal :=
  liveDev s (fun d => d.journalWrite ok)

/-- R460: FIRING_COUNT_CHECKPOINT. -/
def execFiringCountCheckpoint (s : State) : Host.Outcome State Fault Refusal :=
  liveDev s Dev.checkpoint

/-- R463: CLEAR_STATES. -/
def execClearStates (path : Path) (s : State) : Host.Outcome State Fault Refusal :=
  live s (writeAccess path [] Adr.JNL_CTRL 1#32)

/-- R463: CLEAR_COUNTS. -/
def execClearCounts (path : Path) (s : State) : Host.Outcome State Fault Refusal :=
  live s (writeAccess path [] Adr.JNL_CTRL 2#32)

/-- R463: CLEAR_TROUBLE. -/
def execClearTrouble (path : Path) (s : State) : Host.Outcome State Fault Refusal :=
  live s (writeAccess path [] Adr.JNL_CTRL 4#32)

/-- R463: CLEAR_CAL. -/
def execClearCal (path : Path) (s : State) : Host.Outcome State Fault Refusal :=
  live s (writeAccess path [] Adr.JNL_CTRL 8#32)

/-- R463: CHECKPOINT. -/
def execCheckpoint (path : Path) (s : State) : Host.Outcome State Fault Refusal :=
  live s (writeAccess path [] Adr.JNL_CTRL 16#32)

/-- R462: JNL_RDDATA_READ. -/
def execJnlRddataRead (s : State) : Host.Outcome State Fault Refusal :=
  liveDev s (fun d => d.readAccess (Adr.JNL_RDDATA))

/-- R469: PWR_REQ_ON. -/
def execPwrReqOn (path : Path) (d : Fin 14) (s : State) : Host.Outcome State Fault Refusal :=
  live s (writeAccess path [] Adr.PWR_REQ (BitVec.ofNat 32 (1 * 4 ^ d.val)))

/-- R469: PWR_REQ_EMBER. -/
def execPwrReqEmber (path : Path) (d : Fin 14) (s : State) : Host.Outcome State Fault Refusal :=
  live s (writeAccess path [] Adr.PWR_REQ (BitVec.ofNat 32 (2 * 4 ^ d.val)))

/-- R469: PWR_REQ_COLD. -/
def execPwrReqCold (path : Path) (d : Fin 14) (s : State) : Host.Outcome State Fault Refusal :=
  live s (writeAccess path [] Adr.PWR_REQ (BitVec.ofNat 32 (3 * 4 ^ d.val)))

/-- R470, R472: DOMAIN_ENTRY_DONE. -/
def execDomainEntryDone (d : Fin 14) (s : State) : Host.Outcome State Fault Refusal :=
  liveDev s (fun x => x.domainEntryDone d.val)

/-- R470, R490: a domain is ON: held words pass; after MEM's cold exit the firing counts take the journal's values. -/
def exitDone (k : Nat) (d : Dev) (m : Mem) : Dev × Mem :=
  let cold := decide (k = 5 ∧ (d.domain k).state = .fromCold)
  let d := d.domainExitDone k
  takeUpAll (if cold then d.restoreCounts else d, m)

/-- R470: DOMAIN_EXIT_DONE. -/
def execDomainExitDone (d : Fin 14) (s : State) : Host.Outcome State Fault Refusal :=
  live s (exitDone d.val)

/-- R507: a power-good input falls: outputs released, the fatal message sent, then reset. -/
def Dev.powerLost (d : Dev) : Dev :=
  let e := (d.releasePorts).setPair (fun p => { p with driving := false })
  (Dev.sendOff d (if d.pair.mode then e.emit (.pair .fatal) else e)).resetAssert

/-- R507: PG_FALL. -/
def execPgFall (s : State) : Host.Outcome State Fault Refusal :=
  .next (if s.dev.boot.inReset then s else { s with dev := s.dev.powerLost })

/-- R513: CLK25_LOSS: the device is in reset. -/
def execClk25Loss (s : State) : Host.Outcome State Fault Refusal :=
  .next { s with dev := s.dev.resetAssert }

end Sys2Proof.Machine
end

