-- ==== Sys2Proof/Machine/Dispatch.lean ====
section
/-!
DEFINITION. The dispatch: one arm for each command of the table, in the table's order, each one call of its meaning.
-/
namespace Sys2Proof.Machine

/-- The effect of a command on everything but the queue of waiting commands. -/
def exec (i : Instr) (s : State) : Host.Outcome State Fault Refusal :=
  match i with
  | .registerWrite path addr value => Sys2Proof.Machine.execRegisterWrite path addr value s
  | .jobStart path => Sys2Proof.Machine.execJobStart path s
  | .jobStop path => Sys2Proof.Machine.execJobStop path s
  | .jobAbort path => Sys2Proof.Machine.execJobAbort path s
  | .doorbellRing path finds => Sys2Proof.Machine.execDoorbellRing path finds s
  | .descriptorFetch finds => Sys2Proof.Machine.execDescriptorFetch finds s
  | .linkPoll finds => Sys2Proof.Machine.execLinkPoll finds s
  | .pageRetire => Sys2Proof.Machine.execPageRetire s
  | .decPlanperWrite path value => Sys2Proof.Machine.execDecPlanperWrite path value s
  | .openSession msg => Sys2Proof.Machine.execOpenSession msg s
  | .close msg => Sys2Proof.Machine.execClose msg s
  | .ack msg => Sys2Proof.Machine.execAck msg s
  | .keepalive msg => Sys2Proof.Machine.execKeepalive msg s
  | .jobWrite msg => Sys2Proof.Machine.execJobWrite msg s
  | .linkWrite msg => Sys2Proof.Machine.execLinkWrite msg s
  | .doorbell msg => Sys2Proof.Machine.execDoorbell msg s
  | .jobRead msg => Sys2Proof.Machine.execJobRead msg s
  | .regWrite msg => Sys2Proof.Machine.execRegWrite msg s
  | .regRead msg => Sys2Proof.Machine.execRegRead msg s
  | .ackDelayExpiry session => Sys2Proof.Machine.execAckDelayExpiry session s
  | .retransmitTimeout session seq => Sys2Proof.Machine.execRetransmitTimeout session seq s
  | .idleTimeout session => Sys2Proof.Machine.execIdleTimeout session s
  | .telemetryPeriod session => Sys2Proof.Machine.execTelemetryPeriod session s
  | .wakeFrame port payload => Sys2Proof.Machine.execWakeFrame port payload s
  | .decodeUseStart plane finds => Sys2Proof.Machine.execDecodeUseStart plane finds s
  | .decodeResume plane => Sys2Proof.Machine.execDecodeResume plane s
  | .decodeUseEnd plane => Sys2Proof.Machine.execDecodeUseEnd plane s
  | .preExpansionDone ok => Sys2Proof.Machine.execPreExpansionDone ok s
  | .repairWaitEnd line => Sys2Proof.Machine.execRepairWaitEnd line s
  | .printRecordChunk plane => Sys2Proof.Machine.execPrintRecordChunk plane s
  | .rasterLine plane => Sys2Proof.Machine.execRasterLine plane s
  | .corrCopyDone plane => Sys2Proof.Machine.execCorrCopyDone plane s
  | .htCopyDone plane => Sys2Proof.Machine.execHtCopyDone plane s
  | .nztWrite path nozzle value => Sys2Proof.Machine.execNztWrite path nozzle value s
  | .quadratureEdge ch a b ns => Sys2Proof.Machine.execQuadratureEdge ch a b ns s
  | .stepEdge ch rising dir changed ns => Sys2Proof.Machine.execStepEdge ch rising dir changed ns s
  | .ssiFrameStart ch ns => Sys2Proof.Machine.execSsiFrameStart ch ns s
  | .ssiFrame ch raw startHigh stopLow ns => Sys2Proof.Machine.execSsiFrame ch raw startHigh stopLow ns s
  | .ssiHoldExpiry ch => Sys2Proof.Machine.execSsiHoldExpiry ch s
  | .indexLatch ch rising => Sys2Proof.Machine.execIndexLatch ch rising s
  | .probeLatch k rising ns => Sys2Proof.Machine.execProbeLatch k rising ns s
  | .pageStart path ch => Sys2Proof.Machine.execPageStart path ch s
  | .setPos path ch => Sys2Proof.Machine.execSetPos path ch s
  | .clearFault path ch => Sys2Proof.Machine.execClearFault path ch s
  | .ltPosloRead ch => Sys2Proof.Machine.execLtPosloRead ch s
  | .lineEvent plane => Sys2Proof.Machine.execLineEvent plane s
  | .strobe port => Sys2Proof.Machine.execStrobe port s
  | .latFall port => Sys2Proof.Machine.execLatFall port s
  | .speedWindowEnd ch => Sys2Proof.Machine.execSpeedWindowEnd ch s
  | .stillTimeout ch => Sys2Proof.Machine.execStillTimeout ch s
  | .shiftStart port => Sys2Proof.Machine.execShiftStart port s
  | .shiftComplete port => Sys2Proof.Machine.execShiftComplete port s
  | .echoCompareResult port bits => Sys2Proof.Machine.execEchoCompareResult port bits s
  | .echoFind path port => Sys2Proof.Machine.execEchoFind path port s
  | .findTimeout port => Sys2Proof.Machine.execFindTimeout port s
  | .deskewStart path all port granted => Sys2Proof.Machine.execDeskewStart path all port granted s
  | .deskewPortDone port calRef pass => Sys2Proof.Machine.execDeskewPortDone port calRef pass s
  | .commitGeometry path => Sys2Proof.Machine.execCommitGeometry path s
  | .commitScale path => Sys2Proof.Machine.execCommitScale path s
  | .commitCodeWidth path => Sys2Proof.Machine.execCommitCodeWidth path s
  | .commitPort path => Sys2Proof.Machine.execCommitPort path s
  | .commitPrint path => Sys2Proof.Machine.execCommitPrint path s
  | .clampClear path => Sys2Proof.Machine.execClampClear path s
  | .ddStart path => Sys2Proof.Machine.execDdStart path s
  | .ddStop path => Sys2Proof.Machine.execDdStop path s
  | .sweepSchedule => Sys2Proof.Machine.execSweepSchedule s
  | .carriageSettled gate => Sys2Proof.Machine.execCarriageSettled gate s
  | .pacerTick ns => Sys2Proof.Machine.execPacerTick ns s
  | .gatePulse gate ns => Sys2Proof.Machine.execGatePulse gate ns s
  | .windowClose gate => Sys2Proof.Machine.execWindowClose gate s
  | .move path axis => Sys2Proof.Machine.execMove path axis s
  | .motStop path axis => Sys2Proof.Machine.execMotStop path axis s
  | .home path axis => Sys2Proof.Machine.execHome path axis s
  | .disable path axis => Sys2Proof.Machine.execDisable path axis s
  | .enable path axis => Sys2Proof.Machine.execEnable path axis s
  | .goPrint path axis => Sys2Proof.Machine.execGoPrint path axis s
  | .goService path axis => Sys2Proof.Machine.execGoService path axis s
  | .energiseDelay axis => Sys2Proof.Machine.execEnergiseDelay axis s
  | .pwmPeriod axis ia ib va vb => Sys2Proof.Machine.execPwmPeriod axis ia ib va vb s
  | .moveComplete axis => Sys2Proof.Machine.execMoveComplete axis s
  | .limitInput k level => Sys2Proof.Machine.execLimitInput k level s
  | .standstill axis => Sys2Proof.Machine.execStandstill axis s
  | .adcCalStart path mask => Sys2Proof.Machine.execAdcCalStart path mask s
  | .adcCalDone vcal results => Sys2Proof.Machine.execAdcCalDone vcal results s
  | .hello h => Sys2Proof.Machine.execHello h s
  | .joinWaitExpiry => Sys2Proof.Machine.execJoinWaitExpiry s
  | .soloResample level => Sys2Proof.Machine.execSoloResample level s
  | .strkInChange level => Sys2Proof.Machine.execStrkInChange level s
  | .heartbeatSend => Sys2Proof.Machine.execHeartbeatSend s
  | .heartbeat h => Sys2Proof.Machine.execHeartbeat h s
  | .heartbeatLoss => Sys2Proof.Machine.execHeartbeatLoss s
  | .strkInWaitExpiry => Sys2Proof.Machine.execStrkInWaitExpiry s
  | .fatalFault kind => Sys2Proof.Machine.execFatalFault kind s
  | .fatalMessage => Sys2Proof.Machine.execFatalMessage s
  | .pairGuard => Sys2Proof.Machine.execPairGuard s
  | .mirror lines => Sys2Proof.Machine.execMirror lines s
  | .mirrorAck n => Sys2Proof.Machine.execMirrorAck n s
  | .registerMessage addr value => Sys2Proof.Machine.execRegisterMessage addr value s
  | .sequenceMessage msg => Sys2Proof.Machine.execSequenceMessage msg s
  | .verdictMessage nozzle state => Sys2Proof.Machine.execVerdictMessage nozzle state s
  | .sessionMessage session copy => Sys2Proof.Machine.execSessionMessage session copy s
  | .timeMessage t => Sys2Proof.Machine.execTimeMessage t s
  | .handoffMessage events => Sys2Proof.Machine.execHandoffMessage events s
  | .repairRequest line finds => Sys2Proof.Machine.execRepairRequest line finds s
  | .repairAnswer line data => Sys2Proof.Machine.execRepairAnswer line data s
  | .rallyRecord r => Sys2Proof.Machine.execRallyRecord r s
  | .rallyWaitExpiry plane event => Sys2Proof.Machine.execRallyWaitExpiry plane event s
  | .latMonitorEdge port rising => Sys2Proof.Machine.execLatMonitorEdge port rising s
  | .handoff path => Sys2Proof.Machine.execHandoff path s
  | .selfTest path => Sys2Proof.Machine.execSelfTest path s
  | .selfTestDone pass => Sys2Proof.Machine.execSelfTestDone pass s
  | .resyncData item => Sys2Proof.Machine.execResyncData item s
  | .laneSignal lane => Sys2Proof.Machine.execLaneSignal lane s
  | .trainingFrame f => Sys2Proof.Machine.execTrainingFrame f s
  | .trainingRequestTimeout lane => Sys2Proof.Machine.execTrainingRequestTimeout lane s
  | .trainRetry lane => Sys2Proof.Machine.execTrainRetry lane s
  | .flit bytes => Sys2Proof.Machine.execFlit bytes s
  | .linkLoss reason => Sys2Proof.Machine.execLinkLoss reason s
  | .hostAdaptTimeout lane fom => Sys2Proof.Machine.execHostAdaptTimeout lane fom s
  | .linkDrop lane reason => Sys2Proof.Machine.execLinkDrop lane reason s
  | .speedAutoSwitch port => Sys2Proof.Machine.execSpeedAutoSwitch port s
  | .netPctrlWrite path port value => Sys2Proof.Machine.execNetPctrlWrite path port value s
  | .laneRetrain path lane => Sys2Proof.Machine.execLaneRetrain path lane s
  | .refclkLoss => Sys2Proof.Machine.execRefclkLoss s
  | .arpRequest port mac sender target => Sys2Proof.Machine.execArpRequest port mac sender target s
  | .neighbourSolicitation port mac sender target => Sys2Proof.Machine.execNeighbourSolicitation port mac sender target s
  | .echoRequest port ep target data => Sys2Proof.Machine.execEchoRequest port ep target data s
  | .pauseFrame port => Sys2Proof.Machine.execPauseFrame port s
  | .announce a => Sys2Proof.Machine.execAnnounce a s
  | .sync m => Sys2Proof.Machine.execSync m s
  | .followUp m => Sys2Proof.Machine.execFollowUp m s
  | .delayResp m => Sys2Proof.Machine.execDelayResp m s
  | .delayReqSend => Sys2Proof.Machine.execDelayReqSend s
  | .announceTimeout source => Sys2Proof.Machine.execAnnounceTimeout source s
  | .holdover => Sys2Proof.Machine.execHoldover s
  | .timeTick => Sys2Proof.Machine.execTimeTick s
  | .timeIncrWrite path value => Sys2Proof.Machine.execTimeIncrWrite path value s
  | .timeStep path value => Sys2Proof.Machine.execTimeStep path value s
  | .timeSecloRead => Sys2Proof.Machine.execTimeSecloRead s
  | .timeExseqRead => Sys2Proof.Machine.execTimeExseqRead s
  | .toutArm path k => Sys2Proof.Machine.execToutArm path k s
  | .toutDisarm path k => Sys2Proof.Machine.execToutDisarm path k s
  | .toutEdge k => Sys2Proof.Machine.execToutEdge k s
  | .dramTrainingDone ok => Sys2Proof.Machine.execDramTrainingDone ok s
  | .alertN channel accepted => Sys2Proof.Machine.execAlertN channel accepted s
  | .refresh channel => Sys2Proof.Machine.execRefresh channel s
  | .zqCalibration => Sys2Proof.Machine.execZqCalibration s
  | .tempPoll channel range => Sys2Proof.Machine.execTempPoll channel range s
  | .sweeperRead errors => Sys2Proof.Machine.execSweeperRead errors s
  | .sramSweepRead addr place find => Sys2Proof.Machine.execSramSweepRead addr place find s
  | .sweeperReread line errors => Sys2Proof.Machine.execSweeperReread line errors s
  | .liveLineAction line => Sys2Proof.Machine.execLiveLineAction line s
  | .remapRequest path value => Sys2Proof.Machine.execRemapRequest path value s
  | .remapDone => Sys2Proof.Machine.execRemapDone s
  | .remapClearAll path => Sys2Proof.Machine.execRemapClearAll path s
  | .kindleDone => Sys2Proof.Machine.execKindleDone s
  | .reservedKindled => Sys2Proof.Machine.execReservedKindled s
  | .dmaProdWrite path c value => Sys2Proof.Machine.execDmaProdWrite path c value s
  | .dmaResume path c => Sys2Proof.Machine.execDmaResume path c s
  | .dmaAbort path c => Sys2Proof.Machine.execDmaAbort path c s
  | .dmaDescFetch c finds => Sys2Proof.Machine.execDmaDescFetch c finds s
  | .dmaTrigger c => Sys2Proof.Machine.execDmaTrigger c s
  | .dmaTimerExpiry t => Sys2Proof.Machine.execDmaTimerExpiry t s
  | .dmaComplete c finds => Sys2Proof.Machine.execDmaComplete c finds s
  | .dmaRecordWrite => Sys2Proof.Machine.execDmaRecordWrite s
  | .dmaCqconsWrite path value => Sys2Proof.Machine.execDmaCqconsWrite path value s
  | .crcReset path u => Sys2Proof.Machine.execCrcReset path u s
  | .queueReset q => Sys2Proof.Machine.execQueueReset q s
  | .noticeQueueTimeout q => Sys2Proof.Machine.execNoticeQueueTimeout q s
  | .trbNqdataRead q => Sys2Proof.Machine.execTrbNqdataRead q s
  | .telQdataRead => Sys2Proof.Machine.execTelQdataRead s
  | .telemetrySample => Sys2Proof.Machine.execTelemetrySample s
  | .resetAssert => Sys2Proof.Machine.execResetAssert s
  | .resetRelease devsel imageA imageB => Sys2Proof.Machine.execResetRelease devsel imageA imageB s
  | .stokerRelease => Sys2Proof.Machine.execStokerRelease s
  | .deviceReady => Sys2Proof.Machine.execDeviceReady s
  | .stokerLoadWindow load => Sys2Proof.Machine.execStokerLoadWindow load s
  | .watchdogExpiry hashOk => Sys2Proof.Machine.execWatchdogExpiry hashOk s
  | .journalWrite ok => Sys2Proof.Machine.execJournalWrite ok s
  | .firingCountCheckpoint => Sys2Proof.Machine.execFiringCountCheckpoint s
  | .clearStates path => Sys2Proof.Machine.execClearStates path s
  | .clearCounts path => Sys2Proof.Machine.execClearCounts path s
  | .clearTrouble path => Sys2Proof.Machine.execClearTrouble path s
  | .clearCal path => Sys2Proof.Machine.execClearCal path s
  | .checkpoint path => Sys2Proof.Machine.execCheckpoint path s
  | .jnlRddataRead => Sys2Proof.Machine.execJnlRddataRead s
  | .pwrReqOn path d => Sys2Proof.Machine.execPwrReqOn path d s
  | .pwrReqEmber path d => Sys2Proof.Machine.execPwrReqEmber path d s
  | .pwrReqCold path d => Sys2Proof.Machine.execPwrReqCold path d s
  | .domainEntryDone d => Sys2Proof.Machine.execDomainEntryDone d s
  | .domainExitDone d => Sys2Proof.Machine.execDomainExitDone d s
  | .pgFall => Sys2Proof.Machine.execPgFall s
  | .stickyClear path mask => Sys2Proof.Machine.execStickyClear path mask s
  | .trbRecackWrite path value => Sys2Proof.Machine.execTrbRecackWrite path value s
  | .trbRecdataRead => Sys2Proof.Machine.execTrbRecdataRead s
  | .serviceRead request => Sys2Proof.Machine.execServiceRead request s
  | .serviceWrite request => Sys2Proof.Machine.execServiceWrite request s
  | .badCommand request => Sys2Proof.Machine.execBadCommand request s
  | .serviceIncomplete request => Sys2Proof.Machine.execServiceIncomplete request s
  | .telFcloRead => Sys2Proof.Machine.execTelFcloRead s
  | .firingCountFold port => Sys2Proof.Machine.execFiringCountFold port s
  | .tjUpdate temp => Sys2Proof.Machine.execTjUpdate temp s
  | .blockLock lane fom hiBer => Sys2Proof.Machine.execBlockLock lane fom hiBer s
  | .budgetScanDone => Sys2Proof.Machine.execBudgetScanDone s
  | .frameDiscard port cause => Sys2Proof.Machine.execFrameDiscard port cause s
  | .clk25Loss => Sys2Proof.Machine.execClk25Loss s
  | .refclkReturn => Sys2Proof.Machine.execRefclkReturn s
  | .ssiCountAdvance ch ns => Sys2Proof.Machine.execSsiCountAdvance ch ns s
  | .axisCommandForward axis op => Sys2Proof.Machine.execAxisCommandForward axis op s
  | .axisStatusReport axis pos vel load stat => Sys2Proof.Machine.execAxisStatusReport axis pos vel load stat s
  | .deskewGrantRequest port => Sys2Proof.Machine.execDeskewGrantRequest port s

end Sys2Proof.Machine
end

