-- ==== Sys2Proof/Safety.lean ====
section
/-!
DEFINITION. The terms that claims about the machine use: a machine that runs, what it means for a command to complete, an
access that reaches its register, and the invariant that every step keeps.
-/
namespace Sys2Proof.Machine

/-- R436: the device is not held in reset. -/
def State.runs (s : State) : Prop := s.dev.boot.inReset = false

/-- The command completes: it leaves the device as `d` and the job store as `m`, and what that leaves a pair to do is done
(`settle`; on a single device there is nothing). -/
def Completes (c : Instr) (s : State) (d : Dev) (m : Mem) : Prop := exec c s = .next (settle s (d, m))

/-- A write of `v` to the register at `a` by a path is brought and performed now: the device runs, the path can bring it
(R11, R437), no domain of the path sleeps (R466), and the device is no keeper that discards it (R321). -/
def Reaches (s : State) (path : Path) (a : Nat) (v : Word) : Prop :=
  s.runs ∧ s.dev.pathOpen path a = true ∧ s.dev.pathWaits path = false ∧ s.dev.keeperBars path a v = false

/-- The device as a write by a path finds its registers: an access from outside has woken the stoker (R466), and what
arrived at the pair address has gone to the keeper (R318). -/
def Dev.met (d : Dev) (path : Path) (a : Nat) (v : Word) : Dev :=
  (if path = .partner then d else d.wake 1 (pathWake path)).mirrorWrite path a v

/-- R306: the device is a single one: it has no partner. -/
def Dev.single (d : Dev) : Prop := d.pair.mode = false ∧ d.inPair = false

/-- A field of a register, by its address and bits, lies in the fields of a list. -/
def inFields (l : List FieldRef) (a i : Nat) : Prop := ∃ f ∈ l, f.addr = a ∧ f.lo ≤ i ∧ i ≤ f.hi

/-- No stored bit of the register window differs but those of the listed fields. -/
def OnlyFields (l : List FieldRef) (d e : Dev) : Prop :=
  ∀ a i, ¬ inFields l a i → (e.reg a).toNat.testBit i = (d.reg a).toNat.testBit i

/-! ### Messages of the Oaxia job protocol -/

/-- R82 to R87, R111, R119: a message of type code `kind` reaches the open session `i` that it names: the device runs and is
ready, the frame fits its port and its path, the address it came to is one the device uses, the header is sound, the HOST
domain is ON, and the message passes the session's length and authentication. -/
structure Taken (s : State) (kind : Nat) (g : OjpMsg) (i : Nat) (x : Session) : Prop where
  runs : s.runs
  frame : msgFrameSize g ≤ s.dev.frameLimit g.port
  address : g.atPair = true → (s.dev.frameIn g.port.val).usesPair = true
  ready : (s.dev.frameIn g.port.val).isReady = true
  path : msgSize g ≤ pathMax g.ep.v6 (decide ((s.dev.frameIn g.port.val).rd (Fld.NET_PCTRL.Jumbo g.port.val) = 1))
  sound : msgSound kind g = true
  host : (s.dev.frameIn g.port.val).domOn 3 = true
  named : (s.dev.frameIn g.port.val).namedSession g = some (i, x)
  size : msgSize g ≤ x.maxMessage
  genuine : (s.dev.frameIn g.port.val).authentic x kind g = true

/-- The device as a message of an open session finds it: its frame counted and HOST woken (R122), the session's path
followed (R363), the acknowledgement it carries taken (R100). -/
def Dev.heard (d : Dev) (i : Nat) (x : Session) (g : OjpMsg) : Dev := ((d.frameIn g.port.val).followPath i x g).hostAck i g

/-- R97, R102: the message is the one that its session performs next, and what performs it is awake: its number is AckSeq,
no other message is held and none waits for the keeper. -/
structure InTurn (d : Dev) (kind : Nat) (g : OjpMsg) (i : Nat) (y : Session) : Prop where
  isOpen : d.session i = some y
  next : y.ackSeq = g.seq.toNat
  alone : y.held = []
  settled : ∀ x ∈ d.pair.mirrors, x.session ≠ i
  stoker : d.stokerRuns = true ∧ d.domOn 1 = true
  memory : d.memRuns = true
  genuine : d.authentic y kind g = true

/-- The session as it performs a message: the message held at AckSeq. -/
def Session.holding (y : Session) (kind : Nat) (g : OjpMsg) : Session := { y with held := [⟨kind, g⟩] }

/-- The device as a message in its turn is performed. -/
def Dev.performing (d : Dev) (i : Nat) (y : Session) (kind : Nat) (g : OjpMsg) : Dev :=
  d.setSession i (some (y.holding kind g))

/-- No line that a read meets is damaged or corrected. -/
def Mem.sound (m : Mem) (finds : Finds) : Prop :=
  (∀ l, m.bad finds l = false) ∧ (∀ l, foundAs finds .corrected l = false)

/-- The invariant of every state: the job store is in its canonical form. -/
def State.Inv (s : State) : Prop := s.mem.wf = true

end Sys2Proof.Machine
end

