-- ==== Sys2Proof/Certificates/Slice0/Obligations.lean ====
section
/-!
DEFINITION. What is claimed of the machine, chapter by chapter of the spec.  Unless a statement says otherwise, `Completes`
gives the whole of what a command leaves: every register, every queue and every byte of the job store that the device or the
store named there does not change is unchanged.
-/
open Sys2Proof Sys2Proof.Machine

/-! ### The machine -/

/-- A step takes the command at the front of the queue, with the rest of the queue left; with none waiting the device idles
(the model's choice: assumption log 1). -/
def Obligations.StepTakesFrontCommand : Prop :=
  (∀ (c : Instr) (rest : List Instr) (s : State), s.pending = c :: rest → step s = exec c { s with pending := rest }) ∧
  (∀ s : State, s.pending = [] → step s = .next s)

/-- R436: the device is in reset until its release: no command but the release, and those that hold it in reset, changes
anything. -/
def Obligations.ResetHoldsEverything : Prop :=
  ∀ (c : Instr) (s : State), s.dev.boot.inReset = true → c ≠ .resetAssert → c ≠ .clk25Loss →
    (∀ v a b, c ≠ .resetRelease v a b) → exec c s = .next s

/-- Reset leaves every register of the window at the value that its table gives (R17), every domain ON (R466), the
sequencer Idle, every head-port output low (R233), nothing queued and nothing sent.
Model choices that this rests on: assumption logs 10, 12, 155. -/
def Obligations.ResetValues : Prop :=
  (∀ a, State.reset.dev.reg a = resetWord .sn262 a) ∧ (∀ a, State.reset.dev.actReg a = resetWord .sn262 a) ∧
  (∀ k : Fin 14, State.reset.dev.pwr[k].state = .on) ∧ State.reset.dev.job.seq = .idle ∧
  (∀ p : Fin 64, State.reset.dev.hp.ports[p].latHigh = false ∧ State.reset.dev.hp.ports[p].queue = []) ∧
  State.reset.pending = [] ∧ State.reset.dev.out = [] ∧ State.reset.mem.store = [] ∧ State.reset.dev.boot.inReset = true

/-- The invariant holds at reset.
Model choices that this rests on: assumption log 20. -/
def Obligations.ResetStoreCanonical : Prop := State.reset.Inv

/-- Every step keeps the job store in its canonical form: offsets strictly rising, no byte listed that reads as an unlisted
one does.
Model choices that this rests on: assumption log 20. -/
def Obligations.StepKeepsStoreCanonical : Prop := ∀ s t : State, s.Inv → step s = .next t → t.Inv

/-- What a command leaves a pair to do: nothing on a single device; and in a pair whose command changed no role and no
session, left no mirrored message waiting, sent nothing, and whose partner began no resynchronisation, nothing either. -/
def Obligations.SettleAddsNothingWhenQuiet : Prop :=
  (∀ (s : State) (d : Dev) (m : Mem), d.pair.mode = false → settle s (d, m) = ⟨d, m, s.pending⟩) ∧
  (∀ (s : State) (d : Dev) (m : Mem), d.pair.mode = true → d.pair.role = s.dev.pair.role → d.pair.mirrors = [] →
    d.out = s.dev.out → d.ojp = s.dev.ojp → d.pair.partnerState = s.dev.pair.partnerState →
    settle s (d, m) = ⟨d, m, s.pending⟩)

/-! ### The page sequencer -/

/-- R64: Start in Idle begins the chain at JOB_HEAD; Start in any other state is ignored, sets JOB_ERR.StartIgnored and
raises a notice; a head offset at or above JOB_LIMIT parks the chain with a malformed-descriptor fault at once.
Model choices that this rests on: assumption log 22. -/
def Obligations.JobStartFollowsFromHead : Prop :=
  ∀ (s : State) (path : Sys2Proof.Path), Reaches s path Adr.JOB_CTRL 1#32 →
    let d := s.dev.met path Adr.JOB_CTRL 1#32
    let begun := d.setJob (fun j => { j with seq := .following, target := .head, skipRun := 0, faultAt := none, dry := false })
    (d.job.seq = .idle → d.jobHead < d.jobLimit → Completes (.jobStart path) s begun s.mem) ∧
    (d.job.seq = .idle → d.jobLimit ≤ d.jobHead → Completes (.jobStart path) s (begun.malformed d.jobHead 0) s.mem) ∧
    (d.job.seq ≠ .idle →
      Completes (.jobStart path) s ((d.sticky Fld.JOB_ERR.StartIgnored).notice Nt.StartIgnored []) s.mem)

/-- R65: Stop fetches no further descriptor and discards the pages not begun; behind a page in flight they wait, and with
no page held the sequencer is Idle at once. Stop in Idle has no effect. -/
def Obligations.JobStopDiscardsUnstarted : Prop :=
  ∀ (s : State) (path : Sys2Proof.Path), Reaches s path Adr.JOB_CTRL 2#32 →
    let d := s.dev.met path Adr.JOB_CTRL 2#32
    (d.job.seq = .idle → Completes (.jobStop path) s (d.tellKeeper .stop) s.mem) ∧
    (d.job.seq ≠ .idle → d.job.pages = [] →
      Completes (.jobStop path) s ((d.setJob (fun j => { j with seq := .idle, target := .none })).tellKeeper .stop) s.mem) ∧
    (d.job.seq ≠ .idle → ∀ p rest, d.job.pages = p :: rest → p.begun = true → p.cancelled = false →
      Completes (.jobStop path) s ((d.setJob (fun j => { j with
        seq := .stopping, target := .none
        pages := p :: rest.map (fun q => if q.begun then q else { q with cancelled := true }) })).tellKeeper .stop) s.mem)

/-- R66: Abort ends the chain at once: the sequencer is Idle with no link to follow, no halt is requested, and every plane
is idle with no run, nothing due and no line event open.
Model choices that this rests on: assumption log 61. -/
def Obligations.JobAbortEndsAtOnce : Prop :=
  ∀ (s : State) (path : Sys2Proof.Path), Reaches s path Adr.JOB_CTRL 4#32 → ∃ e : Dev, Completes (.jobAbort path) s e s.mem ∧
    e.job.seq = .idle ∧ e.job.target = .none ∧ e.lt.haltReq = false ∧
    (∀ n : Fin 8, (e.plane n.val).state = .idle ∧ (e.plane n.val).runs = [] ∧ (e.plane n.val).due = [] ∧
      (e.plane n.val).open_ = [])

/-- R58 to R61, R67: where the sequencer may fetch and the descriptor at JOB_HEAD is good and names a printing page, a fetch
copies it on chip as the last page held, shows it in JOB_TAIL, and goes on to its link.
Model choices that this rests on: assumption log 21. -/
def Obligations.DescriptorFetchHoldsPage : Prop :=
  ∀ (s : State) (finds : Finds) (off : Nat), s.runs → s.dev.isKeeper = false → s.dev.mayFetch = true →
    s.dev.memRuns = true → s.dev.job.target = .head → off = s.dev.jobHead → off < s.dev.jobLimit →
    (∀ l, s.mem.bad finds l = false) → (∀ l, foundAs finds .corrected l = false) →
    descFail s.dev.jobLimit (s.mem.read off 128) = none → leAt (s.mem.read off 128) 0x0C 4 ≠ 0 →
    s.dev.leadBusy = false →
    Completes (.descriptorFetch finds) s
      (Dev.tellFetch s.dev
        ((((s.dev.setJob (fun j => { j with nextKey := j.nextKey + 1, faultAt := none })).wr Fld.JOB_TAILLO.TailLo
          (off / 128)).wr Fld.JOB_TAILHI.TailHi (off / 2 ^ 32)).setJob (fun j => { j with
            pages := j.pages ++ [pageOf s.dev.job.nextKey off (s.mem.read off 128)], skipRun := 0, seq := .following
            target := .link off (descHold (s.mem.read off 128)) })) s.mem) s.mem

/-- R59, R73, R74, R79: a parked sequencer that polls its link stays parked on an end mark, and parks with a
malformed-descriptor fault, the first failing field 0x78, on a link that breaks the rules of R59.
Model choices that this rests on: assumption logs 21, 23. -/
def Obligations.LinkPollReadsLink : Prop :=
  ∀ (s : State) (finds : Finds) (off : Nat), s.runs → s.dev.isKeeper = false → s.dev.memRuns = true →
    (s.dev.job.seq = .parkedEnd ∨ s.dev.job.seq = .parkedFault) → s.dev.job.target = .link off false →
    (∀ l, s.mem.bad finds l = false) → (∀ l, foundAs finds .corrected l = false) →
    let w := leNat (s.mem.read (off + 0x78) 8)
    (w % 2 = 1 → Completes (.linkPoll finds) s
      (s.dev.setJob (fun j => { j with seq := .parkedEnd, faultAt := if j.faultAt = some off then none else j.faultAt })) s.mem) ∧
    (w % 2 = 0 → (w % 128 ≠ 0 ∨ 2 ^ 40 ≤ w ∨ s.dev.jobLimit ≤ w) →
      Completes (.linkPoll finds) s (s.dev.malformed off 0x78) s.mem)

/-- R74, R77: a doorbell while the sequencer is not parked and no Hold is unreleased is counted in JOB_BELLCNT and has no
other effect; one that comes before the sequencer has come to a link on Hold releases it, uncounted. -/
def Obligations.DoorbellCountsOrReleases : Prop :=
  ∀ (s : State) (path : Sys2Proof.Path) (finds : Finds), Reaches s path Adr.JOB_DOORBELL 1#32 → s.dev.isKeeper = false →
    let d := s.dev.met path Adr.JOB_DOORBELL 1#32
    (d.job.seq ≠ .parkedEnd → d.job.seq ≠ .parkedFault → (∀ off, d.job.target ≠ .link off true) →
      Completes (.doorbellRing path finds) s (d.bump Fld.JOB_BELLCNT.Count) s.mem) ∧
    (∀ off, d.job.seq ≠ .parkedHold → d.job.target = .link off true →
      Completes (.doorbellRing path finds) s (d.setJob (fun j => { j with target := .link off false })) s.mem)

/-- R69: the oldest page, once it may retire, does so: JOB_RETPAGE, JOB_RETGEN and JOB_RETSTAT take its PageId, Generation
and status, JOB_PAGECNT counts it, JOB_FLAGCNT counts a flagged one, and the striker's page-end notice carries them with the
page-start time (R115, R341). -/
def Obligations.PageRetireReports : Prop :=
  ∀ (s : State) (p : Page) (rest : List Page), s.runs → s.dev.job.pages = p :: rest → p.cancelled = false →
    (∀ q ∈ rest, q.cancelled = false ∧ q.key ≠ p.key) → s.dev.mayRetire p = true → s.dev.job.seq ≠ .stopping →
    let d := ((s.dev.setJob (fun j => { j with pages := rest })).wr Fld.JOB_RETPAGE.PageId p.pageId.toNat).wr
      Fld.JOB_RETGEN.Generation p.generation.toNat
    let d := (d.wr Fld.JOB_RETSTAT.Status p.status.toNat).bump Fld.JOB_PAGECNT.Count
    let d := if p.status.toNat.testBit 0 then d.bump Fld.JOB_FLAGCNT.Count else d
    let t : TimeStamp := p.startTime.getD ⟨0, 0, 0⟩
    Completes .pageRetire s (if s.dev.isKeeper then d else d.noticeAt Nt.PageEnd
      [(0, 4, p.pageId.toNat), (4, 4, p.generation.toNat), (8, 2, p.status.toNat), (12, 6, t.sec), (18, 4, t.ns)]) s.mem

/-- R144: a write of DEC_PLANPER takes the value, clamped to 6,250 to 1,000,000 (R449), and has the budget of every held page
that has not started, and is budgeted at all, computed again; pre-expansion already done stands. -/
def Obligations.PlanPeriodWrite : Prop :=
  ∀ (s : State) (path : Sys2Proof.Path) (v : Word), Reaches s path Adr.DEC_PLANPER v → v.toNat < 2 ^ 20 →
    let d := s.dev.met path Adr.DEC_PLANPER v
    Completes (.decPlanperWrite path v) s
      ((d.keepReg Adr.DEC_PLANPER (setBits (d.reg Adr.DEC_PLANPER) 19 0 (clampNat 6250 1000000 v.toNat))).setJob (fun j =>
        { j with pages := j.pages.map (fun p => if !p.begun && decide (p.planeMask ≠ 0#8) && decide (p.length ≠ 0) then
          { p with budget := { p.budget with scanPending := true } } else p) })) s.mem

/-- R17, R41, R449: a register write to a row of a shadow set, where no rule discards it for a plane that waits (R169, R195,
R260), changes the shadow copy alone: every RW field takes the bits written, every other bit stays, and nothing in force
changes.
Model choices that this rests on: assumption log 141. -/
def Obligations.RegisterWriteShadowCopy : Prop :=
  ∀ (s : State) (path : Sys2Proof.Path) (a : Nat) (v : Word) (r : RegSpec) (i w : Nat), Reaches s path a v → a % 4 = 0 →
    holdsRegister s.dev.part a = true → silentRegister s.dev.part a = false → regSpecAt a = some (r, i, w) →
    r.set ≠ .none → BitVec.ofNat 32 (v.toNat &&& definedBits a) = v →
    let d := s.dev.met path a v
    d.barPending a = none →
    ∃ x : Word, Completes (.registerWrite path a v) s (d.keepReg a x) s.mem ∧
      ∀ j, x.toNat.testBit j =
        if (∃ f ∈ r.flds, f.acc = .rw ∧ f.lo ≤ j ∧ j ≤ f.hi) then v.toNat.testBit j else (d.reg a).toNat.testBit j

/-! ### The Oaxia job protocol -/

/-- R98, R103, R105: on a device that mirrors to no keeper, a JobWrite in its turn whose lines are undamaged leaves its data
in its range of the job store, a LinkWrite its value little-endian in 8 bytes, and every other byte as it was; either is
acknowledged, and nothing else changes.
Model choices that this rests on: assumption log 21. -/
def Obligations.OjpWritesReachTheStore : Prop :=
  ∀ (s : State) (g : OjpMsg) (i : Nat) (x y : Session),
    let d := s.dev.heard i x g
    let off := beAt g.body 0 8
    (Taken s 0x10 g i x → InTurn d 0x10 g i y → s.mem.sound g.finds → d.mirrors = false →
      let t := d.performing i y 0x10 g
      t.jobWriteFail g = 0 → g.body.length ≠ 16 → ∃ m : Mem, Completes (.jobWrite g) s (t.consume i) m ∧
        m.watermark = s.mem.watermark ∧ (∀ l, m.bad [] l = true → s.mem.bad [] l = true) ∧
        ∀ a, m.byte a = if off ≤ a ∧ a < off + (g.body.length - 16) then g.body.getD (16 + (a - off)) 0#8 else s.mem.byte a) ∧
    (Taken s 0x11 g i x → InTurn d 0x11 g i y → s.mem.sound g.finds → d.mirrors = false →
      let t := d.performing i y 0x11 g
      t.linkWriteFail g = 0 → ∃ m : Mem, Completes (.linkWrite g) s (t.consume i) m ∧
        m.watermark = s.mem.watermark ∧ (∀ l, m.bad [] l = true → s.mem.bad [] l = true) ∧
        ∀ a, m.byte a = if off ≤ a ∧ a < off + 8 then g.body.getD (15 - (a - off)) 0#8 else s.mem.byte a)

/-- R93, R106, R108, R110: a Close in its turn is acknowledged and frees its session; a Doorbell rings; the entries of a
RegWrite are written one after another, with one Result where one failed; each with a malformed body fails with BadBody (9)
and has no other effect; and each consumes its number. -/
def Obligations.OjpControlMessages : Prop :=
  ∀ (s : State) (g : OjpMsg) (i : Nat) (x y : Session),
    let d := s.dev.heard i x g
    let n := g.seq.toNat
    (Taken s 0x03 g i x → InTurn d 0x03 g i y →
      let t := d.performing i y 0x03 g
      (g.body = [] → Completes (.close g) s (((t.consume i).transmit i (y.holding 0x03 g).consumed 0x05 0 []).freeSession i) s.mem) ∧
      (g.body ≠ [] → Completes (.close g) s ((t.consume i).result i n 9 0 0) s.mem)) ∧
    (Taken s 0x12 g i x → InTurn d 0x12 g i y →
      let t := d.performing i y 0x12 g
      (g.body = [] → t.isKeeper = false → Completes (.doorbell g) s ((t.ring s.mem g.finds).consume i) s.mem) ∧
      (g.body ≠ [] → Completes (.doorbell g) s ((t.consume i).result i n 9 0 0) s.mem)) ∧
    (Taken s 0x20 g i x → InTurn d 0x20 g i y →
      let t := d.performing i y 0x20 g
      let count := beAt g.body 0 2
      let v := (List.range count).foldl (writeEntry g) ⟨t, s.mem, 0, none⟩
      (g.body.length = 4 + 8 * count → beAt g.body 2 2 = 0 → count ≤ 1024 →
        (v.first = none → Completes (.regWrite g) s (v.dev.consume i) v.mem) ∧
        (∀ k st, v.first = some (k, st) →
          Completes (.regWrite g) s ((v.dev.consume i).result i n (windowStatus st) k v.fails) v.mem)) ∧
      (g.body.length ≠ 4 + 8 * count ∨ beAt g.body 2 2 ≠ 0 →
        Completes (.regWrite g) s ((t.consume i).result i n 9 0 0) s.mem))

/-- R107, R109: a JobRead in its turn of undamaged lines is answered with the offset and the length asked for, status 0 and
the bytes of the store, a RegRead with one entry of 12 bytes for each address, read in order; a malformed one with status
BadBody (9), nothing read.
Model choices that this rests on: assumption log 21. -/
def Obligations.OjpReadsAnswer : Prop :=
  ∀ (s : State) (g : OjpMsg) (i : Nat) (x y : Session),
    let d := s.dev.heard i x g
    (Taken s 0x13 g i x → InTurn d 0x13 g i y →
      let t := d.performing i y 0x13 g
      let n := beAt g.body 8 4
      (s.mem.sound g.finds → t.jobReadFail (y.holding 0x13 g) g = 0 →
        Completes (.jobRead g) s ((t.consume i).sendSeq i 0x14
          (natBE 8 (beAt g.body 0 8) ++ natBE 4 n ++ [0#8, 0#8, 0#8, 0#8] ++ s.mem.read (beAt g.body 0 8) n) none) s.mem) ∧
      (g.body.length ≠ 16 → Completes (.jobRead g) s ((t.consume i).sendSeq i 0x14
          (natBE 8 (beAt g.body 0 8) ++ natBE 4 0 ++ [0#8, 9#8, 0#8, 0#8]) none) s.mem)) ∧
    (Taken s 0x21 g i x → InTurn d 0x21 g i y →
      let t := d.performing i y 0x21 g
      let n := beAt g.body 0 2
      (g.body.length = 4 + 4 * n → beAt g.body 2 2 = 0 → n ≤ 1024 →
        32 + 12 * n + (if y.keyId = 0 then 0 else 16) ≤ y.maxMessage →
        let r := (List.range n).foldl (readEntry g) (t, [])
        Completes (.regRead g) s ((r.1.consume i).sendSeq i 0x22 (natBE 2 n ++ [0#8, 0#8] ++ r.2) none) s.mem) ∧
      (g.body.length ≠ 4 + 4 * n ∨ beAt g.body 2 2 ≠ 0 →
        Completes (.regRead g) s ((t.consume i).sendSeq i 0x22 [0#8, 0#8, 0#8, 9#8] none) s.mem))

/-- R97: a sequenced message whose number was performed or is held already is a duplicate: counted in NET_OJPDUP and an Ack
owed, never performed again; one at or beyond AckSeq + DeviceWindow is counted in NET_OJPDROP, and an Ack is owed. -/
def Obligations.OjpPerformedNeverTwice : Prop :=
  ∀ (s : State) (g : OjpMsg) (i : Nat) (x y : Session), Taken s 0x10 g i x →
    let d := s.dev.heard i x g
    d.session i = some y →
    ((seqBefore g.seq.toNat y.ackSeq = true ∨ ∃ h ∈ y.held, h.msg.seq = g.seq) →
      Completes (.jobWrite g) s ((d.bump Fld.NET_OJPDUP.Count).setSession i (some { y with ackPending := true })) s.mem) ∧
    (seqBefore g.seq.toNat y.ackSeq = false → (∀ h ∈ y.held, h.msg.seq ≠ g.seq) → g.seq.toNat ≠ y.ackSeq →
      seqBefore g.seq.toNat (seqAdd y.ackSeq y.devWindow) = false →
      Completes (.jobWrite g) s ((d.bump Fld.NET_OJPDROP.Count).setSession i (some { y with ackPending := true })) s.mem)

/-- R89 to R92: an Open without a key, where AuthRequired is not set and a session is free, opens one of the free numbers
with its values clamped to legal ones, AckSeq 1 and the first device number 1; with none free it sets
NET_OJPERR.SessionFull and is refused with status NoSession (10). The number and the nonce are the device's choice.
Model choices that this rests on: assumption logs 3, 11, 127. -/
def Obligations.OjpOpenGrantsFreeSession : Prop :=
  ∀ (s : State) (g : OjpMsg), s.runs → msgFrameSize g ≤ s.dev.frameLimit g.port → g.atPair = false →
    let d := s.dev.frameIn g.port.val
    let top := pathMax g.ep.v6 (decide (d.rd (Fld.NET_PCTRL.Jumbo g.port.val) = 1))
    let q := openAsk g.body
    d.isReady = true → msgSize g ≤ top → msgSound 0x01 g = true → d.domOn 3 = true → d.stokerRuns = true →
    d.domOn 1 = true → g.session = 0xFF#8 → g.seq = 0#32 → g.body.length = 32 → d.openedBy g q.nonce = none →
    q.keyId = 0 → d.rd Fld.NET_OJPCTRL.AuthRequired = 0 → g.flags.toNat.testBit 0 = false →
    (d.freeSessions ≠ [] → ∃ (e : Dev) (i : Nat) (y : Session), Completes (.openSession g) s e s.mem ∧ i < 16 ∧
      d.session i = none ∧ e.session i = some y ∧ y.ep = g.ep ∧ y.hostNonce = sliceB g.body 0 8 ∧
      y.devWindow = clampNat 1 1024 (beAt g.body 8 2) ∧ y.hostWindow = clampNat 1 1024 (beAt g.body 10 2) ∧
      y.telPeriod = clampNat 10 60000 (beAt g.body 16 4) ∧ y.maxMessage = top ∧ y.ackSeq = 1 ∧ y.held = [] ∧ y.txNext = 1 ∧
      ∀ j, j ≠ i → e.session j = d.session j) ∧
    (d.freeSessions = [] →
      Completes (.openSession g) s ((d.sticky Fld.NET_OJPERR.SessionFull).refuseOpen g q 10 top) s.mem)

/-- R94, R99, R100: an Ack or an empty Keepalive has the effect of its acknowledgement alone; AckDelay sends one Ack where
one is owed; a message whose retransmit time has run out is sent again with its number, counted, with the time doubled up
to 64 times, and after MaxTries the session is closed with RetryLimit; an idle session is closed with IdleClose.
Model choices that this rests on: assumption log 135. -/
def Obligations.OjpTimersAndAcks : Prop :=
  (∀ (s : State) (g : OjpMsg) (i : Nat) (x : Session), Taken s 0x05 g i x → Completes (.ack g) s (s.dev.heard i x g) s.mem) ∧
  (∀ (s : State) (g : OjpMsg) (i : Nat) (x : Session), Taken s 0x06 g i x → g.body = [] →
    Completes (.keepalive g) s (s.dev.heard i x g) s.mem) ∧
  (∀ (s : State) (k : Fin 16) (y : Session), s.runs → s.dev.session k.val = some y →
    (y.ackPending = true → Completes (.ackDelayExpiry k) s (s.dev.transmit k.val y 0x05 0 []) s.mem) ∧
    (y.ackPending = false → Completes (.ackDelayExpiry k) s s.dev s.mem) ∧
    Completes (.idleTimeout k) s ((s.dev.sticky Fld.NET_OJPERR.IdleClose).closeSession k.val y 1) s.mem ∧
    (∀ n w, y.unacked.find? (fun w => w.seq == n) = some w → w.hostHeld = false → w.parked = false →
      (s.dev.rd Fld.NET_OJPRTO.MaxTries ≤ w.tries → Completes (.retransmitTimeout k n) s
        ((s.dev.sticky Fld.NET_OJPERR.RetryLimit).closeSession k.val y 2) s.mem) ∧
      (w.tries < s.dev.rd Fld.NET_OJPRTO.MaxTries → s.dev.carries k.val y w.kind w.seq w.body = true →
        Completes (.retransmitTimeout k n) s ((s.dev.bump Fld.NET_OJPRETX.Count).transmit k.val
          (y.modMsg n (fun m => { m with tries := m.tries + 1, rto := if m.tries ≤ 6 then 2 * m.rto else m.rto }))
          w.kind n w.body) s.mem)))

/-- R116, R121, R122: each period a session subscribed to Telemetry is sent one Telemetry message, another none; and any
frame wakes HOST, a valid wake frame every further domain of its DomainMask, and has no other effect.
Model choices that this rests on: assumption log 91. -/
def Obligations.OjpTelemetryAndWake : Prop :=
  (∀ (s : State) (k : Fin 16) (y : Session), s.runs → s.dev.stokerRuns = true → s.dev.domOn 1 = true →
    s.dev.session k.val = some y →
    (y.subscribe.toNat.testBit 1 = true → Completes (.telemetryPeriod k) s (s.dev.sendSeq k.val 0x41 s.dev.telBody none) s.mem) ∧
    (y.subscribe.toNat.testBit 1 = false → Completes (.telemetryPeriod k) s s.dev s.mem)) ∧
  (∀ (s : State) (p : Fin 4) (f : Bytes), s.runs →
    let d := s.dev.frameIn p.val
    (46 ≤ f.length → beAt f 0 2 = 0x574B → beAt f 2 1 = 1 → (beAt f 3 1 = 0xFF ∨ beAt f 3 1 = d.devNum % 2) →
      beAt f 4 4 < 2 ^ 14 → (∀ b ∈ f.drop 8, b = 0#8) →
      Completes (.wakeFrame p f) s
        ((List.range 14).foldl (fun e k => if (beAt f 4 4).testBit k ∧ k ≠ 0 then e.wake k 3 else e) d) s.mem) ∧
    (beAt f 0 2 ≠ 0x574B → Completes (.wakeFrame p f) s d s.mem))

/-! ### Decoding, the budget and the print record -/

/-- R51, R52, R55, R56, R125: a plane whose dispatcher stands at a strip that a held page still needs, DECODE and MEM
running and its lines undamaged, starts the use of it: a constant strip gives lines of its fill byte, a raw strip the bytes
stored, an ordinary Deflate strip what an engine decodes of them; a malformed strip is reported and prints blank.
Model choices that this rests on: assumption logs 21, 26, 27. -/
def Obligations.DecodeStartsStripUse : Prop :=
  ∀ (s : State) (n : Fin 8) (finds : Finds) (p : Page) (c : DecodeCursor), s.runs → s.dev.domOn 6 = true →
    s.dev.memRuns = true → s.mem.sound finds → (s.dev.decode n.val).cursor = some c →
    (∀ u ∈ (s.dev.decode n.val).uses, u.lines = []) → s.dev.page c.page = some p → p.cancelled = false →
    c.lines < s.dev.needLines n.val p → 0 < c.left →
    let raw := s.mem.read c.strip 64
    let h := stripHdr raw
    let need := s.dev.needLines n.val p
    let keep := min h.lineCount (need - c.lines)
    let next := { c with left := c.left - 1 }
    let whole := decide (keep = h.lineCount)
    (stripFail s.dev.jobLimit n.val c.strip raw = none → (c.left = c.rep → c.lines + h.lineCount * c.rep ≤ need) →
      (h.enc = 2 → Completes (.decodeUseStart n finds) s (s.dev.addUse n.val next (rawUse c.page c.lines 0 h.width keep whole h
        (List.replicate (keep * h.width) (BitVec.ofNat 8 h.fill)) [])) s.mem) ∧
      (h.enc = 0 → Completes (.decodeUseStart n finds) s (s.dev.addUse n.val next (rawUse c.page c.lines (c.strip + 64) h.width
        keep whole h (s.mem.read (c.strip + 64) (keep * h.width)) [])) s.mem) ∧
      (∀ e, h.enc = 1 → h.continued = false → s.dev.poolCopy c.strip h = none → s.dev.ordinaryEngine = some e →
        Completes (.decodeUseStart n finds) s (s.dev.ordinaryUse s.mem n.val c.strip keep next h [] e) s.mem)) ∧
    (∀ f, stripFail s.dev.jobLimit n.val c.strip raw = some f →
      (c.left = c.rep → c.lines + (readableLines raw).getD 0 * c.rep ≤ need) →
      Completes (.decodeUseStart n finds) s ((s.dev.stripError c.page (noticeId raw) c.strip f c.entryOff).addBlank n.val next
        need ((readableLines raw).getD 0)) s.mem)

/-- R52, R125, R128, R137, R145: an engine stopped for a full ring part goes on filling it with the lines that fit; a use
whose lines are all in the ring ends, frees its engine and reports what went wrong; and the wait for a line's repair ends,
that line alone.
Model choices that this rests on: assumption logs 26, 41. -/
def Obligations.DecodeGoesOnAndEnds : Prop :=
  ∀ (s : State) (n : Fin 8) (u : Use) (us : List Use), s.runs → (s.dev.decode n.val).uses = u :: us →
    let x := s.dev.decode n.val
    (u.lines ≠ [] → Completes (.decodeResume n) s (s.dev.setDecode n.val { x with
      ring := (s.dev.fillRing n.val x.ring u.lines).1
      uses := ({ u with lines := (s.dev.fillRing n.val x.ring u.lines).2 } :: us).filter (fun v => !v.spent) }) s.mem) ∧
    (u.lines = [] → u.finish = quietEnd →
      Completes (.decodeUseEnd n) s (s.dev.setDecode n.val { x with uses := us }) s.mem) ∧
    (∀ k at_, u.lines = [] → u.finish = { quietEnd with stripId := u.finish.stripId, error := some (k, at_) } →
      Completes (.decodeUseEnd n) s ((((s.dev.setDecode n.val { x with uses := us }).flag u.page 3).sticky
        Fld.DEC_ERR.StreamError).noticeAt Nt.StreamError
          [(0, 4, u.finish.stripId), (4, 1, k), (8, 4, patternOf 32 at_)]) s.mem) ∧
    (u.lines ≠ [] → Completes (.decodeUseEnd n) s s.dev s.mem) ∧
    (∀ line, ∃ e, Completes (.repairWaitEnd line) s e s.mem ∧
      e.dec.waits = s.dev.dec.waits.map (fun w => if w.1 = line then (line, 1) else w) ∧
      e.win = s.dev.win ∧ e.act = s.dev.act ∧ e.dec.planes = s.dev.dec.planes ∧ e.job = s.dev.job)

/-- R142: a pre-expansion decode that failed leaves no copy and counts nothing; one that decoded an undamaged, well-formed
Deflate strip without error, its key and DataCrc standing, keeps the data and is counted in DEC_EXPCNT. -/
def Obligations.PreExpansionKeepsGoodCopies : Prop :=
  ∀ (s : State) (x : PoolCopy), s.runs → s.dev.dec.pool.find? (fun y => !y.done) = some x →
    Completes (.preExpansionDone false) s
      { s.dev with dec := { s.dev.dec with pool := s.dev.dec.pool.filter (fun y => y != x) } } s.mem ∧
    (let bs := s.mem.read x.offset 64
     let h := stripHdr bs
     let o := inflate Inf.fresh (s.mem.read (x.offset + 64) h.comp) h.decoded false false
     x.fits x.offset h = true → stripFail s.dev.jobLimit h.plane x.offset bs = none → h.enc = 1 → h.continued = false →
     (∀ l, s.mem.bad [] l = false) → o.error = none → crc32c o.data = h.dataCrc →
     Completes (.preExpansionDone true) s (Dev.bump { s.dev with dec := { s.dev.dec with
       pool := s.dev.dec.pool.map (fun y => if y = x then { y with done := true, data := o.data } else y) } }
         Fld.DEC_EXPCNT.Count) s.mem)

/-- R138 to R143: with no pool, a completed scan of the oldest page whose scan is pending holds the windows of every
enabled plane as charged; a page of which every window fits raises nothing, one that does not fit on one
plane asks for the period of its slowest window, sets DEC_ERR.BudgetShort and raises the notice that carries it.
Model choices that this rests on: assumption log 30. -/
def Obligations.BudgetScanJudgesPage : Prop :=
  ∀ (s : State) (p : Page), s.runs → s.dev.job.pages.find? (fun q => q.budget.scanPending) = some p →
    s.dev.rd Fld.DEC_POOL.SizeGiB = 0 →
    let ws := s.dev.planesOn.map (fun n => (n, windowsOf p.length (s.dev.pageCharges s.mem p n)))
    let d := s.dev.modPage p.key (fun q => { q with budget := ⟨false, ws, false, 0⟩ })
    ((∀ e ∈ ws, s.dev.planeTime e.1 e.2 ≤ (s.dev.planPeriod e.1 : Rat)) → Completes .budgetScanDone s d s.mem) ∧
    (∀ n t, s.dev.overPlanes ws = [(n, t)] →
      let mine := ((ws.find? (fun e => e.1 == n)).map (fun e => e.2.findIdx (fun b => s.dev.misfit n b))).getD 0
      Completes .budgetScanDone s
        (((d.modPage p.key (fun q => { q with budget := { q.budget with tooSlow := true, tmin := t.ceil.toNat } })).sticky
          Fld.DEC_ERR.BudgetShort).noticeAt Nt.BudgetShort [(0, 4, p.pageId.toNat), (4, 4, p.generation.toNat),
            (8, 4, t.ceil.toNat), (12, 4, 1000000000 / t.ceil.toNat), (16, 1, n), (18, 2, mine)]) s.mem)

/-- R118, R146 to R148: with no record on the plane due nothing is sent; a chunk of at most 64 line records of the oldest
page due leaves the record, its compressed form is no longer than R148 allows, and each session still served is sent it.
Model choices that this rests on: assumption log 4. -/
def Obligations.RecordChunkSent : Prop :=
  ∀ (s : State) (n : Fin 8), s.runs →
    let due := fun (p : Page) => p.records.any (fun r =>
      r.plane == n.val && !r.ended && (decide (64 ≤ r.lines.length) || r.finished))
    ((∀ p ∈ s.dev.job.pages, due p = false) → Completes (.printRecordChunk n) s s.dev s.mem) ∧
    (∀ p r, s.dev.job.pages.find? due = some p → p.records.find? (fun r => r.plane == n.val) = some r →
      let len := (r.lines.take 64).foldl (fun a l => a + l.length) 0
      let last := r.finished && (r.lines.drop 64).isEmpty
      ∃ data : Bytes, data.length ≤ len + 5 * ceilDiv len 65535 + 13 ∧
        Completes (.printRecordChunk n) s (r.waiting.foldl (fun d i =>
          match d.session i with
          | none => d
          | some y => Dev.sendRecord p n.val i y.recordMax last (data.length + 1) r.sentOffset data d)
          (s.dev.draw.modRecord p.key n.val (fun q => { q with
            lines := r.lines.drop 64, sentOffset := q.sentOffset + data.length, ended := last }))) s.mem)

/-! ### The raster pipeline and the nozzle tables -/

/-- R125, R165, R241: on a single device the pipeline stops while some port of the plane holds four entries or no event is left to form; else it
computes the grid line that the next event needs, forms one entry on each port of the plane, and the run goes on to its
next event; a line already computed is not computed again.
Model choices that this rests on: assumption log 40. -/
def Obligations.RasterFormsEntries : Prop :=
  ∀ (s : State) (n : Fin 8), s.runs → s.dev.domOn 7 = true → s.dev.pair.mode = false → s.dev.pair.state ≠ .isolated →
    ((∃ p ∈ s.dev.portsOf n.val, 4 ≤ (s.dev.port p).queue.length) → Completes (.rasterLine n) s s.dev s.mem) ∧
    (s.dev.nextForm n.val = none → Completes (.rasterLine n) s s.dev s.mem) ∧
    ((∀ p ∈ s.dev.portsOf n.val, (s.dev.port p).queue.length < 4) →
      ∀ count k e p, s.dev.nextForm n.val = some (count, [(k, e)]) → s.dev.page k = some p →
        let g := e - s.dev.planeOffset n.val
        let there := (s.dev.raster n.val).stag.any (fun l => l.page == k && l.line == g)
        (p.length ≤ g ∨ there = true →
          Completes (.rasterLine n) s ((s.dev.formEntry n.val [(k, e)] count).formed n.val [(k, e)]) s.mem) ∧
        (g < p.length → there = false → ∀ d, s.dev.computeLine n.val p g = some d →
          Completes (.rasterLine n) s ((d.formEntry n.val [(k, e)] count).formed n.val [(k, e)]) s.mem))

/-- R168, R195: when the copy of a plane's part of the correction or the halftone set completes, the shadow copy of that
part equals what is in force, no other shadow register has changed, and the plane's pending bit is clear.
Model choices that this rests on: assumption log 33. -/
def Obligations.PrintSetCopyCompletes : Prop :=
  ∀ (s : State) (n : Fin 8), s.runs →
    (s.dev.ras.corrCopy.toNat.testBit n.val = true → ∃ e, Completes (.corrCopyDone n) s e s.mem ∧
      (∀ a, e.actReg a = s.dev.actReg a) ∧ e.ras.htCopy = s.dev.ras.htCopy ∧
      (∀ a, e.reg a = if s.dev.partOf .correction n.val a = true then s.dev.actReg a else s.dev.reg a) ∧
      ∀ k < 8, e.ras.corrCopy.toNat.testBit k = (s.dev.ras.corrCopy.toNat.testBit k && decide (k ≠ n.val))) ∧
    (s.dev.ras.htCopy.toNat.testBit n.val = true → ∃ e, Completes (.htCopyDone n) s e s.mem ∧
      (∀ a, e.actReg a = s.dev.actReg a) ∧ e.ras.corrCopy = s.dev.ras.corrCopy ∧
      (∀ a, e.reg a = if s.dev.partOf .halftone n.val a = true then s.dev.actReg a else s.dev.reg a) ∧
      ∀ k < 8, e.ras.htCopy.toNat.testBit k = (s.dev.ras.htCopy.toNat.testBit k && decide (k ≠ n.val)))

/-- R164, R169, R174: an NZT write always gives the nozzle its pending State, and no other nozzle one; it gives Gain and
Offset to the shadow copy, but while the plane's correction set is pending these are discarded and reported. -/
def Obligations.NozzleWordWrite : Prop :=
  ∀ (s : State) (path : Sys2Proof.Path) (z : Nat) (v : Word), z ≤ s.dev.part.maxNozzle → v.toNat < 2 ^ 18 →
    let a := 0x01000000 + 4 * z
    Reaches s path a v →
    let t := (s.dev.met path a v).touchTables.nztState z v (stateSource path)
    t.pendingState z = BitVec.ofNat 2 (v.toNat / 65536) ∧
    (∀ y, y ≠ z → t.pendingState y = s.dev.pendingState y) ∧
    (t.corrBusy (z / 4096) = false →
      Completes (.nztWrite path z v) s (t.setReg a (BitVec.ofNat 32 (v.toNat % 65536))) s.mem) ∧
    (t.corrBusy (z / 4096) = true → Completes (.nztWrite path z v) s (t.corrDiscard a) s.mem)

/-! ### Position channels and line timing -/

/-- R200, R201, R202, R212: in quadrature one line's change counts one step in the direction it says, reversed by Swap and
Invert, both lines' change is a double transition, and none counts nothing; a step edge counts by DIR, and is a double
transition where DIR changed with it; the end of a speed window shows the counts of the window and starts the next one at
the present count, and a timeout with no count shows Still and a count of 0. -/
def Obligations.ChannelsCountAndReport : Prop :=
  ∀ (s : State) (c : Fin 4) (ns : Nat), s.runs →
    let x := s.dev.chan c
    let inv := decide (s.dev.rd (Fld.LT_CHCFG.Invert c.val) = 1)
    (∀ a b, s.dev.counting = true → s.dev.mode c = 1 →
      let d := s.dev.setChan c { x with a := a, b := b }
      let up := if s.dev.rd (Fld.LT_CHCFG.Swap c.val) = 1 then xor b x.a else xor a x.b
      (a = x.a → b = x.b → Completes (.quadratureEdge c a b ns) s d s.mem) ∧
      (a ≠ x.a → b ≠ x.b → Completes (.quadratureEdge c a b ns) s (d.doubleTransition c ns) s.mem) ∧
      (xor (decide (a = x.a)) (decide (b = x.b)) = true →
        Completes (.quadratureEdge c a b ns) s (d.count c (if xor up inv then 1 else -1) ns) s.mem)) ∧
    (∀ rising dir changed, s.dev.counting = true → s.dev.mode c = 2 →
      let active := rising != decide (s.dev.rd (Fld.LT_CHCFG.StepEdge c.val) = 1)
      (active = false → Completes (.stepEdge c rising dir changed ns) s s.dev s.mem) ∧
      (active = true → changed = true → Completes (.stepEdge c rising dir changed ns) s (s.dev.doubleTransition c ns) s.mem) ∧
      (active = true → changed = false →
        Completes (.stepEdge c rising dir changed ns) s (s.dev.count c (if xor dir inv then 1 else -1) ns) s.mem)) ∧
    (s.dev.domOn 13 = true →
      (x.still = true → Completes (.speedWindowEnd c) s s.dev s.mem) ∧
      (x.still = false → Completes (.speedWindowEnd c) s (((s.dev.showSpeed c false false
        (wrap48 (x.pos - x.windowStart))).startWindow c x.pos).judgeWarn.releaseOverspeed x.windowAfterAbandon) s.mem) ∧
      (let d := s.dev.showSpeed c true false 0
       Completes (.stillTimeout c) s (d.judgeWarn.releaseOverspeed d.allStill) s.mem))

/-- R203, R204, R309: an SSI frame starts with its clock burst, which a keeper leaves to the striker; a frame in progress
when the head lines changed hands has no effect; a frame whose start bit is high or stop bit low is discarded with
LT_CHSTAT.FrameErr; the first good word loads the counter, a later one moves it by the difference as a signed number of
Bits bits; between frames the counter goes on at the speed of the last two, for at most one Period, and then stands.
Model choices that this rests on: assumption logs 57, 58. -/
def Obligations.SsiFramesMoveTheCounter : Prop :=
  ∀ (s : State) (c : Fin 4) (ns : Nat), s.runs → s.dev.domOn 13 = true → s.dev.mode c = 3 →
    let bits := s.dev.rd (Fld.LT_SSI.Bits c.val)
    let y := (s.dev.chan c).ssi
    let d := s.dev.setSsi c (fun q => { q with startNs := ns, dropped := false })
    (s.dev.clocksSsi = true → Completes (.ssiFrameStart c ns) s (d.emit (.ssiClock c.val bits)) s.mem) ∧
    (s.dev.clocksSsi = false → Completes (.ssiFrameStart c ns) s d s.mem) ∧
    (y.dropped = true → ∀ raw high low, Completes (.ssiFrame c raw high low ns) s s.dev s.mem) ∧
    (y.dropped = false → ∀ raw high low, (high = false ∨ low = false) → Completes (.ssiFrame c raw high low ns) s
      ((s.dev.sticky (Fld.LT_CHSTAT.FrameErr c.val)).faultMark c ns) s.mem) ∧
    (y.dropped = false → ∀ raw,
      let w := if s.dev.rd (Fld.LT_SSI.Gray c.val) = 1 then grayBinary (raw % 2 ^ bits) else raw % 2 ^ bits
      let diff := signedOf bits (patternOf bits ((w : Int) - y.word))
      (y.loaded = false → Completes (.ssiFrame c raw true true ns) s (s.dev.ssiLoad c w) s.mem) ∧
      (y.loaded = true → Completes (.ssiFrame c raw true true ns) s ((s.dev.setSsi c (fun q => { q with
        word := w, pos := wrap48 (y.pos + diff), step := some (diff, y.startNs - y.latchNs), latchNs := y.startNs
        advancing := true })).moveChannel c (wrap48 (y.pos + diff)) ns) s.mem)) ∧
    (∀ diff t, y.step = some (diff, t) → y.advancing = true → t ≠ 0 →
      ns - y.latchNs ≤ s.dev.rd (Fld.LT_SSIPOLL.Period c.val) * 10 → Completes (.ssiCountAdvance c ns) s
        (s.dev.moveChannel c (wrap48 (y.pos + Int.tdiv (diff * ((ns - y.latchNs : Nat) : Int)) t)) ns) s.mem) ∧
    (y.step = none → Completes (.ssiCountAdvance c ns) s s.dev s.mem) ∧
    Completes (.ssiHoldExpiry c) s (s.dev.setSsi c (fun q => { q with advancing := false })) s.mem

/-- R205, R207, R208, R213, R214, R228: an active edge of Z latches the counter; a probe edge of the configured kind latches
its channel's counter and is counted, one of another kind does nothing; a read of LT_POSLO captures the high bits;
SetPos loads the counter, its high-water mark and reversal state from LT_POSSET where no plane of the channel prints;
ClearFault clears the fault and its history; PageStart is a page-start event at the counter.
Model choices that this rests on: assumption log 57. -/
def Obligations.PositionsLatchedAndLoaded : Prop :=
  (∀ (s : State) (c : Fin 4) (rising : Bool), s.runs → s.dev.counting = true → (s.dev.mode c = 1 ∨ s.dev.mode c = 2) →
    let x := s.dev.chan c
    let d := s.dev.setChan c { x with idx := x.pos, idxSeen := true, idxReversed := false, idxDir := x.reverse }
    let zpol := decide (s.dev.rd (Fld.LT_CHCFG.ZPol c.val) = 1)
    (rising = zpol → Completes (.indexLatch c rising) s s.dev s.mem) ∧
    (rising = !zpol → x.idxSeen = false → Completes (.indexLatch c rising) s d s.mem) ∧
    (rising = !zpol → x.idxSeen = true → x.idxReversed = false → x.idxDir = x.reverse →
      s.dev.rd (Fld.LT_CPR.Cpr c.val) = 0 → Completes (.indexLatch c rising) s
        (d.wr (Fld.LT_IDXDIST.Distance c.val) (min 0xFFFFFFFF (wrap48 (x.pos - x.idx)).natAbs)) s.mem)) ∧
  (∀ (s : State) (k : Fin 4) (rising : Bool) (ns : Nat), s.runs → s.dev.domOn 13 = true →
    let d := { s.dev with lt := { s.dev.lt with ns := max ns s.dev.lt.ns } }
    (probeTakes (s.dev.rd (Fld.LT_PRBCFG.Edge k.val)) rising = false → Completes (.probeLatch k rising ns) s d s.mem) ∧
    (probeTakes (s.dev.rd (Fld.LT_PRBCFG.Edge k.val)) rising = true → s.dev.rd (Fld.LT_PRBCFG.PageStart k.val) = 0 →
      Completes (.probeLatch k rising ns) s ((d.setProbe k { d.lt.probes[k] with
        latch := (s.dev.chan (Fin.ofNat 4 (s.dev.rd (Fld.LT_PRBCFG.Channel k.val)))).pos }).bump
          (Fld.LT_PRBCNT.Count k.val)) s.mem)) ∧
  (∀ (s : State) (c : Fin 4), s.runs → s.dev.serviceReaches (Adr.LT_POSLO c.val) = true → Completes (.ltPosloRead c) s
    (s.dev.wr (Fld.LT_POSHI.PosHi c.val) (patternOf 48 (s.dev.chan c).pos / 2 ^ 32)) s.mem) ∧
  (∀ (s : State) (path : Sys2Proof.Path) (c : Fin 4), Reaches s path (Adr.LT_CHCTRL c.val) 2#32 →
    let d := s.dev.met path (Adr.LT_CHCTRL c.val) 2#32
    (d.channelBusy c.val = true → Completes (.setPos path c) s (d.sticky Fld.LT_ERR.CfgBusy) s.mem) ∧
    (d.channelBusy c.val = false → ∃ e, Completes (.setPos path c) s e s.mem ∧
      let p := signedOf 48 (d.rd (Fld.LT_POSSETLO.SetLo c.val) + 2 ^ 32 * d.rd (Fld.LT_POSSETHI.SetHi c.val))
      (e.chan c).pos = p ∧ (e.chan c).hwm = p ∧ (e.chan c).reverse = false ∧ ∀ k, k ≠ c → e.chan k = d.chan k)) ∧
  (∀ (s : State) (path : Sys2Proof.Path) (c : Fin 4), Reaches s path (Adr.LT_CHCTRL c.val) 1#32 →
    let d := s.dev.met path (Adr.LT_CHCTRL c.val) 1#32
    Completes (.clearFault path c) s
      (((d.wr (Fld.LT_CHSTAT.Fault c.val) 0).setChan c { d.chan c with doubles := [] }).rearm) s.mem) ∧
  (∀ (s : State) (path : Sys2Proof.Path) (c : Fin 4), Reaches s path (Adr.LT_CHCTRL c.val) 4#32 →
    let d := s.dev.met path (Adr.LT_CHCTRL c.val) 4#32
    let x := dmaPrintEvents d (d.pageStartEvent c (d.chan c).pos, s.mem)
    path ≠ .partner → s.dev.isKeeper = false → Completes (.pageStart path c) s x.1 x.2)

/-- R216, R217, R218, R222, R246: on a single device a plane fires its oldest due event no sooner than MinPeriod after the
last, and places one strobe on each of its ports, where none of an earlier event lies beyond it; a port strobes at its
first placed strobe where its shift is complete, and stops the line where it is not; and its LAT falls.
Model choices that this rests on: assumption log 77. -/
def Obligations.LineEventsFireAndStrobe : Prop :=
  (∀ (s : State) (n : Fin 8) (e : LineEv) (rest : List LineEv), s.runs → s.dev.pair.mode = false →
    (s.dev.plane n.val).due = e :: rest → (s.dev.plane n.val).state = .running →
    let x := s.dev.plane n.val
    let f := match x.lastFire with
      | some t => max e.ns (t + s.dev.period n.val)
      | none => e.ns
    (∀ p ∈ s.dev.portsOf n.val, ∀ t ∈ (s.dev.port p).strobes, t.at256 ≤ f * 256) →
    let d := s.dev.setPlane n.val { x with
      due := rest, lastFire := some f, open_ := x.open_ ++ [⟨e.parts, e.count, []⟩] }
    let t := (s.dev.portsOf n.val).foldl
      (fun d p => d.placeStrobe f e.parts (s.dev.strobeInterval n.val e f) p) d
    let y := dmaPrintEvents s.dev (t.lastLines n.val e.parts, s.mem)
    Completes (.lineEvent n) s y.1 y.2) ∧
  (∀ (s : State) (n : Fin 8), s.runs → (s.dev.plane n.val).due = [] → Completes (.lineEvent n) s s.dev s.mem) ∧
  (∀ (s : State) (p : Fin 64) (t : PlacedStrobe) (ts : List PlacedStrobe) (n : Nat), s.runs →
    (s.dev.port p.val).strobes = t :: ts → s.dev.planeOf p.val = some n → s.dev.roleDrives p.val = true →
    (s.dev.latePort t.at256 = none →
      Completes (.strobe p) s ((s.dev.latPulse p.val).markStrobed n p.val t.parts).rearm s.mem) ∧
    (∀ q w, s.dev.latePort t.at256 = some (q, w) →
      Completes (.strobe p) s (s.dev.dataLate ((s.dev.planeOf q).getD n) q (evName w.parts)) s.mem)) ∧
  (∀ (s : State) (p : Fin 64), s.runs → (s.dev.latFall p.val).portPasses p.val = false →
    Completes (.latFall p) s (s.dev.setPort p.val { s.dev.port p.val with latHigh := false }) s.mem)

/-! ### Head ports and shadow sets -/

/-- R243, R244, R251: a port that may shift begins its shift, and one that shifts, or whose LAT is high, begins none; the
last CLK edge completes the shift, and shift N is to be compared with the line of shift N − 1 exactly where that was latched
with the check on and the port driven throughout; a truncated line's shift leaves the port idle. -/
def Obligations.HeadPortsShift : Prop :=
  ∀ (s : State) (p : Fin 64), s.runs →
    let x := s.dev.port p.val
    (s.dev.domOn (8 + p.val / 16) = true → x.shift = .none → x.latHigh = false → s.dev.mayShift p.val = true →
      Completes (.shiftStart p) s (s.dev.setPort p.val { x with
        shift := .busy, whole := decide (s.dev.rd (Fld.HP_ECHO.Enable p.val) = 1) }) s.mem) ∧
    (s.dev.domOn (8 + p.val / 16) = true → (x.shift ≠ .none ∨ x.latHigh = true ∨ s.dev.mayShift p.val = false) →
      Completes (.shiftStart p) s s.dev s.mem) ∧
    (∀ e, x.shift = .busy → x.prev = some e → x.whole = true →
      Completes (.shiftComplete p) s (s.dev.setPort p.val { x with shift := .done, compare := some (x.n, e) }) s.mem) ∧
    (x.shift = .busy → (x.prev = none ∨ x.whole = false) →
      Completes (.shiftComplete p) s (s.dev.setPort p.val { x with shift := .done, compare := none }) s.mem) ∧
    (x.shift = .orphan → Completes (.shiftComplete p) s
      (s.dev.setPort p.val { x with shift := .none, prev := none, whole := false, compare := none }) s.mem)

/-- R250 to R254: a shift that is not compared changes nothing; a compared shift whose bits agree at the port's latency
changes nothing more; one that differs, on a single device, is reported at its first differing bit; while a search runs, a shift whose lane
holds 64 ones and 64 zeros gives the lowest latency at which every bit matches, two in a row that agree are written to
Latency, and the search fails where they differ, where none matches, after 1 s, or at once where the check is off.
Model choices that this rests on: assumption log 63. -/
def Obligations.EchoChecksAndSearches : Prop :=
  (∀ (s : State) (p : Fin 64) (bits : List Bool), s.runs →
    let x := s.dev.port p.val
    (x.compare = none → Completes (.echoCompareResult p bits) s s.dev s.mem) ∧
    (∀ k e, x.compare = some (k, e) →
      let d := s.dev.setPort p.val { x with compare := none }
      let sent := s.dev.laneBits e (k % s.dev.laneCount e.plane)
      (x.find.active = false → firstDiff sent bits.toArray (s.dev.rd (Fld.HP_ECHO.Latency p.val)) = none →
        Completes (.echoCompareResult p bits) s d s.mem) ∧
      (x.find.active = false → s.dev.inPair = false → ∀ i, firstDiff sent bits.toArray (s.dev.rd (Fld.HP_ECHO.Latency p.val)) = some i →
        Completes (.echoCompareResult p bits) s (d.echoMismatch p.val k (k % s.dev.laneCount e.plane) i e) s.mem) ∧
      (x.find.active = true → lanQualifies sent = false → Completes (.echoCompareResult p bits) s d s.mem) ∧
      (x.find.active = true → lanQualifies sent = true →
        (matchLatency sent bits.toArray = none →
          Completes (.echoCompareResult p bits) s (d.endFind p.val none) s.mem) ∧
        (∀ l, matchLatency sent bits.toArray = some l →
          (x.find.last = some l → Completes (.echoCompareResult p bits) s (d.endFind p.val (some l)) s.mem) ∧
          (∀ m, x.find.last = some m → l ≠ m →
            Completes (.echoCompareResult p bits) s (d.endFind p.val none) s.mem) ∧
          (x.find.last = none → Completes (.echoCompareResult p bits) s
            (d.setPort p.val { x with compare := none, find := ⟨true, some l⟩ }) s.mem))))) ∧
  (∀ (s : State) (p : Fin 64), s.runs →
    ((s.dev.port p.val).find.active = true → Completes (.findTimeout p) s (s.dev.endFind p.val none) s.mem) ∧
    ((s.dev.port p.val).find.active = false → Completes (.findTimeout p) s s.dev s.mem)) ∧
  (∀ (s : State) (p : Fin 64) (path : Sys2Proof.Path), holdsRegister s.dev.part (Adr.HP_ECHO p.val) = true →
    let v := s.dev.reg (Adr.HP_ECHO p.val) ||| 0x400#32
    Reaches s path (Adr.HP_ECHO p.val) v → BitVec.ofNat 32 (v.toNat &&& definedBits (Adr.HP_ECHO p.val)) = v →
    let d := s.dev.met path (Adr.HP_ECHO p.val) v
    (d.rd (Fld.HP_ECHO.Enable p.val) = 1 →
      Completes (.echoFind path p) s (d.setPort p.val { d.port p.val with find := ⟨true, none⟩ }) s.mem) ∧
    (d.rd (Fld.HP_ECHO.Enable p.val) = 0 →
      Completes (.echoFind path p) s ((d.breakEcho p.val).endFind p.val none) s.mem))

/-- R256, R257: on a single device deskew of a port, or of all, is refused, with HP_DSKSTAT.Refused and nothing else changed, while a plane has a page in
flight, and otherwise runs for those ports; each port of the run takes its result, or, without CALREF, every port of the run
fails at once; the partner's request is answered, and granted unless a plane here has a page in flight.
Model choices that this rests on: assumption logs 44, 64. -/
def Obligations.DeskewRunsAndIsGranted : Prop :=
  (∀ (s : State) (path : Sys2Proof.Path) (p : Fin 64) (all granted : Bool), s.dev.inPair = false →
    p.val < s.dev.part.portCount →
    let v := BitVec.ofNat 32 (p.val + if all then 64 else 0)
    Reaches s path Adr.HP_DSKCTRL v →
    let e := s.dev.met path Adr.HP_DSKCTRL v
    let d := e.keepReg Adr.HP_DSKCTRL (setBits (setBits (e.reg Adr.HP_DSKCTRL) 6 6 (if all then 1 else 0)) 5 0 p.val)
    (d.hp.deskew.running = false → d.pageInFlight = true →
      Completes (.deskewStart path all p granted) s (d.wr Fld.HP_DSKSTAT.Refused 1) s.mem) ∧
    (d.hp.deskew.running = false → d.pageInFlight = false → ∃ f : Dev,
      Completes (.deskewStart path all p granted) s f s.mem ∧
      f.hp.deskew.running = true ∧ f.hp.deskew.ports = (if all then List.range s.dev.part.portCount else [p.val]) ∧ f.rd Fld.HP_DSKSTAT.Busy = 1 ∧
      f.rd Fld.HP_DSKSTAT.Refused = 0 ∧ f.rd Fld.HP_DSKSTAT.CalRefMissing = 0)) ∧
  (∀ (s : State) (p : Fin 64) (pass : Bool), s.runs →
    (s.dev.hp.deskew.running = false → ∀ calRef, Completes (.deskewPortDone p calRef pass) s s.dev s.mem) ∧
    (s.dev.hp.deskew.running = true → s.dev.hp.deskew.ports = [p.val] →
      let ended (d : Dev) : Dev :=
        { d with hp := { d.hp with deskew := { d.hp.deskew with ports := [], running := false } } }
      Completes (.deskewPortDone p true pass) s
        ((ended (s.dev.deskewResult p.val pass)).wr Fld.HP_DSKSTAT.Busy 0) s.mem ∧
      Completes (.deskewPortDone p false pass) s ((ended ((s.dev.deskewResult p.val false).wr
        Fld.HP_DSKSTAT.CalRefMissing 1)).wr Fld.HP_DSKSTAT.Busy 0) s.mem)) ∧
  (∀ (s : State) (p : Fin 64), s.runs → s.dev.pair.mode = true →
    (s.dev.pageInFlight = true →
      Completes (.deskewGrantRequest p) s (s.dev.emit (.pair (.deskewGrant p.val false))) s.mem) ∧
    (s.dev.pageInFlight = false → Completes (.deskewGrantRequest p) s
      (((s.dev.setPort p.val { s.dev.port p.val with granted := true }).breakEcho p.val).emit
        (.pair (.deskewGrant p.val true))) s.mem))

/-- R42, R166, R196, R259, R451, R452: each bit of the commit word takes a snapshot of its set, which waits for the first
page start that finds every plane idle, and a later commit of the set replaces it; bit 4 commits the print sets, each plane
by itself. CFG_CLAMPCTRL.Clear empties the clamp report (R450). -/
def Obligations.CommitTakesSnapshot : Prop :=
  ∀ (s : State) (path : Sys2Proof.Path),
    let d (v : Word) : Dev := s.dev.met path Adr.CFG_COMMIT v
    (Reaches s path Adr.CFG_COMMIT 1#32 → Completes (.commitGeometry path) s { d 1 with boot :=
      { (d 1).boot with pendGeo := some ((d 1).win.where_ (fun a => decide (setOf a = .geometry))) } } s.mem) ∧
    (Reaches s path Adr.CFG_COMMIT 2#32 → Completes (.commitScale path) s { d 2 with boot :=
      { (d 2).boot with pendScale := some ((d 2).win.where_ (fun a => decide (setOf a = .scale))) } } s.mem) ∧
    (Reaches s path Adr.CFG_COMMIT 4#32 → Completes (.commitCodeWidth path) s { d 4 with boot :=
      { (d 4).boot with pendCode := some ((d 4).win.where_ (fun a => decide (setOf a = .codeWidth))) } } s.mem) ∧
    (Reaches s path Adr.CFG_COMMIT 8#32 → Completes (.commitPort path) s { d 8 with boot :=
      { (d 8).boot with pendPort := some ((d 8).win.where_ (fun a => decide (setOf a = .port))) } } s.mem) ∧
    (Reaches s path Adr.CFG_COMMIT 16#32 → Completes (.commitPrint path) s
      ((List.range 8).foldl Dev.commitPlane (d 16).freePortsEffect) s.mem) ∧
    (Reaches s path Adr.CFG_CLAMPCTRL 1#32 → ∃ e, Completes (.clampClear path) s e s.mem ∧ e.boot.clamps = [] ∧
      e.rd Fld.CFG_CLAMPCNT.Count = 0 ∧ e.rd Fld.CFG_CLAMPCNT.Overflow = 0 ∧
      OnlyFields [Fld.CFG_CLAMPCNT.Count, Fld.CFG_CLAMPCNT.Overflow] (s.dev.met path Adr.CFG_CLAMPCTRL 1#32) e)

/-! ### Drop detection -/

/-- R265, R267, R268, R269, R271, R272, R274, R276, R277: a Start that R274 refuses sets DD_ERR.Refused and changes nothing
else; one that may run has the gates of the mask begin, or waits where the stoker sheds sweeps; a Stop without a sweep does
nothing; an automatic sweep is noted and begins where R277 lets it; a settled carriage starts its segment's first nozzle; a
tick fires a gate whose test line is ready and no other; a first pulse in a shot's window is its hit, one outside every window
is counted as stray; the close of a nozzle's last window gives the verdict of Table 51 and goes on to the next nozzle.
Model choices that this rests on: assumption logs 65, 66. -/
def Obligations.SweepsRunAndJudge : Prop :=
  (∀ (s : State) (path : Sys2Proof.Path),
    let v := s.dev.reg Adr.DD_CTRL ||| 1#32
    Reaches s path Adr.DD_CTRL v → BitVec.ofNat 32 (v.toNat &&& definedBits Adr.DD_CTRL) = v → v.toNat.testBit 1 = false →
    let d := s.dev.met path Adr.DD_CTRL v
    let begun : Dev := { d with dd := { d.dd with running := true, stopping := false, rejected := false } }
    (d.sweepRefused = true → Completes (.ddStart path) s (d.sticky Fld.DD_ERR.Refused) s.mem) ∧
    (d.sweepRefused = false → 3 ≤ d.boot.level →
      Completes (.ddStart path) s { begun with dd := { begun.dd with held := true } } s.mem) ∧
    (d.sweepRefused = false → d.boot.level < 3 →
      Completes (.ddStart path) s (begun.beginGates (d.rd Fld.DD_CTRL.GateMask)) s.mem)) ∧
  (∀ (s : State) (path : Sys2Proof.Path),
    let v := s.dev.reg Adr.DD_CTRL ||| 2#32
    Reaches s path Adr.DD_CTRL v → BitVec.ofNat 32 (v.toNat &&& definedBits Adr.DD_CTRL) = v → v.toNat.testBit 0 = false →
    let d := s.dev.met path Adr.DD_CTRL v
    (d.dd.running = false → Completes (.ddStop path) s d s.mem) ∧
    (d.dd.running = true → (∀ g, (d.gate g).active = false) → ∃ e, Completes (.ddStop path) s e s.mem ∧
      e.dd.running = false ∧ ∀ g, (e.gate g).phase = .idle)) ∧
  (∀ (s : State), s.runs →
    (s.dev.rd Fld.DD_SCHED.Interval = 0 → Completes .sweepSchedule s s.dev s.mem) ∧
    (s.dev.rd Fld.DD_SCHED.Interval ≠ 0 → s.dev.boot.level < 3 → s.dev.job.seq = .idle → s.dev.sweepRefused = false →
      let d := s.dev.notice Nt.SweepStart []
      let e : Dev := { d with dd := { d.dd with running := true, stopping := false, rejected := false } }
      Completes .sweepSchedule s (e.beginGates (maskOf 4 (fun g => !e.gateEmpty (Fin.ofNat 4 g)))) s.mem)) ∧
  (∀ (s : State) (g : Fin 4) (ns : Nat), s.runs →
    let x := s.dev.gate g
    (x.phase ≠ .settling → Completes (.carriageSettled g) s s.dev s.mem) ∧
    (∀ z more, x.phase = .settling → x.todo = z :: more → Completes (.carriageSettled g) s
      (((s.dev.setGate g { x with phase := .firing }).wr (Fld.DD_PROG.Nozzle g.val) z).writeTest x.plane z) s.mem) ∧
    ((∀ h, (s.dev.gate h).phase ≠ .firing) → Completes (.pacerTick ns) s s.dev s.mem) ∧
    ((∀ h, h ≠ g → (s.dev.gate h).phase ≠ .firing) → ∀ z more, x.phase = .firing → x.todo = z :: more →
      (s.dev.testReady x.plane z = false → Completes (.pacerTick ns) s s.dev s.mem) ∧
      (s.dev.testReady x.plane z = true → x.shots ≠ [] → x.shots.length + 1 < s.dev.rd Fld.DD_PACER.Shots →
        Completes (.pacerTick ns) s ((((s.dev.portsOf x.plane).foldl Dev.latPulse s.dev).setGate g
          { x with shots := x.shots ++ [⟨ns + 30, none⟩] }).writeTest x.plane z) s.mem)) ∧
    (∀ l, hitShot (s.dev.rd (Fld.DD_WIN.WinStart g.val)) (s.dev.rd (Fld.DD_WIN.WinEnd g.val)) ns x.shots = some l →
      Completes (.gatePulse g ns) s (s.dev.setGate g { x with shots := l }) s.mem) ∧
    (hitShot (s.dev.rd (Fld.DD_WIN.WinStart g.val)) (s.dev.rd (Fld.DD_WIN.WinEnd g.val)) ns x.shots = none →
      (x.phase ≠ .firing → Completes (.gatePulse g ns) s (s.dev.bump (Fld.DD_STRAY.Count g.val)) s.mem) ∧
      (x.phase = .firing → x.strays < 16 → Completes (.gatePulse g ns) s
        ((s.dev.bump (Fld.DD_STRAY.Count g.val)).setGate g { x with strays := x.strays + 1 }) s.mem)) ∧
    (x.phase ≠ .firing → Completes (.windowClose g) s s.dev s.mem) ∧
    (∀ z y more, x.phase = .firing → x.todo = z :: y :: more → s.dev.rd Fld.DD_PACER.Shots ≤ x.shots.length →
      s.dev.dd.stopping = false →
      let hits := x.shots.filterMap (fun t => t.hit)
      let healthyMin := min (s.dev.rd Fld.DD_VERDICT.HealthyMin) (s.dev.rd Fld.DD_PACER.Shots)
      let late := s.dev.rd Fld.DD_VERDICT.LateLimit
      let verdict : BitVec 2 :=
        if healthyMin ≤ hits.length ∧ (late = 0 ∨ hits.sum ≤ late * 1000 * hits.length) then 0
        else if min (s.dev.rd Fld.DD_VERDICT.WeakMin) healthyMin ≤ hits.length then 1
        else 2
      Completes (.windowClose g) s (((s.dev.setGate g { x with shots := [], todo := y :: more }).writeVerdict z verdict).wr
        (Fld.DD_PROG.Nozzle g.val) y) s.mem))

/-! ### Motion axes -/

/-- Table 55 (R288), R290, R292, R294, R297, R298, for a single device: the commands of an axis by its state. A refused
command sets MOT_ERR.Refused, with LiftBusy, LimitRefused or NotHomed where those are the reason, and has no other effect.
Model choices that this rests on: assumption logs 70, 71. -/
def Obligations.AxisCommandsByState : Prop :=
  ∀ (s : State) (path : Sys2Proof.Path) (a : Fin 8), s.dev.single →
    let d (v : Word) : Dev := s.dev.met path (Adr.MOT_CMD a.val) v
    let x := s.dev.axis a
    let refused (v : Word) : Dev := (d v).sticky Fld.MOT_ERR.Refused
    (Reaches s path (Adr.MOT_CMD a.val) 1#32 →
      let t := signedOf 32 ((d 1).rd (Fld.MOT_TGT.Target a.val))
      let dist := (d 1).toTarget a t
      ((x.state = .disabled ∨ x.state = .stopping ∨ x.state = .homing) →
        Completes (.move path a) s (refused 1) s.mem) ∧
      ((x.state = .rest ∨ x.state = .standstill ∨ x.state = .moving) →
        ((d 1).interlocked a = true →
          Completes (.move path a) s ((refused 1).sticky Fld.MOT_ERR.LiftBusy) s.mem) ∧
        ((d 1).interlocked a = false →
          ((d 1).bothLimits a = true ∨ (dist ≠ 0 ∧ (d 1).limitRefuses a (decide (0 < dist)) = true) →
            Completes (.move path a) s ((refused 1).sticky Fld.MOT_ERR.LimitRefused) s.mem) ∧
          ((d 1).bothLimits a = false → (dist = 0 ∨ (d 1).limitRefuses a (decide (0 < dist)) = false) →
            (x.state = .moving → Completes (.move path a) s ((d 1).retarget a t) s.mem) ∧
            (x.state ≠ .moving → dist = 0 → Completes (.move path a) s ((d 1).toRest a) s.mem) ∧
            (x.state ≠ .moving → dist ≠ 0 → Completes (.move path a) s ((d 1).beginPlan a .moving
              ⟨((d 1).limitsOf a).shape, (d 1).axisPos a, decide (0 < dist), ((d 1).limitsOf a).parts 0 dist.natAbs,
                some dist.natAbs, 0, none⟩) s.mem))))) ∧
    (Reaches s path (Adr.MOT_CMD a.val) 2#32 →
      (x.state = .moving ∨ x.state = .homing → Completes (.motStop path a) s ((d 2).rampToRest a) s.mem) ∧
      (x.state ≠ .moving → x.state ≠ .homing → Completes (.motStop path a) s (d 2) s.mem)) ∧
    (Reaches s path (Adr.MOT_CMD a.val) 3#32 →
      (x.state ≠ .rest → x.state ≠ .standstill → Completes (.home path a) s (refused 3) s.mem) ∧
      ((x.state = .rest ∨ x.state = .standstill) → (d 3).interlocked a = false → (d 3).bothLimits a = false →
        let up := decide ((d 3).rd (Fld.MOT_HOME.HomeDir a.val) = 1)
        let e := ((d 3).setAxis a { x with homed := false }).showAxis a
        ((d 3).rd (Fld.MOT_HOME.HomeMode a.val) = 1 → (d 3).limitRefuses a up = true →
          Completes (.home path a) s (e.homeFound a) s.mem) ∧
        ((d 3).rd (Fld.MOT_HOME.HomeMode a.val) = 0 → (d 3).rd (Fld.MOT_STALL.StallAngle a.val) = 0 →
          Completes (.home path a) s (e.homeFail a) s.mem))) ∧
    (Reaches s path (Adr.MOT_CMD a.val) 4#32 →
      (x.state = .disabled → Completes (.disable path a) s (d 4) s.mem) ∧
      (x.state ≠ .disabled → Completes (.disable path a) s ((((d 4).setAxisVel a 0).setAxis a { x.energised with
        state := .disabled, homed := x.homed && decide (x.state = .rest ∨ x.state = .standstill), plan := none
        waiting := false, backing := false, deltas := [], overshoot := 0 }).showAxis a) s.mem)) ∧
    (Reaches s path (Adr.MOT_CMD a.val) 5#32 →
      (x.state = .disabled →
        Completes (.enable path a) s (((d 5).setAxis a { x.energised with state := .rest }).showAxis a) s.mem) ∧
      (x.state ≠ .disabled → Completes (.enable path a) s (d 5) s.mem)) ∧
    (Reaches s path (Adr.MOT_CMD a.val) 6#32 →
      (x.state ≠ .disabled → x.homed = false →
        Completes (.goPrint path a) s ((refused 6).sticky Fld.MOT_ERR.NotHomed) s.mem) ∧
      (x.homed = true → Completes (.goPrint path a) s
        ((d 6).moveTo a (signedOf 32 ((d 6).rd (Fld.MOT_LIFTP.PrintPos a.val)))) s.mem)) ∧
    (Reaches s path (Adr.MOT_CMD a.val) 7#32 →
      (x.state ≠ .disabled → x.homed = false →
        Completes (.goService path a) s ((refused 7).sticky Fld.MOT_ERR.NotHomed) s.mem) ∧
      (x.homed = true → Completes (.goService path a) s
        ((d 7).moveTo a (signedOf 32 ((d 7).rd (Fld.MOT_LIFTS.ServicePos a.val)))) s.mem))

/-- R283, R285, R288, R290, R294, R299, R301, R302: the ramp begins after the energising delay; a period of an axis at rest
regulates its currents; a move that has ended leaves the axis on its target, at rest; a limit towards which the one moving
axis runs stops it, and a limit with no axis moving stops none; an axis at rest enters standstill; the ADCs of a mask are
calibrated unless an axis of it is energised, and a run's end is recorded; the owner performs a command passed on, and the
other device shows what the owner reports.
Model choices that this rests on: assumption log 72. -/
def Obligations.AxesMoveAndStop : Prop :=
  (∀ (s : State) (a : Fin 8), s.runs → s.dev.single →
    let x := s.dev.axis a
    (x.waiting = true → Completes (.energiseDelay a) s (s.dev.setAxis a { x with waiting := false }) s.mem) ∧
    (x.waiting = false → Completes (.energiseDelay a) s s.dev s.mem) ∧
    (x.state = .rest → Completes (.standstill a) s ((s.dev.setAxis a { x with state := .standstill }).showAxis a) s.mem) ∧
    (x.state ≠ .rest → Completes (.standstill a) s s.dev s.mem) ∧
    (∀ ia ib va vb : Int,
      (s.dev.domOn 12 = false → Completes (.pwmPeriod a ia ib va vb) s s.dev s.mem) ∧
      (s.dev.domOn 12 = true → x.state = .rest → x.plan = none →
        let ph := s.dev.phases a (s.dev.axisPos a)
        let ra := s.dev.regulate a (s.dev.iref a ph.1) (ia - 2048) x.accA
        let rb := s.dev.regulate a (s.dev.iref a ph.2) (ib - 2048) x.accB
        Completes (.pwmPeriod a ia ib va vb) s (s.dev.setAxis a { x with
          ia := ia - 2048, ib := ib - 2048, accA := ra.1, dutyA := ra.2, accB := rb.1, dutyB := rb.2 }) s.mem)) ∧
    (∀ p n, x.plan = some p → p.ended = true → p.reach = some n → p.next = none → x.waiting = false → x.backing = false →
      (∀ g, (s.dev.gate g).phase = .idle) → Completes (.moveComplete a) s
        ((s.dev.setAxisPos a (if p.up then p.start + n else p.start - n)).toRest a) s.mem)) ∧
  (∀ (s : State) (k : Fin 16) (level : Bool), s.runs → s.dev.single →
    let l := s.dev.mot.limits.toNat
    let cleared := if l.testBit k.val then l - 2 ^ k.val else l
    let d : Dev := { s.dev with mot := { s.dev.mot with
      limits := BitVec.ofNat 16 (if level then cleared + 2 ^ k.val else cleared) } }
    ((∀ a, (s.dev.axis a).plan = none) → Completes (.limitInput k level) s d s.mem) ∧
    (∀ a p, (∀ b, b ≠ a → (s.dev.axis b).plan = none) → (s.dev.axis a).plan = some p → (s.dev.axis a).state = .moving →
      (∀ g, (s.dev.gate g).phase = .idle) → s.dev.limitInputOf a p.up = k.val → s.dev.limitActive k.val = false →
      d.limitActive k.val = true → Completes (.limitInput k level) s
        ((((d.haltAxis a).sticky (Fld.MOT_STAT.LimitHit a.val)).sticky Fld.MOT_ERR.LimitHit).notice Nt.LimitHit
          [(1, a.val), (1, k.val)]) s.mem)) ∧
  (∀ (s : State) (path : Sys2Proof.Path) (mask : BitVec 8),
    let v := BitVec.ofNat 32 (256 + mask.toNat)
    Reaches s path Adr.CAL_ADCCTRL v →
    let e := s.dev.met path Adr.CAL_ADCCTRL v
    let d := e.keepReg Adr.CAL_ADCCTRL (setBits (e.reg Adr.CAL_ADCCTRL) 7 0 mask.toNat)
    (d.mot.calRun ≠ none → Completes (.adcCalStart path mask) s d s.mem) ∧
    (d.mot.calRun = none → (∃ a : Fin 8, mask.toNat.testBit a.val = true ∧ d.coilsOff a = false) →
      Completes (.adcCalStart path mask) s (d.wr Fld.CAL_ADCSTAT.Refused 1) s.mem) ∧
    (d.mot.calRun = none → (∀ a : Fin 8, mask.toNat.testBit a.val = true → d.coilsOff a = true) →
      ∃ f, Completes (.adcCalStart path mask) s f s.mem ∧ f.mot.calRun = some mask ∧
        f.rd Fld.CAL_ADCSTAT.Busy = 1 ∧ f.rd Fld.CAL_ADCSTAT.Refused = 0 ∧ f.rd Fld.CAL_ADCSTAT.VcalMissing = 0)) ∧
  (∀ (s : State) (vcal : Bool) (results : List AdcResult), s.runs →
    (s.dev.mot.calRun = none → Completes (.adcCalDone vcal results) s s.dev s.mem) ∧
    (∀ mask, s.dev.mot.calRun = some mask → ∃ e, Completes (.adcCalDone vcal results) s e s.mem ∧
      e.mot.calRun = none ∧ e.rd Fld.CAL_ADCSTAT.Busy = 0 ∧
      e.rd Fld.CAL_ADCDONE.Done = s.dev.rd Fld.CAL_ADCDONE.Done ||| mask.toNat ∧
      (vcal = false → e.rd Fld.CAL_ADCSTAT.VcalMissing = 1))) ∧
  (∀ (s : State) (a : Fin 8), s.runs → s.dev.pair.mode = true →
    (∀ op : BitVec 3, s.dev.ownsAxis a = true →
      Completes (.axisCommandForward a op) s (s.dev.axisOp a op.toNat) s.mem) ∧
    (∀ pos vel load stat : Word, s.dev.ownsAxis a = false → ∃ e, Completes (.axisStatusReport a pos vel load stat) s e s.mem ∧
      e.reg (Adr.MOT_POS a.val) = pos ∧ e.reg (Adr.MOT_VEL a.val) = vel ∧ e.reg (Adr.MOT_LOAD a.val) = load ∧
      e.reg (Adr.MOT_STAT a.val) = stat))

/-! ### Reset, start-up, power and the journal -/

/-- R17, R436, R437 (steps 1 to 3), R507, R513: reset loses everything but the journal with its wear registers and the job
store's bytes; the loss of CLK25 and a power-good input falling hold the device in it too; its release reads DEVSEL, takes
image A if it is whole, image B if only that is, and otherwise stops at NoImage, with the reasons in CFG_BOOTSTAT.
Model choices that this rests on: assumption logs 7, 116. -/
def Obligations.ResetLosesAndImagesLoad : Prop :=
  (∀ s : State, ∃ t : State, exec .resetAssert s = .next t ∧ exec .clk25Loss s = .next t ∧ t.dev.boot.inReset = true ∧
    (∀ a, a ≠ Adr.JNL_MAXWR → a ≠ Adr.JNL_SPARES → t.dev.reg a = resetWord s.dev.part a) ∧
    t.dev.reg Adr.JNL_MAXWR = s.dev.reg Adr.JNL_MAXWR ∧ t.dev.reg Adr.JNL_SPARES = s.dev.reg Adr.JNL_SPARES ∧
    t.dev.jnl = { s.dev.jnl with queue := [] } ∧ t.mem = s.mem ∧ t.pending = s.pending) ∧
  (∀ s : State, (s.dev.boot.inReset = true → exec .pgFall s = .next s) ∧
    (s.runs → ∃ t : State, exec .pgFall s = .next t ∧ t.dev.boot.inReset = true ∧ t.mem = s.mem ∧
      t.dev.jnl.area = s.dev.jnl.area)) ∧
  (∀ (s : State) (devsel : Bool) (a b : Bytes),
    (s.runs → exec (.resetRelease devsel a b) s = .next s) ∧
    (s.dev.boot.inReset = true → ∃ d : Dev, exec (.resetRelease devsel a b) s = .next { s with dev := d } ∧
      d.boot.inReset = false ∧ d.devNum = (if devsel then 1 else 0) ∧
      d.rd Fld.CFG_BOOTSTAT.NvmReleased = 1 ∧
      (imageFail s.dev.part s.dev.boot.fuseHash a = 0 → d.boot.phase = .readingA ∧
        d.boot.records = configRecords (parseImage a).records) ∧
      (imageFail s.dev.part s.dev.boot.fuseHash a ≠ 0 → imageFail s.dev.part s.dev.boot.fuseHash b = 0 →
        d.boot.phase = .readingB ∧ d.rd Fld.CFG_ERR.ImageB = 1 ∧ d.rd Fld.CFG_BOOTSTAT.Image = 1 ∧
        d.boot.records = configRecords (parseImage b).records) ∧
      (imageFail s.dev.part s.dev.boot.fuseHash a ≠ 0 → imageFail s.dev.part s.dev.boot.fuseHash b ≠ 0 →
        d.boot.phase = .noImage)))

/-- R437 (steps 4 to 9), R455, R456, R457: the stoker, once an image has been read, applies the configuration and overlays
the journal, and is not released again; the device is ready when memory, lanes and roles are settled, and not before; a
window that is the third in a row at 90 % load or more sheds one level more, one between the bounds sheds nothing; a
watchdog expiry restarts the stoker, and halts it where its memory has changed or this is the fifth restart in 10 minutes.
Model choices that this rests on: assumption log 122. -/
def Obligations.StokerStartsAndSheds : Prop :=
  (∀ s : State, s.runs →
    ((s.dev.boot.phase ≠ .readingA ∧ s.dev.boot.phase ≠ .readingB) → Completes .stokerRelease s s.dev s.mem) ∧
    (s.dev.boot.phase = .readingA ∨ s.dev.boot.phase = .readingB →
      let d0 : Dev := { s.dev.dropEarlyWrites with
        boot := { s.dev.dropEarlyWrites.boot with stokerUp := true, phase := .configuring } }
      let x := d0.boot.records.foldl applyRecord (d0, s.mem)
      let d := x.1.showAddresses.showMemory.checkSets.restoreCalibration.overlayStates.reportLostAreas
      let d : Dev := { d with ojp := { d.ojp with former := d.jnl.area.sessions } }
      let d := (d.wr Fld.JNL_STATUS.Loaded 1).clampNotice
      let d : Dev := { d with boot := { d.boot with phase := .memory } }
      Completes .stokerRelease s d.trainLanes.beginRoles x.2) ∧
    (s.dev.mayBeReady = false → Completes .deviceReady s s.dev s.mem) ∧
    (s.dev.mayBeReady = true → ∃ e, Completes .deviceReady s e s.mem ∧ e.boot.readied = true ∧ e.boot.phase = .ready ∧
      e.ojp.former = [])) ∧
  (∀ (s : State) (load : Nat), s.runs →
    (s.dev.stokerRuns = false → Completes (.stokerLoadWindow load) s s.dev s.mem) ∧
    (s.dev.stokerRuns = true → 60 < load → load < 90 →
      let d := s.dev.wr Fld.CFG_STOKER.Load load
      Completes (.stokerLoadWindow load) s { d with boot := { d.boot with highRun := 0, lowRun := 0 } } s.mem) ∧
    (s.dev.stokerRuns = true → 90 ≤ load → s.dev.boot.highRun = 2 → s.dev.boot.level < 3 →
      ∃ e, Completes (.stokerLoadWindow load) s e s.mem ∧ e.boot.level = s.dev.boot.level + 1 ∧ e.boot.highRun = 0 ∧
        e.boot.lowRun = 0)) ∧
  (∀ (s : State) (hashOk : Bool), s.runs → s.dev.stokerRuns = true → s.dev.domOn 1 = true →
    let b := s.dev.boot
    (hashOk = false ∨ s.dev.fifthRestart = true →
      let y := takeUpAll (({ s.dev with boot := { b with stokerHalted := true, phase := .stokerFailed } } : Dev).sticky
        Fld.CFG_ERR.StokerFailed, s.mem)
      Completes (.watchdogExpiry hashOk) s y.1 y.2) ∧
    (hashOk = true → s.dev.fifthRestart = false →
      let secs := b.restartSecs ++ [s.dev.now.sec]
      let d : Dev := { s.dev with boot := { b with restartSecs := secs.drop (secs.length - 4) } }
      let y := takeUpAll (((d.bump Fld.CFG_STKRST.Count).sticky Fld.CFG_ERR.StokerRestart).noticeTrouble
        Nt.StokerRestart [], s.mem)
      Completes (.watchdogExpiry hashOk) s y.1 y.2))

/-- R466, R467, R468, R469, R470, R472: a request for On wakes a domain that sleeps and leaves one that is ON; a request for
ember or cold has a domain that is ON begin its entry (STOKER and NET go no further than ember), is refused under Table 120,
and does nothing for CORE; an entry and an exit end in the state they lead to, and an exit from cold of a domain that loses
something sets PWR_ERR.DomainLost.
Model choices that this rests on: assumption log 86. -/
def Obligations.DomainsSleepAndWake : Prop :=
  (∀ (s : State) (path : Sys2Proof.Path) (k : Fin 14),
    let v (c : Nat) : Word := BitVec.ofNat 32 (c * 4 ^ k.val)
    let d (c : Nat) : Dev := s.dev.met path Adr.PWR_REQ (v c)
    (k = 0 →
      (Reaches s path Adr.PWR_REQ (v 1) → Completes (.pwrReqOn path k) s (d 1) s.mem) ∧
      (Reaches s path Adr.PWR_REQ (v 2) → Completes (.pwrReqEmber path k) s (d 2) s.mem) ∧
      (Reaches s path Adr.PWR_REQ (v 3) → Completes (.pwrReqCold path k) s (d 3) s.mem)) ∧
    (k ≠ 0 → k ≠ 5 → s.dev.wakeable k.val = true →
      (Reaches s path Adr.PWR_REQ (v 1) →
        (((d 1).domain k.val).state = .on → Completes (.pwrReqOn path k) s ((d 1).powerTaken k.val) s.mem) ∧
        (((d 1).domain k.val).state = .ember → Completes (.pwrReqOn path k) s
          ((((d 1).powerTaken k.val).setDomain k.val { ((d 1).domain k.val) with
            state := .fromEmber, woken := false }).showWake k.val 1) s.mem)) ∧
      (Reaches s path Adr.PWR_REQ (v 2) → ((d 2).domain k.val).state = .on →
        ((d 2).pwrRefused k.val = true → Completes (.pwrReqEmber path k) s ((d 2).refusePower k.val 1) s.mem) ∧
        ((d 2).pwrRefused k.val = false →
          Completes (.pwrReqEmber path k) s (((d 2).powerTaken k.val).beginEntry k.val .toEmber) s.mem)) ∧
      (Reaches s path Adr.PWR_REQ (v 3) → ((d 3).domain k.val).state = .on →
        ((d 3).pwrRefused k.val = true → Completes (.pwrReqCold path k) s ((d 3).refusePower k.val 1) s.mem) ∧
        ((d 3).pwrRefused k.val = false → Completes (.pwrReqCold path k) s
          (((d 3).powerTaken k.val).beginEntry k.val (if k = 1 ∨ k = 2 then .toEmber else .toCold)) s.mem)))) ∧
  (∀ (s : State) (k : Fin 14), s.runs →
    let x := s.dev.domain k.val
    (x.state ≠ .toEmber → x.state ≠ .toCold → Completes (.domainEntryDone k) s s.dev s.mem) ∧
    (k ≠ 4 → k ≠ 5 → x.state = .toEmber → x.woken = false → x.pend = 0 →
      Completes (.domainEntryDone k) s (s.dev.setDomain k.val { x with state := .ember, pend := 0 }) s.mem) ∧
    (k ≠ 5 → x.state = .fromEmber → x.pend = 0 →
      let y := takeUpAll (s.dev.setDomain k.val { x with state := .on }, s.mem)
      Completes (.domainExitDone k) s y.1 y.2) ∧
    (k ≠ 5 → losesInCold k.val = true → x.state = .fromCold → x.pend = 0 →
      let y := takeUpAll (((s.dev.setDomain k.val { x with state := .on }).sticky Fld.PWR_ERR.DomainLost).notice
        Nt.DomainLost [(1, k.val)], s.mem)
      Completes (.domainExitDone k) s y.1 y.2))

/-- R460, R462, R463: the stoker, awake, writes the oldest change into the journal, and the firing counts as they come round
or at Checkpoint; asleep it is woken first; each Clear empties its area while the sequencer is Idle and does nothing
otherwise; a read of JNL_RDDATA advances JNL_RDOFF by one word.
Model choices that this rests on: assumption log 90. -/
def Obligations.JournalWritesAndClears : Prop :=
  (∀ (s : State) (ok : Bool), s.runs →
    (s.dev.jnl.queue = [] → Completes (.journalWrite ok) s s.dev s.mem) ∧
    (s.dev.stokerRuns = false → Completes (.journalWrite ok) s s.dev s.mem) ∧
    (∀ c rest, s.dev.jnl.queue = c :: rest → s.dev.stokerRuns = true →
      (s.dev.domOn 1 = false → Completes (.journalWrite ok) s (s.dev.wake 1 7) s.mem) ∧
      (s.dev.domOn 1 = true → Completes (.journalWrite ok) s
        (({ s.dev with jnl := { s.dev.jnl with queue := rest } } : Dev).writeChange c ok) s.mem)) ∧
    (s.dev.stokerRuns = true → s.dev.domOn 1 = true → ∃ e, Completes .firingCountCheckpoint s e s.mem ∧
      e.jnl.area.counts = s.dev.countCodes ∧ e.jnl.area.states = s.dev.jnl.area.states ∧
      e.jnl.area.log = s.dev.jnl.area.log) ∧
    (s.dev.serviceReaches Adr.JNL_RDDATA = true → Completes .jnlRddataRead s
      (s.dev.wr Fld.JNL_RDOFF.Offset (s.dev.rd Fld.JNL_RDOFF.Offset + 1)) s.mem)) ∧
  (∀ (s : State) (path : Sys2Proof.Path),
    let d (v : Word) : Dev := s.dev.met path Adr.JNL_CTRL v
    (s.dev.job.seq ≠ .idle →
      (Reaches s path Adr.JNL_CTRL 1#32 → Completes (.clearStates path) s (d 1) s.mem) ∧
      (Reaches s path Adr.JNL_CTRL 2#32 → Completes (.clearCounts path) s (d 2) s.mem) ∧
      (Reaches s path Adr.JNL_CTRL 4#32 → Completes (.clearTrouble path) s (d 4) s.mem) ∧
      (Reaches s path Adr.JNL_CTRL 8#32 → Completes (.clearCal path) s (d 8) s.mem)) ∧
    (s.dev.job.seq = .idle →
      (Reaches s path Adr.JNL_CTRL 1#32 → ∃ e, Completes (.clearStates path) s e s.mem ∧
        e.jnl.area.states = [] ∧ e.jnl.area.log = [] ∧ e.jnl.area.counts = s.dev.jnl.area.counts) ∧
      (Reaches s path Adr.JNL_CTRL 2#32 → ∃ e, Completes (.clearCounts path) s e s.mem ∧
        e.jnl.area.counts = [] ∧ (∀ z, e.firingCount z = 0) ∧ e.jnl.area.states = s.dev.jnl.area.states) ∧
      (Reaches s path Adr.JNL_CTRL 4#32 → ∃ e, Completes (.clearTrouble path) s e s.mem ∧
        e.jnl.area.trouble = [] ∧ e.rep.ring = [] ∧ e.rep.nextSeq = s.dev.rep.nextSeq) ∧
      (Reaches s path Adr.JNL_CTRL 8#32 → ∃ e, Completes (.clearCal path) s e s.mem ∧
        e.jnl.area.calib = [] ∧ e.jnl.area.states = s.dev.jnl.area.states)) ∧
    (Reaches s path Adr.JNL_CTRL 16#32 → s.dev.stokerRuns = true → (d 16).domOn 1 = true →
      ∃ e, Completes (.checkpoint path) s e s.mem ∧ e.jnl.area.counts = s.dev.countCodes))

/-! ### Reports, the service port and the firing counts -/

/-- R427, R429, R430, R431, R432, R487: a read of word 0 takes the oldest entry into the capture, or of an empty queue sets
Underrun and leaves the capture; a timeout with PushEn set drains every notice, oldest first; a sample queues a record of
each instance and keeps the latest 32, counting what it drops; a reset empties its queue and writes QueueReset with the
occupancy.
Model choices that this rests on: assumption log 107. -/
def Obligations.QueuesReadAndReset : Prop :=
  (∀ (s : State) (q : Fin 4), s.runs →
    let x := s.dev.queue q.val
    (x.entries = [] →
      Completes (.trbNqdataRead q) s (s.dev.sticky (Fld.TRB_NQSTAT.Underrun q.val)) s.mem ∧
      Completes (.noticeQueueTimeout q) s s.dev s.mem) ∧
    (∀ n rest, x.entries = n :: rest →
      Completes (.trbNqdataRead q) s (s.dev.setQueue q.val ⟨rest, n.body⟩) s.mem ∧
      (s.dev.rd (Fld.TRB_NQCFG.PushEn q.val) = 0 → Completes (.noticeQueueTimeout q) s s.dev s.mem) ∧
      (s.dev.rd (Fld.TRB_NQCFG.PushEn q.val) = 1 →
        Completes (.noticeQueueTimeout q) s
          ((n :: rest).foldl Dev.pushNotice (s.dev.setQueue q.val ⟨[], x.capture⟩)) s.mem)) ∧
    (∃ e, Completes (.queueReset q.val) s e s.mem ∧
      e = ((s.dev.setQueue q.val ⟨[], x.capture⟩).bumpSat (Fld.TRB_NQSTAT.Lost q.val) x.entries.length).noticeTrouble
        Nt.QueueReset [(1, q.val), (4, x.entries.length)] ∧
      (q ≠ 3 → (e.queue q.val).entries = []))) ∧
  (∀ s : State, s.runs →
    (s.dev.boot.stokerUp = true →
      (s.dev.rep.telQueue = [] → Completes .telQdataRead s (s.dev.sticky Fld.TEL_QSTAT.Underrun) s.mem) ∧
      (∀ b rest, s.dev.rep.telQueue = b :: rest → Completes .telQdataRead s
        { s.dev with rep := { s.dev.rep with telQueue := rest, telCapture := b } } s.mem)) ∧
    (s.dev.rd Fld.TEL_QCFG.Period = 0 → Completes .telemetrySample s s.dev s.mem) ∧
    (s.dev.rd Fld.TEL_QCFG.Period ≠ 0 →
      let new := (s.dev.telRecords (s.dev.rd Fld.TEL_QCFG.Types)).map (·.2)
      let lost := min new.length (s.dev.rep.telQueue.length + new.length - 32)
      ∃ e, Completes .telemetrySample s e s.mem ∧ e = { s.dev with win := e.win, rep := e.rep } ∧
        e.rep = { s.dev.rep with telQueue := (s.dev.rep.telQueue ++ new).drop lost } ∧
        OnlyFields [Fld.TEL_QSTAT.Lost] s.dev e ∧
        e.rd Fld.TEL_QSTAT.Lost = min 0xFFFF (s.dev.rd Fld.TEL_QSTAT.Lost + lost)) ∧
    Completes (.queueReset 4) s
      (({ s.dev with rep := { s.dev.rep with telQueue := [] } }.bumpSat Fld.TEL_QSTAT.Lost s.dev.rep.telQueue.length).noticeTrouble
        Nt.QueueReset [(1, 4), (4, s.dev.rep.telQueue.length)]) s.mem ∧
    (∀ p : Fin 64, Completes (.queueReset (5 + p.val)) s ((s.dev.emptyPort p.val).noticeTrouble Nt.QueueReset
      [(1, 5 + p.val), (4, (s.dev.port p.val).queue.length)]) s.mem ∧ ((s.dev.emptyPort p.val).port p.val).queue = []) ∧
    (∀ q, 70 < q → Completes (.queueReset q) s s.dev s.mem))

/-- R475, R484: a clear clears the RWS bits of the register named that its mask names and no other bit, and acts on nothing
where TRB_CLRADDR names no register; an acknowledgement of the newest entry clears interrupt source 26; a read of word 0 of
the trouble record captures the slot. -/
def Obligations.StickyBitsAndTroubleRecord : Prop :=
  (∀ (s : State) (path : Sys2Proof.Path) (mask : Word), Reaches s path Adr.TRB_CLRMASK mask →
    let d := s.dev.met path Adr.TRB_CLRMASK mask
    let a := d.rd Fld.TRB_CLRADDR.Addr * 4
    (holdsRegister d.part a = false → Completes (.stickyClear path mask) s d s.mem) ∧
    (holdsRegister d.part a = true → silentRegister d.part a = false →
      ∃ e, Completes (.stickyClear path mask) s e s.mem ∧ e = { d with win := e.win } ∧ (∀ b, b ≠ a → e.reg b = d.reg b) ∧
        ∀ i, (e.reg a).toNat.testBit i =
          ((d.reg a).toNat.testBit i && !(mask.toNat.testBit i && (rwsMask a).testBit i)))) ∧
  (∀ (s : State) (path : Sys2Proof.Path) (value : Word), Reaches s path Adr.TRB_RECACK value →
    let d := s.dev.met path Adr.TRB_RECACK value
    Completes (.trbRecackWrite path value) s (d.keepReg Adr.TRB_RECACK value) s.mem ∧
    (value.toNat = s.dev.rep.lastSeq → (d.keepReg Adr.TRB_RECACK value).troubleSource = false)) ∧
  (∀ s : State, s.runs → ∃ e, Completes .trbRecdataRead s e s.mem ∧
    e = { s.dev with rep := { s.dev.rep with recCapture := e.rep.recCapture } } ∧
    ∀ x, s.dev.troubleSlot (s.dev.rd Fld.TRB_RECSEL.Slot) = some x → e.rep.recCapture = x.bytes)

/-- R488, R489, R490, R492, R494, R495: a transaction that is not complete does nothing; one with a wrong CRC, an unaligned
address or another Cmd is answered with its status and does nothing else; a request that passes is performed once and
answered; a read of TEL_FCLO captures the high bits of the nozzle's count; folding keeps every count.
Model choices that this rests on: assumption logs 91, 126. -/
def Obligations.ServicePortAndCounts : Prop :=
  (∀ (s : State) (req : Bytes), s.runs →
    let d := s.dev.wake 1 6
    let a := beAt req 1 4
    exec (.serviceIncomplete req) s = .next s ∧
    (beAt req 0 1 ≠ 1 → beAt req 0 1 ≠ 2 → req ≠ [] →
      Completes (.badCommand req) s (d.emit (.service (serviceResponse 5 0))) s.mem) ∧
    (beAt req 0 1 = 1 → req.length = 6 →
      (crc8 (req.take 5) ≠ beAt req 5 1 → Completes (.serviceRead req) s (d.emit (.service (serviceResponse 1 0))) s.mem) ∧
      (crc8 (req.take 5) = beAt req 5 1 → a % 4 ≠ 0 →
        Completes (.serviceRead req) s (d.emit (.service (serviceResponse 2 0))) s.mem) ∧
      (crc8 (req.take 5) = beAt req 5 1 → a % 4 = 0 → d.serviceReaches a = true → d.serviceWakes a = true →
        Completes (.serviceRead req) s (d.touchTables.emit (.service (serviceResponse 4 0))) s.mem) ∧
      (crc8 (req.take 5) = beAt req 5 1 → a % 4 = 0 → d.serviceReaches a = true → d.serviceWakes a = false →
        let r := windowRead d a
        Completes (.serviceRead req) s (r.2.2.emit (.service (serviceResponse (serviceStatus r.1) r.2.1.toNat))) s.mem)) ∧
    (beAt req 0 1 = 2 → req.length = 10 →
      (crc8 (req.take 9) ≠ beAt req 9 1 → Completes (.serviceWrite req) s (d.emit (.service (serviceResponse 1 0))) s.mem) ∧
      (crc8 (req.take 9) = beAt req 9 1 → a % 4 = 0 → d.serviceReaches a = true → d.serviceWakes a = false →
        let r := windowWrite d s.mem .service [] a (BitVec.ofNat 32 (beAt req 5 4))
        Completes (.serviceWrite req) s
          (r.2.1.emit (.service (serviceResponse (serviceStatus r.1) (if r.1 = stOk then beAt req 5 4 else 0)))) r.2.2))) ∧
  (∀ s : State, s.runs →
    (∀ temp : BitVec 16, Completes (.tjUpdate temp) s (s.dev.wr Fld.TEL_TJ.Temp temp.toNat) s.mem) ∧
    (s.dev.boot.stokerUp = true →
      let z := s.dev.rd Fld.TEL_FCIDX.Nozzle
      Completes .telFcloRead s
        (s.dev.wr Fld.TEL_FCHI.CountHi (if s.dev.nozzleIn z then s.dev.firingCount z / 2 ^ 32 else 0)) s.mem) ∧
    (∀ port : Fin 64, ∃ e, Completes (.firingCountFold port) s e s.mem ∧ e = { s.dev with fire := e.fire } ∧
      (∀ x ∈ e.fire.acc, x.1 / 4096 ≠ port.val) ∧
      ∀ z, (s.dev.fire.acc.filter (fun x => x.1 == z)).length ≤ 1 → e.firingCount z = s.dev.firingCount z))

/-! ### Network time -/

/-- R367, R368, R369, R370, R371: a tick adds the increment in force and every step waiting, which it counts; a write of
TIME_INCRHI sets the increment of the next tick, clamped to 3.996 to 4.004 ns; a write of TIME_STEPSEC adds one step of its
seconds and TIME_STEPNS; a read of TIME_SECLO captures the counter, one of TIME_EXSEQ the last exchange.
Model choices that this rests on: assumption log 98. -/
def Obligations.TimeCounterTicksAndSteps : Prop :=
  (∀ s : State, s.runs →
    (s.dev.domOn 2 = false → Completes .timeTick s s.dev s.mem) ∧
    (s.dev.domOn 2 = true →
      let incr := s.dev.time.incrNext.getD s.dev.time.incr
      let steps := s.dev.time.steps
      ∃ e, Completes .timeTick s e s.mem ∧
        e.now = stampOf (TimeStamp.fine s.dev.now + incr + steps.foldl (· + ·) 0) ∧
        e.time.incr = incr ∧ e.time.incrNext = none ∧ e.time.steps = [] ∧
        (steps = [] → e = { s.dev with now := e.now, time := { s.dev.time with incr := incr, incrNext := none } }) ∧
        (steps ≠ [] → e.rd Fld.TIME_STEPCNT.Count = (s.dev.rd Fld.TIME_STEPCNT.Count + steps.length) % 2 ^ 32)) ∧
    (s.dev.boot.stokerUp = true →
      (∃ e, Completes .timeSecloRead s e s.mem ∧ e.rd Fld.TIME_SECLO.SecLo = s.dev.now.sec % 2 ^ 32 ∧
        e.rd Fld.TIME_SECHI.SecHi = s.dev.now.sec / 2 ^ 32 % 2 ^ 16 ∧ e.rd Fld.TIME_NS.Ns = s.dev.now.ns % 2 ^ 30 ∧
        e.rd Fld.TIME_FRAC.Frac = s.dev.now.frac % 2 ^ 32 ∧ e = { s.dev with win := e.win } ∧
        OnlyFields [Fld.TIME_SECLO.SecLo, Fld.TIME_SECHI.SecHi, Fld.TIME_NS.Ns, Fld.TIME_FRAC.Frac] s.dev e) ∧
      (∃ e, Completes .timeExseqRead s e s.mem ∧ e = { s.dev with win := e.win } ∧
        e.rd Fld.TIME_EXSEQ.Seq = s.dev.time.ptp.seq % 2 ^ 32 ∧
        ∀ k : Fin 4, let t := (s.dev.time.ptp.stamps.getD k.val 0).toNat
          e.rd (Fld.TIME_EXS.Sec k.val) = t / 65536 / 1000000000 % 2 ^ 32 ∧
          e.rd (Fld.TIME_EXN.Ns k.val) = t / 65536 % 1000000000 ∧ e.rd (Fld.TIME_EXF.Frac k.val) = t % 65536))) ∧
  (∀ (s : State) (path : Sys2Proof.Path),
    (∀ whole : Fin 8, Reaches s path Adr.TIME_INCRHI (BitVec.ofNat 32 whole.val) →
      let d := s.dev.met path Adr.TIME_INCRHI (BitVec.ofNat 32 whole.val)
      let i := whole.val * 2 ^ 32 + d.rd Fld.TIME_INCRLO.Frac
      ∃ e, Completes (.timeIncrWrite path (BitVec.ofNat 32 whole.val)) s e s.mem ∧
        e = { d with win := e.win, time := { d.time with incrNext := some (clampIncr i) } } ∧
        e.rd Fld.TIME_INCRHI.Whole = whole.val ∧
        (clampIncr i ≠ i → e.rd Fld.TIME_ERR.IncrClamp = 1) ∧
        OnlyFields [Fld.TIME_INCRHI.Whole, Fld.TIME_ERR.IncrClamp] d e) ∧
    (∀ v : Word, Reaches s path Adr.TIME_STEPSEC v →
      let d := s.dev.met path Adr.TIME_STEPSEC v
      Completes (.timeStep path v) s (d.addStep
        ((signedOf 32 v.toNat * 1000000000 + signedOf 32 (d.rd Fld.TIME_STEPNS.Ns)) * 2 ^ 32)) s.mem))

/-- R373, R374: Arm loads the values: a one-shot whose start has passed fires at the next tick and sets Late, another waits
for its start, a periodic output for its first time above the counter, with a Width at or above Period reduced to Period
less 20; Disarm leaves an active pulse; an edge begins or ends a pulse only once the counter reaches or passes its time.
Model choices that this rests on: assumption log 99. -/
def Obligations.TimedOutputs : Prop :=
  (∀ (s : State) (path : Sys2Proof.Path) (k : Fin 8), s.runs →
    let a := Adr.TIME_TOCTRL k.val
    let v (c : Nat) : Word := s.dev.reg a ||| BitVec.ofNat 32 c
    let d (c : Nat) : Dev := s.dev.met path a (v c)
    (Reaches s path a (v 1) → BitVec.ofNat 32 ((v 1).toNat &&& definedBits a) = v 1 → (v 1).toNat.testBit 1 = false →
      let e := d 1
      let x := e.tout k
      let t : Int := ((e.rd (Fld.TIME_TOSECHI.SecHi k.val) * 2 ^ 32 + e.rd (Fld.TIME_TOSECLO.SecLo k.val)) * 1000000000 +
        e.rd (Fld.TIME_TONS.Ns k.val) : Nat)
      let p := e.rd (Fld.TIME_TOPER.Period k.val)
      let w := e.rd (Fld.TIME_TOWID.Width k.val)
      (e.rd (Fld.TIME_TOCTRL.Periodic k.val) = 1 →
        Completes (.toutArm path k) s (e.setTout k { x with
          start := t, last := none, next := some (firstEdge t p (TimeStamp.total e.now)), period := some p
          width := if p ≤ w then p - 20 else w }) s.mem) ∧
      (e.rd (Fld.TIME_TOCTRL.Periodic k.val) = 0 → TimeStamp.total e.now < t →
        Completes (.toutArm path k) s (e.setTout k { x with
          start := t, last := none, next := some t, period := none, width := w }) s.mem) ∧
      (e.rd (Fld.TIME_TOCTRL.Periodic k.val) = 0 → t ≤ TimeStamp.total e.now →
        Completes (.toutArm path k) s ((e.setTout k { x with
          start := t, last := none, next := some 0, period := none, width := w }).sticky (Fld.TIME_TOCTRL.Late k.val)) s.mem)) ∧
    (Reaches s path a (v 2) → BitVec.ofNat 32 ((v 2).toNat &&& definedBits a) = v 2 → (v 2).toNat.testBit 0 = false →
      Completes (.toutDisarm path k) s ((d 2).setTout k { (d 2).tout k with next := none, period := none }) s.mem)) ∧
  (∀ (s : State) (k : Fin 8), s.runs →
    let x := s.dev.tout k
    let now := TimeStamp.total s.dev.now
    (x.active = none → x.next = none → Completes (.toutEdge k) s s.dev s.mem) ∧
    (∀ e, x.active = some e →
      (now < e → Completes (.toutEdge k) s s.dev s.mem) ∧
      (e ≤ now → Completes (.toutEdge k) s
        ((s.dev.setTout k { x with active := none }).emit (.toutEdge k.val (s.dev.toutLevel k.val false))) s.mem)) ∧
    (∀ t, x.active = none → x.next = some t →
      (now < t → Completes (.toutEdge k) s s.dev s.mem) ∧
      (t ≤ now → Completes (.toutEdge k) s
        ((s.dev.setTout k (x.rise s.dev.now s.dev.time.incr t)).emit (.toutEdge k.val (s.dev.toutLevel k.val true))) s.mem)))

/-- R364, R365, R366, R371, R372: a frame waits while HOST is not ON; an Announce that the port, domain and transport admit makes
its sender the master where no other is heard; a Sync of the master starts an exchange with t2 less the ingress correction
and ends Holdover; Delay_Req is sent once per Sync, and t3 takes the egress correction; the last of t1 and t4 completes the
exchange, which shows offset and path delay, and above 1 ms steps the counter unless HostServo is set; without Sync the
device is in Holdover.
Model choices that this rests on: assumption logs 95, 96. -/
def Obligations.PtpFollowsItsMaster : Prop :=
  (∀ (s : State) (a : PtpAnnounce), s.runs →
    let d := s.dev.frameIn a.port.val
    (d.domOn 3 = false → Completes (.announce a) s (d.holdFrame (.announce a)) s.mem) ∧
    (d.domOn 3 = true → d.ptpHears a.port a.transport a.domain = false → Completes (.announce a) s d s.mem) ∧
    (d.domOn 3 = true → d.ptpHears a.port a.transport a.domain = true → d.time.ptp.chosen = none → d.time.ptp.masters = [] →
      Completes (.announce a) s ((d.wr Fld.TIME_PTPSTAT.Port a.port.val).setPtp
        { d.time.ptp with masters := [a], chosen := some (a.source, a.port), exch := none }) s.mem)) ∧
  (∀ (s : State) (m : PtpMsg), s.runs → (s.dev.frameIn m.port.val).domOn 3 = true →
    let d := s.dev.frameIn m.port.val
    let x := d.time.ptp
    (d.ptpTakes m = false → Completes (.sync m) s d s.mem ∧ Completes (.followUp m) s d s.mem ∧
      Completes (.delayResp m) s d s.mem) ∧
    (d.ptpTakes m = true →
      Completes (.sync m) s ((d.wr Fld.TIME_PTPSTAT.Holdover 0).setPtp { x with
        transport := m.transport
        exch := some ⟨m.seqId, if m.twoStep then none else some (TimeStamp.coarse m.stamp + m.correction),
          TimeStamp.coarse m.arrival - tenths (d.portCorr m.port).1, m.correction, none, 0, none⟩ }) s.mem ∧
      (∀ e, x.exch = some e → e.syncSeq = m.seqId → e.t1 = none → e.t4 = none →
        Completes (.followUp m) s (d.setPtp { x with
          exch := some { e with t1 := some (TimeStamp.coarse m.stamp + e.corr + m.correction) } }) s.mem) ∧
      (∀ e t1, x.exch = some e → e.reqSeq = some m.seqId → e.t1 = some t1 →
        let t4 := TimeStamp.coarse m.stamp - m.correction
        let offset := Int.fdiv ((e.t2 - t1) - (t4 - e.t3)) 2
        let delay := Int.fdiv ((e.t2 - t1) + (t4 - e.t3)) 2
        ∃ f, Completes (.delayResp m) s f s.mem ∧ f.time.ptp.exch = none ∧
          f.time.ptp.stamps = [t1, e.t2, e.t3, t4] ∧ f.time.ptp.seq = (x.seq + 1) % 2 ^ 32 ∧
          f.rd Fld.TIME_OFFSET.Ns = patternOf 32 (clampInt (-2147483648) 2147483647 (Int.fdiv offset 65536)) % 2 ^ 32 ∧
          f.rd Fld.TIME_PATHDLY.Ns = (clampInt 0 4294967295 (Int.fdiv delay 65536)).toNat % 2 ^ 32 ∧
          (d.rd Fld.TIME_PTPCTRL.HostServo = 1 → f.time.incrNext = d.time.incrNext ∧ f.time.steps = d.time.steps) ∧
          (d.rd Fld.TIME_PTPCTRL.HostServo = 0 → 1000000 * 65536 < offset.natAbs →
            f.time.incrNext = d.time.incrNext ∧ f.time.steps = d.time.steps ++ [- offset * 65536])))) ∧
  (∀ s : State, s.runs →
    let d := s.dev
    let x := d.time.ptp
    (x.exch = none → Completes .delayReqSend s d s.mem) ∧
    (∀ e m p, x.exch = some e → x.chosen = some (m, p) → e.reqSeq = none →
      d.ptpHears p x.transport (d.rd Fld.TIME_PTPCTRL.Domain) = true →
      Completes .delayReqSend s ((d.setPtp { x with
        reqNext := (x.reqNext + 1) % 65536
        exch := some { e with reqSeq := some x.reqNext, t3 := TimeStamp.coarse d.now + tenths (d.portCorr p).2 } }).sendFrame p
          (.delayReq p x.transport x.reqNext)) s.mem) ∧
    (∀ a, x.masters = [a] → x.chosen = some (a.source, a.port) →
      Completes (.announceTimeout a.source) s ((d.sticky Fld.TIME_ERR.MasterChange).setPtp
        { x with masters := [], chosen := none, exch := none }) s.mem) ∧
    (d.rd Fld.TIME_PTPCTRL.Enable = 1 → d.isKeeper = false → d.rd Fld.TIME_PTPCTRL.HostServo = 0 →
      Completes .holdover s (d.wr Fld.TIME_PTPSTAT.Holdover 1) s.mem) ∧
    (d.isKeeper = true → Completes .holdover s d s.mem))

/-! ### Serial lanes and host ports -/

/-- R347, R348, R352, R353, R354, R356, R357, R377: signal on a lane that is Off begins its training at the preset; a training
frame whose marker or CRC is wrong is ignored whole, another is acted on, once per Tag, and answered; a tap request never
breaks the tap ranges or the swing rules; an unanswered request is sent again as one step more, within the budget; a flit
that is whole and next in order is delivered, any other is not, and is answered with Nak; a loss of the link discards its
flits and trains its lanes again, as Retrain does.
Model choices that this rests on: assumption logs 75, 92. -/
def Obligations.PairLanesTrainAndDeliver : Prop :=
  (∀ (t : Taps) (req : Nat), t.swingOk = true → t.pre ≤ 15 → 32 ≤ t.main → t.main ≤ 63 → t.post ≤ 31 →
    let u := (actRequest t req).1
    u.swingOk = true ∧ u.pre ≤ 15 ∧ 32 ≤ u.main ∧ u.main ≤ 63 ∧ u.post ≤ 31) ∧
  (∀ (s : State) (l : Fin 12), s.runs → s.dev.rd (Fld.LANE_STAT.State l.val) ≠ 0 →
    Completes (.laneSignal l) s s.dev s.mem) ∧
  (∀ (s : State) (p : Fin 4), s.runs → s.dev.rd (Fld.LANE_STAT.State p.val) = 0 →
    Completes (.laneSignal ⟨p.val, by omega⟩) s (s.dev.beginAdapt p.val) s.mem) ∧
  (∀ (s : State) (l : Fin 8), s.runs →
    let k := 4 + l.val
    let x := s.dev.train l
    (s.dev.rd (Fld.LANE_STAT.State k) = 0 → s.dev.part = .sn262 → s.dev.lane.refclk = true →
      s.dev.rd (Fld.LANE_CTRL.Enable k) = 1 → ∃ e, Completes (.laneSignal ⟨k, by omega⟩) s e s.mem ∧ e.train l = freshTrain ∧
        e.taps' k = presetTaps ∧ e.rd (Fld.LANE_STAT.State k) = 1 ∧ e.rd (Fld.LANE_STAT.Steps k) = 0) ∧
    (s.dev.rd (Fld.LANE_STAT.State k) ≠ 4 → Completes (.trainRetry l) s s.dev s.mem) ∧
    (s.dev.rd (Fld.LANE_STAT.State k) = 4 → Completes (.trainRetry l) s (s.dev.beginTraining l) s.mem) ∧
    (s.dev.rd (Fld.LANE_STAT.State k) ≠ 1 ∨ x.request = none ∨ x.own ≠ 0 →
      Completes (.trainingRequestTimeout l) s s.dev s.mem) ∧
    (s.dev.rd (Fld.LANE_STAT.State k) = 1 → x.request ≠ none → x.own = 0 →
      s.dev.rd (Fld.LANE_STAT.Steps k) < s.dev.rd Fld.LANE_BUDGET.Steps →
      Completes (.trainingRequestTimeout l) s ((s.dev.wr (Fld.LANE_STAT.Steps k) (s.dev.rd (Fld.LANE_STAT.Steps k) + 1)).emit
        (.training l.val (x.frame (s.dev.rd (Fld.LANE_STAT.Fom k))))) s.mem)) ∧
  (∀ (s : State) (f : TrainFrame), s.runs →
    let k := 4 + f.lane.val
    let req := leAt f.bytes 8 2
    (s.dev.rd (Fld.LANE_STAT.State k) ≠ 1 ∨ frameOk f.bytes = false → Completes (.trainingFrame f) s s.dev s.mem) ∧
    (s.dev.rd (Fld.LANE_STAT.State k) = 1 → frameOk f.bytes = true →
      let d := (s.dev.wr (Fld.LANE_STAT.Fom k) f.fom.toNat).setTrain f.lane { s.dev.train f.lane with far := leAt f.bytes 13 1 }
      let served := if bitsOf req 5 0 = 0 then d else d.serveRequest f.lane req
      let e := served.search f.lane f.fom.toNat (leAt f.bytes 10 2 / 256)
      Completes (.trainingFrame f) s (e.emit (.training f.lane.val ((e.train f.lane).frame f.fom.toNat))).linkStart s.mem)) ∧
  (∀ (s : State) (bs : Bytes), s.runs →
    let k := s.dev.lane.link
    (k.up = false → Completes (.flit bs) s s.dev s.mem) ∧
    (k.up = true → bs.length ≠ 64 ∨ crc32c (bs.take 60) ≠ leAt bs 60 4 →
      Completes (.flit bs) s (s.dev.emit (.flitAck k.rxNext false)) s.mem) ∧
    (k.up = true → bs.length = 64 → crc32c (bs.take 60) = leAt bs 60 4 → (leAt bs 6 2).testBit 0 = false →
      leAt bs 0 1 ≠ 0 → leAt bs 0 1 ≠ 9 → leAt bs 0 1 ≠ 11 →
      let kept := dropAcked k.txNext (leAt bs 4 2) k.unacked
      (leAt bs 2 2 = k.rxNext → Completes (.flit bs) s
        ({ s.dev with lane := { s.dev.lane with link := { k with unacked := kept, rxNext := flitNext k.rxNext } } }.emit
          (.flitAck (flitNext k.rxNext) true)) s.mem) ∧
      (leAt bs 2 2 ≠ k.rxNext → Completes (.flit bs) s
        ({ s.dev with lane := { s.dev.lane with link := { k with unacked := kept } } }.emit (.flitAck k.rxNext false)) s.mem))) ∧
  (∀ (s : State) (reason : Nat), s.runs →
    (s.dev.part = .sn131 → Completes (.linkLoss reason) s s.dev s.mem) ∧
    (s.dev.part = .sn262 → ∃ e, Completes (.linkLoss reason) s e s.mem ∧ e.lane.link = ⟨false, 1, 1, []⟩ ∧
      ∀ l, s.dev.lane.refclk = true → s.dev.rd (Fld.LANE_CTRL.Enable (4 + l.val)) = 1 →
        s.dev.rd (Fld.LANE_STAT.State (4 + l.val)) ≠ 0 → e.train l = freshTrain)) ∧
  (∀ (s : State) (path : Sys2Proof.Path) (l : Fin 12), holdsRegister s.dev.part (Adr.LANE_CTRL l.val) = true →
    let v := s.dev.reg (Adr.LANE_CTRL l.val) ||| 2#32
    Reaches s path (Adr.LANE_CTRL l.val) v → BitVec.ofNat 32 (v.toNat &&& definedBits (Adr.LANE_CTRL l.val)) = v →
    v.toNat.testBit 0 = true →
    let d := s.dev.met path (Adr.LANE_CTRL l.val) v
    (l.val < 4 → Completes (.laneRetrain path l) s (d.retrainHost l.val).ptpResettle s.mem) ∧
    (4 ≤ l.val → Completes (.laneRetrain path l) s d.linkLoss.ptpResettle s.mem))

/-- R345, R348, R349, R350, R358, R361: a host lane that adapts comes up once it has block lock and FOM at or above Floor; an
up lane that drops, and one whose NET_PCTRL is written, goes down and adapts again; an Auto port without lock tries the other
rate; without REFCLK every lane is Off until it returns; a discarded frame is counted where its cause says; the device answers
ARP, neighbour solicitations and echo requests for its own addresses.
Model choices that this rests on: assumption logs 93, 115. -/
def Obligations.HostPortsComeUpAndAnswer : Prop :=
  (∀ (s : State) (p : Fin 4) (fom : Nat) (hiBer : Bool) (reason : Nat), s.runs →
    let d := s.dev
    let st := d.rd (Fld.LANE_STAT.State p.val)
    (st ≠ 2 → Completes (.hostAdaptTimeout p fom) s d s.mem ∧ Completes (.blockLock p fom hiBer) s d s.mem) ∧
    (st = 2 →
      let f := d.wr (Fld.LANE_STAT.Fom p.val) (min 255 fom)
      (d.rd (Fld.NET_PSTAT.BlockLock p.val) = 0 ∨ min 255 fom < d.rd Fld.LANE_FOM.Floor →
        Completes (.hostAdaptTimeout p fom) s f s.mem) ∧
      (d.rd (Fld.NET_PSTAT.BlockLock p.val) = 1 → d.rd (Fld.NET_PSTAT.HiBer p.val) = 0 →
        d.rd Fld.LANE_FOM.Floor ≤ min 255 fom → Completes (.hostAdaptTimeout p fom) s (f.portUp p) s.mem) ∧
      let g := ((d.wr (Fld.NET_PSTAT.BlockLock p.val) 1).wr (Fld.NET_PSTAT.HiBer p.val) (if hiBer then 1 else 0)).wr
        (Fld.LANE_STAT.Fom p.val) (min 255 fom)
      (hiBer = true ∨ min 255 fom < d.rd Fld.LANE_FOM.Floor → Completes (.blockLock p fom hiBer) s g s.mem) ∧
      (hiBer = false → d.rd Fld.LANE_FOM.Floor ≤ min 255 fom → Completes (.blockLock p fom hiBer) s (g.portUp p) s.mem)) ∧
    (st = 3 → Completes (.linkDrop p reason) s (d.retrainHost p.val).ptpResettle s.mem) ∧
    (st ≠ 3 → Completes (.linkDrop p reason) s d.ptpResettle s.mem) ∧
    (2 ≤ d.rd (Fld.NET_PCTRL.Speed p.val) → d.rd (Fld.NET_PSTAT.BlockLock p.val) = 0 → st = 2 →
      Completes (.speedAutoSwitch p) s (d.wr (Fld.NET_PSTAT.Rate10 p.val) (1 - d.rd (Fld.NET_PSTAT.Rate10 p.val))) s.mem) ∧
    (d.rd (Fld.NET_PCTRL.Speed p.val) < 2 → Completes (.speedAutoSwitch p) s d s.mem)) ∧
  (∀ (s : State) (path : Sys2Proof.Path) (p : Fin 4) (v : Word), Reaches s path (Adr.NET_PCTRL p.val) v →
    BitVec.ofNat 32 (v.toNat &&& definedBits (Adr.NET_PCTRL p.val)) = v →
    let d := s.dev.met path (Adr.NET_PCTRL p.val) v
    ∃ w, Completes (.netPctrlWrite path p v) s ((d.keepReg (Adr.NET_PCTRL p.val) w).retrainHost p.val).ptpResettle s.mem ∧
      bitsOf w.toNat 1 0 = min 2 (bitsOf v.toNat 1 0) ∧ bitsOf w.toNat 3 2 = bitsOf v.toNat 3 2) ∧
  (∀ (s : State) (p : Fin 4) (mac : BitVec 48) (sender target : Nat) (ep : Endpoint) (data : Bytes), s.runs →
    let d := s.dev.frameIn p.val
    Completes (.pauseFrame p) s ((s.dev.bump (Fld.NET_PAUSE.Count p.val)).wake 3 2) s.mem ∧
    Completes (.frameDiscard p .fcs) s ((s.dev.bump (Fld.NET_FCSERR.Count p.val)).wake 3 2) s.mem ∧
    (∀ c, c = .runt ∨ c = .tooLong ∨ c = .vlan ∨ c = .other →
      Completes (.frameDiscard p c) s ((s.dev.bump (Fld.NET_RXDROP.Count p.val)).wake 3 2) s.mem) ∧
    (∀ c, c = .ipFragment ∨ c = .ipOption ∨ c = .udpChecksum ∨ c = .ojpHeader ∨ c = .ojpTooLong ∨ c = .notReady →
      Completes (.frameDiscard p c) s
        (((s.dev.bump (Fld.NET_RXFRM.Count p.val)).bump Fld.NET_OJPDROP.Count).wake 3 2) s.mem) ∧
    (d.domOn 3 = false →
      Completes (.arpRequest p mac sender target) s (d.holdFrame (.arpRequest p mac sender target)) s.mem ∧
      Completes (.neighbourSolicitation p mac sender target) s (d.holdFrame (.neighbourSolicitation p mac sender target)) s.mem ∧
      Completes (.echoRequest p ep target data) s (d.holdFrame (.echoRequest p ep target data)) s.mem) ∧
    (d.domOn 3 = true →
      (d.owns4 p.val target = none → Completes (.arpRequest p mac sender target) s d s.mem) ∧
      (∀ m, d.owns4 p.val target = some m →
        Completes (.arpRequest p mac sender target) s (d.sendFrame p (.arp p mac (BitVec.ofNat 48 m) target sender)) s.mem) ∧
      (d.owns6 p.val target = none → Completes (.neighbourSolicitation p mac sender target) s d s.mem) ∧
      (∀ m, d.owns6 p.val target = some m → Completes (.neighbourSolicitation p mac sender target) s
        (d.sendFrame p (.neighbour p mac (BitVec.ofNat 48 m) target sender)) s.mem) ∧
      (1472 < data.length → Completes (.echoRequest p ep target data) s d s.mem) ∧
      (∀ m, data.length ≤ 1472 → (if ep.v6 then d.owns6 p.val target else d.owns4 p.val target) = some m →
        Completes (.echoRequest p ep target data) s (d.sendFrame p (.echoReply p ep target data)) s.mem))) ∧
  (∀ s : State, s.runs →
    (∃ e, Completes .refclkLoss s e s.mem ∧ e.lane.refclk = false ∧ e.rd Fld.LANE_ERR.RefClk = 1 ∧
      ∀ p : Fin 4, e.rd (Fld.LANE_STAT.State p.val) = 0) ∧
    (s.dev.lane.refclk = true → Completes .refclkReturn s s.dev s.mem) ∧
    (s.dev.lane.refclk = false → ∃ e, Completes .refclkReturn s e s.mem ∧ e.lane.refclk = true ∧
      ∀ p : Fin 4, s.dev.rd (Fld.LANE_CTRL.Enable p.val) = 1 → s.dev.boot.cfg.baseMac.isSome = true →
        e.rd (Fld.LANE_STAT.State p.val) = 2))

/-! ### The memories -/

/-- R383, R384, R385, R386, R398, R399, R407: training makes the store fresh, loads the remap table and sets JOB_LIMIT, or
without every populated channel sets TrainFail and JOB_LIMIT 0; a replayed command counts, and the fourth in a row that is
not accepted retrains the channel; a reading above 85 °C makes a channel Hot and two cooler ones in a row end that; the
region above JOB_LIMIT is kindled before the device is ready and KINDLE_DONE brings the watermark to JOB_LIMIT; none of this
happens to memory that does not run.
Model choices that this rests on: assumption log 39. -/
def Obligations.MemoryTrainsKindlesAndReplays : Prop :=
  (∀ (s : State) (ok : BitVec 4), s.runs →
    let good := ok.toNat &&& s.dev.populated
    let d := s.dev.wr Fld.MEM_STATUS.TrainOk good
    (s.dev.populated = 0 ∨ good ≠ s.dev.populated →
      let failed := (if s.dev.populated = 0 then 0xF else s.dev.populated) - good
      let y := takeUpAll (((d.sticky Fld.MEM_ERR.TrainFail).trouble Nt.DramTrainFail [(1, failed)]).setLimit 0, s.mem)
      Completes (.dramTrainingDone ok) s y.1 y.2) ∧
    (s.dev.populated ≠ 0 → good = s.dev.populated → s.dev.memTrained = false → ∃ e : Dev,
      Completes (.dramTrainingDone ok) s (takeUpAll (e, s.mem.fresh)).1 (takeUpAll (e, s.mem.fresh)).2 ∧
      e.jobLimit = s.dev.limitFor % 2 ^ 40 ∧ e.rd Fld.MEM_STATUS.Kindled = 0 ∧ e.rd Fld.MEM_STATUS.ReservedKindled = 0 ∧
      e.memc.sweepNext = 0 ∧ e.memc.live = [])) ∧
  (∀ s : State, s.runs →
    (s.dev.memTrained = true → s.dev.rd Fld.MEM_STATUS.ReservedKindled = 1 → s.dev.rd Fld.MEM_STATUS.Kindled = 0 →
      s.dev.memc.emberHeld = false → ∃ e, Completes .kindleDone s e { s.mem with watermark := s.dev.jobLimit, blocks := [] } ∧
        e.rd Fld.MEM_STATUS.Kindled = 1 ∧
        e = ((s.dev.wr Fld.MEM_STATUS.Kindled 1).showMark s.dev.jobLimit).notice Nt.KindleDone []) ∧
    (s.dev.memTrained = true → ∃ e, Completes .reservedKindled s e s.mem ∧ e.rd Fld.MEM_STATUS.ReservedKindled = 1) ∧
    (s.dev.memRuns = true → ∃ e, Completes .zqCalibration s e s.mem ∧ e = { s.dev with out := e.out } ∧
      ∀ c : Fin 4, s.dev.populated.testBit c.val = true → Out.dramCommand 1 c.val ∈ e.out) ∧
    (s.dev.memRuns = false → Completes .zqCalibration s s.dev s.mem)) ∧
  (∀ (s : State) (c : Fin 4) (acc : Bool) (range : BitVec 2), s.runs →
    (s.dev.memRuns = false ∨ s.dev.populated.testBit c.val = false →
      Completes (.refresh c) s s.dev s.mem ∧ Completes (.alertN c acc) s s.dev s.mem ∧ Completes (.tempPoll c range) s s.dev s.mem) ∧
    (s.dev.memRuns = true → s.dev.populated.testBit c.val = true →
      let d := (s.dev.bump Fld.MEM_CAPCNT.Count).dramCommand 2 c.val
      let count (k : Nat) (e : Dev) : Dev := e.setMemc (fun x => { x with replays := x.replays.set c.val k c.isLt })
      let t := s.dev.wr (Fld.MEM_TEMP.Range c.val) range.toNat
      let cool (k : Nat) (e : Dev) : Dev := e.setMemc (fun x => { x with cool := x.cool.set c.val k c.isLt })
      let hot := s.dev.rd Fld.MEM_STATUS.Hot
      Completes (.refresh c) s (s.dev.dramCommand 0 c.val) s.mem ∧
      Completes (.alertN c true) s (count 0 d) s.mem ∧
      (s.dev.memc.replays[c] < 3 → Completes (.alertN c false) s (count (s.dev.memc.replays[c] + 1) d) s.mem) ∧
      (3 ≤ s.dev.memc.replays[c] → Completes (.alertN c false) s
        ((((count 0 d).dramCommand 3 c.val).sticky Fld.MEM_ERR.CaParityFail).trouble Nt.CaParityFail [(1, c.val)]) s.mem) ∧
      (2 ≤ range.toNat → Completes (.tempPoll c range) s (cool 0 (t.wr Fld.MEM_STATUS.Hot (hot ||| 2 ^ c.val))) s.mem) ∧
      (range.toNat < 2 → s.dev.memc.cool[c] = 0 → Completes (.tempPoll c range) s (cool 1 t) s.mem) ∧
      (range.toNat < 2 → 1 ≤ s.dev.memc.cool[c] → hot.testBit c.val = true →
        Completes (.tempPoll c range) s ((cool 2 t).wr Fld.MEM_STATUS.Hot (hot - 2 ^ c.val)) s.mem)))

/-- R391, R393, R398, R399, R400, R403, R404, R405: the code corrects an error confined to one component where it leaves a
beat whole; the sweeper reads line after line, counts what it corrects, poisons and reports what it cannot; a line read again
counts as correctable where it is good; a damaged line that is not live, or no longer damaged, is left; a remap request is
refused for a row remapped, not installed or without a spare, made in the next free entry otherwise, and ClearAll clears the
journal's table only while the sequencer is Idle.
Model choices that this rests on: assumption logs 37, 47. -/
def Obligations.MemoryIsSweptAndRemapped : Prop :=
  (∀ (j : Fin 10) (v : Fin 8 → Byte), (∃ b, v b = 0#8) →
    let errors : Bytes := (List.range 80).map (fun i => if i % 10 = j.val then v (Fin.ofNat 8 (i / 10)) else 0#8)
    decodeLine false errors = if ∀ b, v b = 0#8 then .good else .corrected j.val) ∧
  (∀ (s : State) (errors : Bytes), s.runs →
    let line := s.dev.memc.sweepNext
    let r := decodeLine (s.mem.poison.contains line) errors
    (s.dev.sweeps s.mem = false → Completes (.sweeperRead errors) s s.dev s.mem) ∧
    (s.dev.sweeps s.mem = true →
      (r = .good → Completes (.sweeperRead errors) s s.dev.sweepOn s.mem) ∧
      (∀ j, r = .corrected j → Completes (.sweeperRead errors) s ((s.dev.countCorrected line).countRow line j).sweepOn
        { s.mem.spoil line (residualErrors (some j) errors) with poison := delNat line s.mem.poison }) ∧
      (∀ j, r = .poisoned j → s.dev.pair.repairs.contains line = false → Completes (.sweeperRead errors) s
        (((s.dev.bump (Fld.MEM_UECNT.Count (s.dev.dramChannel line))).lastFind 3 line).addLive line false).sweepOn s.mem) ∧
      (r = .uncorrectable → ∃ e, Completes (.sweeperRead errors) s e
          ((s.mem.spoil line (residualErrors none errors)).poisonLine line) ∧
        e.rd Fld.MEM_ERR.DramUnc = 1 ∧ (line, true) ∈ e.memc.live)) ∧
    s.dev.sweepOn.memc.sweepNext = (if s.dev.installed ≤ line + 64 then 0 else line + 64)) ∧
  (∀ (s : State) (line : Nat) (errors : Bytes), s.runs →
    let d := s.dev.setMemc (fun c => { c with reread := delNat line c.reread })
    (s.dev.memc.reread.contains line = false → Completes (.sweeperReread line errors) s s.dev s.mem) ∧
    (s.dev.memc.reread.contains line = true →
      (decodeLine (s.mem.poison.contains line) errors = .good →
        Completes (.sweeperReread line errors) s (d.countCorrected line) s.mem) ∧
      (decodeLine (s.mem.poison.contains line) errors ≠ .good →
        let y := d.sweeperFind s.mem line errors
        Completes (.sweeperReread line errors) s y.1 y.2)) ∧
    (s.dev.memc.live.find? (fun e => e.1 == line) = none → Completes (.liveLineAction line) s s.dev s.mem) ∧
    (∀ x, s.dev.memc.live.find? (fun e => e.1 == line) = some x →
      let e := s.dev.setMemc (fun c => { c with live := c.live.filter (fun y => y.1 != line) })
      (s.dev.jobLimit ≤ line ∨ s.mem.poison.contains line = false → Completes (.liveLineAction line) s e s.mem) ∧
      (line < s.dev.jobLimit → s.mem.poison.contains line = true → s.dev.pair.mode = false →
        ∀ p c, e.stripOfLine s.mem line = some (p, c) → s.dev.memc.resent.contains line = false →
          Completes (.liveLineAction line) s (e.resendRequest s.mem line p c) s.mem))) ∧
  (∀ (s : State) (addr : Nat) (place : SramPlace), s.runs →
    (s.dev.rd Fld.MEM_CTRL.SweepEn = 0 → ∀ f, Completes (.sramSweepRead addr place f) s s.dev s.mem) ∧
    (s.dev.rd Fld.MEM_CTRL.SweepEn = 1 →
      let d := s.dev.sramPass addr
      Completes (.sramSweepRead addr place none) s d s.mem ∧
      Completes (.sramSweepRead addr place (some .corrected)) s ((d.bump Fld.MEM_SRAMCE.Count).lastFind 4 addr) s.mem ∧
      Completes (.sramSweepRead addr place (some .uncorrectable)) s
        (((((d.bump Fld.MEM_SRAMUE.Count).lastFind 5 addr).sticky Fld.MEM_ERR.SramUnc).trouble Nt.SramUncorrectable []).sramLost
          place) s.mem)) ∧
  (∀ (s : State) (path : Sys2Proof.Path) (v : Word), Reaches s path Adr.MEM_RMREQ v →
    BitVec.ofNat 32 (v.toNat &&& definedBits Adr.MEM_RMREQ) = v → ∃ w,
      let d := (s.dev.met path Adr.MEM_RMREQ v).keepReg Adr.MEM_RMREQ w
      let row := rowOfWord w.toNat
      (s.dev.part = .sn262 → row = rowOfWord v.toNat) ∧
      (v.toNat.testBit 31 = false → Completes (.remapRequest path v) s d s.mem) ∧
      (v.toNat.testBit 31 = true →
        (d.remapWords.any (fun w => rowOfWord w == row) = true ∨ d.rowExists row = false ∨ d.spareRows ≤ d.sparesUsed row →
          Completes (.remapRequest path v) s (d.notice Nt.RemapRefused []) s.mem) ∧
        (d.remapWords.any (fun w => rowOfWord w == row) = false → d.memc.remaps.contains row = false →
          d.rowExists row = true → d.sparesUsed row < d.spareRows → d.remapWords.length + d.memc.remaps.length < 16 →
          Completes (.remapRequest path v) s (d.setMemc (fun c => { c with remaps := c.remaps ++ [row] })) s.mem))) ∧
  (∀ s : State, s.runs →
    (s.dev.memc.remaps = [] → Completes .remapDone s s.dev s.mem) ∧
    (∀ row rest, s.dev.memc.remaps = row :: rest → rowOfWord row = row → ∀ i : Fin 16, (s.dev.reg (Adr.MEM_REMAP i.val)).toNat.testBit 31 = false →
      (∀ j : Fin 16, j < i → (s.dev.reg (Adr.MEM_REMAP j.val)).toNat.testBit 31 = true) →
      ∃ e, Completes .remapDone s e s.mem ∧ e.memc.remaps = rest ∧
        (e.reg (Adr.MEM_REMAP i.val)).toNat.testBit 31 = true ∧
        rowOfWord (e.reg (Adr.MEM_REMAP i.val)).toNat = row ∧ e.jnl.queue = s.dev.jnl.queue ++ [JnlChange.remap])) ∧
  (∀ (s : State) (path : Sys2Proof.Path), Reaches s path Adr.MEM_RMCTRL 1#32 →
    let d := s.dev.met path Adr.MEM_RMCTRL 1#32
    (s.dev.job.seq = .idle → Completes (.remapClearAll path) s
      { d with jnl := { d.jnl with area := { d.jnl.area with remap := [] } } } s.mem) ∧
    (s.dev.job.seq ≠ .idle → Completes (.remapClearAll path) s d s.mem))

/-! ### The pair -/

/-- R307, R310, R311, R312, R313, R316, R317: what becoming striker, keeper, Solo and Isolated each set; a hello settles the
roles by Prefer, by the partner's state or by an Isolated device's valid store, and equal device numbers isolate the device
until reset; JoinWait without a hello leads to Solo or Isolated by STRK_IN, which is sampled again; heartbeats leave with the
state, the Ready mask and the mismatch count; a lost partner leaves a striker Solo, and a keeper takes the lines, waits for
STRK_IN or becomes Isolated.
Model choices that this rests on: assumption logs 45, 46, 79. -/
def Obligations.PairRolesAreSettledAndLost : Prop :=
  (∀ (d : Dev) (st : PairState), (d.becomeStriker st).pair.role = .striker ∧ (d.becomeStriker st).pair.state = st ∧
    (d.becomeStriker st).pair.driving = true ∧ (d.becomeStriker st).pair.takePending = false ∧
    (d.becomeStriker st).pair.handedPorts = []) ∧
  (∀ d : Dev, d.becomeKeeper.pair.role = .keeper ∧ d.becomeKeeper.pair.state = .syncing ∧
    d.becomeKeeper.pair.driving = false ∧ d.becomeKeeper.pair.resynced = false ∧ d.becomeKeeper.strkOut = false ∧
    d.becomeKeeper.readyMask = 0#8 ∧ ∀ p < 64, d.becomeKeeper.port p = (d.port p).released ∧
      d.becomeKeeper.roleDrives p = false) ∧
  (∀ d : Dev, d.isolate.pair.role = .keeper ∧ d.isolate.pair.state = .isolated ∧ d.isolate.pair.driving = false ∧
    d.isolate.strkOut = false ∧ d.isolate.readyMask = 0#8 ∧ d.isolate.rd Fld.PAIR_ERR.Isolated = 1 ∧
    (d.pair.state = .syncing → d.isolate.rd Fld.PAIR_ERR.ResyncAbort = 1) ∧
    ∀ p < 64, d.isolate.port p = (d.port p).released ∧ d.isolate.roleDrives p = false) ∧
  (∀ (s : State) (h : Hello), s.runs → s.dev.pair.mode = true → s.dev.failed = false → s.dev.pair.locked = false →
    let d := s.dev.setPair (fun p => { p with partnerState := h.state })
    let x := d.helloMismatch (d.rd Fld.PAIR_CFG.Prefer) h.prefer
    let e := (x.helloMismatch (x.rd Fld.PAIR_CFG.JoinWait) h.joinWait).rolesSettled
    (h.number % 2 = d.devNum % 2 → Completes (.hello h) s
      (((((d.isolate).setPair (fun p => { p with locked := true })).sticky Fld.PAIR_ERR.DevselConflict).noticeTrouble
        Nt.PairConflict []).rolesSettled).bootPhase s.mem) ∧
    (h.number % 2 ≠ d.devNum % 2 →
      e.pair = d.pair ∧
      (s.dev.rd Fld.PAIR_CFG.Prefer ≠ h.prefer → e.rd Fld.PAIR_ERR.CfgMismatch = 1) ∧
      (d.pair.state = .negotiating → helloStarting h = true → Completes (.hello h) s (e.settleByPrefer h).bootPhase s.mem) ∧
      (d.pair.state = .negotiating → helloStarting h = false → Completes (.hello h) s e.becomeKeeper.bootPhase s.mem) ∧
      (d.pair.state = .isolated → helloStarting h = true → d.pair.validStore = true →
        Completes (.hello h) s e.strikerFromIsolated.bootPhase s.mem) ∧
      (d.pair.state = .isolated → helloStarting h = true → d.pair.validStore = false →
        Completes (.hello h) s (e.emptyJob.settleByPrefer h).bootPhase s.mem.emptied) ∧
      (d.pair.state = .isolated → helloStarting h = false → h.state ≠ 4 →
        Completes (.hello h) s e.becomeKeeper.bootPhase s.mem) ∧
      (d.pair.state = .solo → Completes (.hello h) s (e.setPair (fun p => { p with state := .paired })).bootPhase s.mem) ∧
      (d.pair.state ≠ .negotiating → d.pair.state ≠ .isolated → d.pair.state ≠ .solo →
        Completes (.hello h) s e.bootPhase s.mem))) ∧
  (∀ (d : Dev) (m : Mem) (a : Nat), m.emptied.byte a = 0#8 ∧ m.emptied.poison = [] ∧ m.emptied.watermark = m.watermark ∧
    d.emptyJob.job.pages = [] ∧ d.emptyJob.job.seq = .idle ∧ d.emptyJob.dec.pool = [] ∧ d.emptyJob.pair = d.pair ∧
    d.emptyJob.win = d.win ∧ d.emptyJob.act = d.act) ∧
  (∀ (d : Dev) (h : Hello), (d.settleByPrefer h).pair.role =
    if (if d.devNum % 2 = 0 then d.rd Fld.PAIR_CFG.Prefer else h.prefer) = d.devNum % 2 then .striker else .keeper) ∧
  (∀ (s : State) (level : Bool), s.runs →
    let d := s.dev.setPair (fun p => { p with strkIn := level })
    (s.dev.pair.mode = true → s.dev.pair.state = .negotiating →
      (s.dev.pair.strkIn = true → Completes .joinWaitExpiry s s.dev.isolate.rolesSettled.bootPhase s.mem) ∧
      (s.dev.pair.strkIn = false → Completes .joinWaitExpiry s s.dev.goSolo.rolesSettled.bootPhase s.mem)) ∧
    (s.dev.pair.state = .solo → 1 ≤ s.dev.pair.soloChecks →
      Completes (.soloResample false) s (s.dev.setPair (fun p => { p with soloChecks := 0 })) s.mem ∧
      (2 ≤ s.dev.pair.soloChecks →
        Completes (.soloResample true) s (s.dev.setPair (fun p => { p with soloChecks := 1 })) s.mem) ∧
      (s.dev.pair.soloChecks = 1 → Completes (.soloResample true) s s.dev.isolate s.mem)) ∧
    (s.dev.pair.soloChecks = 0 ∨ s.dev.pair.state ≠ .solo → Completes (.soloResample level) s s.dev s.mem) ∧
    (level = true → s.dev.pair.role = .striker →
      Completes (.strkInChange level) s ((d.sticky Fld.PAIR_ERR.StrkConflict).notice Nt.StrkConflict []) s.mem) ∧
    (level = true ∧ s.dev.pair.role ≠ .striker ∨ level = false ∧ s.dev.pair.takePending = false →
      Completes (.strkInChange level) s d s.mem) ∧
    (level = false → s.dev.pair.takePending = true →
      (s.dev.isKeeper = true → Completes (.strkInChange level) s (d.takeLines .solo 0) s.mem) ∧
      (s.dev.isKeeper = false → Completes (.strkInChange level) s
        (d.setPair (fun p => { p with driving := true, takePending := false })) s.mem)) ∧
    (s.dev.pair.takePending = true → s.dev.isKeeper = true → Completes .strkInWaitExpiry s s.dev.isolate s.mem) ∧
    (s.dev.pair.takePending = false ∨ s.dev.isKeeper = false → Completes .strkInWaitExpiry s s.dev s.mem)) ∧
  (∀ (s : State) (h : Heartbeat), s.runs →
    let own := s.dev.emit (.pair (.heartbeat ⟨s.dev.pair.state.code, s.dev.readyMask,
      BitVec.ofNat 32 (s.dev.rd Fld.PAIR_MISCNT.Count)⟩))
    let d := s.dev.setPair (fun p => { p with
      partnerState := h.state, partnerReady := if p.role = .striker then h.ready else p.partnerReady })
    let l := (s.dev.wr Fld.PAIR_HBMISS.Count (s.dev.rd Fld.PAIR_HBMISS.Count + 3))
    let r := l.reportLost
    (s.dev.pair.mode = false → Completes .heartbeatSend s s.dev s.mem ∧ Completes (.heartbeat h) s s.dev s.mem ∧
      Completes .heartbeatLoss s s.dev s.mem) ∧
    (s.dev.pair.mode = true → s.dev.failed = false →
      (s.dev.pair.role = .striker → Completes .heartbeatSend s (own.emit (.pair (.time s.dev.now))) s.mem) ∧
      (s.dev.pair.role ≠ .striker → Completes .heartbeatSend s own s.mem)) ∧
    (s.dev.pair.mode = true →
      (s.dev.pair.state = .isolated → s.dev.pair.locked = false → h.state = 1 ∨ h.state = 2 ∨ h.state = 8 →
        Completes (.heartbeat h) s d.becomeKeeper s.mem) ∧
      (s.dev.pair.state = .solo → h.state = 3 →
        Completes (.heartbeat h) s (d.setPair (fun p => { p with state := .paired })) s.mem) ∧
      (s.dev.pair.state ≠ .isolated → s.dev.pair.state ≠ .solo → Completes (.heartbeat h) s d s.mem) ∧
      (s.dev.pair.state = .syncing ∨ s.dev.pair.state = .suspect ∨ s.dev.pair.state = .selfTest →
        Completes .heartbeatLoss s r.isolate s.mem) ∧
      (s.dev.pair.state = .paired ∨ s.dev.pair.state = .yielding →
        (r.pair.role = .striker →
          let e := r.setPair (fun p => { p with
            state := .solo, handedPorts := [], handoffAt := [], mirrors := p.mirrors.map (fun m => { m with left := 0 }) })
          (r.pair.handedPorts = [] → Completes .heartbeatLoss s e s.mem) ∧
          (r.pair.handedPorts ≠ [] → Completes .heartbeatLoss s (e.tookPorts r.pair.handedPorts) s.mem)) ∧
        (r.pair.role ≠ .striker → r.readyBusy = false → r.pair.state ≠ .yielding →
          Completes .heartbeatLoss s r.isolate s.mem) ∧
        (r.pair.role ≠ .striker → r.readyBusy = true ∨ r.pair.state = .yielding →
          (r.pair.strkIn = true →
            Completes .heartbeatLoss s (r.setPair (fun p => { p with takePending := true })) s.mem) ∧
          (r.pair.strkIn = false → Completes .heartbeatLoss s (r.takeLines .solo 0) s.mem)))))

/-- R313, R314, R315: a fatal fault releases every port, drops STRK_OUT, sends the fatal message and leaves the device Failed
for good; the partner's message means the partner is lost, and the pair guard acts while ports are driven. R335: a handoff
is refused unless both devices are Paired and the keeper Ready; the striker starts it and a keeper passes it on. R330, R331:
Suspect and the self-test. R323: edges of the partner's LAT.
Model choices that this rests on: assumption logs 74, 81. -/
def Obligations.FatalFaultsHandoffsAndSelfTest : Prop :=
  (∀ (d : Dev) (row : Nat), (d.fatal row).pair.state = .failed ∧ (d.fatal row).pair.driving = false ∧
    (d.fatal row).strkOut = false ∧ (d.fatal row).haltReqPin = false ∧ (d.fatal row).speedWarnPin = false ∧
    (d.fatal row).speedLimitPin = false ∧ (∀ p, (d.fatal row).portDriven p = false) ∧
    (∀ p < 64, (d.fatal row).port p = (d.port p).released) ∧
    (d.pair.mode = true → (d.fatal row).out = d.out ++ [.pair .fatal])) ∧
  (∀ (s : State) (kind : FatalKind), s.runs →
    (s.dev.failed = false → kind.val < 6 → Completes (.fatalFault kind) s (s.dev.fatal (kind.val + 1)) s.mem) ∧
    (s.dev.failed = true → Completes (.fatalFault kind) s s.dev s.mem ∧ Completes .pairGuard s s.dev s.mem) ∧
    (s.dev.failed = false → (∃ p < 64, s.dev.portDriven p = true) → Completes .pairGuard s (s.dev.fatal 6) s.mem) ∧
    ((∀ p < 64, s.dev.portDriven p = false) → Completes .pairGuard s s.dev s.mem) ∧
    (s.dev.pair.mode = true →
      Completes .fatalMessage s (s.dev.setPair (fun p => { p with partnerState := 7 })).partnerLost s.mem) ∧
    (s.dev.pair.mode = false → Completes .fatalMessage s s.dev s.mem)) ∧
  (∀ (s : State) (path : Sys2Proof.Path), s.dev.part = .sn262 → Reaches s path Adr.PAIR_CTRL 1#32 →
    let d := s.dev.met path Adr.PAIR_CTRL 1#32
    (d.pair.state ≠ .paired ∨ d.pair.partnerState ≠ 1 ∨ d.readyBusy = false →
      Completes (.handoff path) s (d.sticky Fld.PAIR_ERR.HandoffRefused) s.mem) ∧
    (d.pair.state = .paired → d.pair.partnerState = 1 → d.readyBusy = true →
      (d.pair.role = .striker → Completes (.handoff path) s (d.startHandoff 2) s.mem) ∧
      (d.pair.role ≠ .striker → Completes (.handoff path) s
        ((d.setPair (fun p => { p with handoffReason := 2 })).emit (.pair (.register Adr.PAIR_CTRL 1#32))) s.mem))) ∧
  (∀ (s : State) (events : List (Fin 8 × Nat)), s.runs →
    (s.dev.isKeeper = false ∨ s.dev.pair.state ≠ .paired → Completes (.handoffMessage events) s s.dev s.mem) ∧
    (s.dev.isKeeper = true → s.dev.pair.state = .paired →
      let d := s.dev.setPair (fun p => { p with
        state := .yielding, handoffAt := events.map (fun e => (e.1.val, e.2))
        handoffReason := if s.dev.pair.handoffReason = 1 then 1 else 2, handedPorts := [] })
      Completes (.handoffMessage events) s (d.handPorts (d.portsAtOnce d.pair.handoffAt)) s.mem)) ∧
  (∀ (s : State) (path : Sys2Proof.Path), s.dev.part = .sn262 → Reaches s path Adr.PAIR_CTRL 2#32 →
    let d := s.dev.met path Adr.PAIR_CTRL 2#32
    (d.isKeeper = true → d.pair.state = .paired ∨ d.pair.state = .syncing → ∃ e, Completes (.selfTest path) s e s.mem ∧
      e = d.suspect ∧ e.pair.state = .selfTest ∧ e.pair.resynced = false ∧ e.rd Fld.PAIR_ERR.Suspect = 1 ∧
      e.readyMask = 0#8) ∧
    (d.isKeeper = false → Completes (.selfTest path) s d s.mem)) ∧
  (∀ (s : State) (pass : Bool), s.runs →
    (s.dev.pair.state ≠ .selfTest → Completes (.selfTestDone pass) s s.dev s.mem) ∧
    (s.dev.pair.state = .selfTest → Completes (.selfTestDone true) s s.dev.becomeKeeper s.mem ∧
      Completes (.selfTestDone false) s ((s.dev.sticky Fld.PAIR_ERR.SelfTestFail).fatal 5) s.mem)) ∧
  (∀ (s : State) (port : Fin 64) (rising : Bool), s.runs →
    (s.dev.pair.mode = false ∨ s.dev.roleDrives port.val = true →
      Completes (.latMonitorEdge port rising) s s.dev s.mem) ∧
    (s.dev.pair.mode = true → s.dev.roleDrives port.val = false →
      Completes (.latMonitorEdge port false) s (s.dev.latFell port.val) s.mem ∧
      Completes (.latMonitorEdge port true) s (s.dev.monitorPop port.val) s.mem ∧
      ((s.dev.port port.val).queue = [] → s.dev.monitorPop port.val =
        s.dev.setPair (fun q => { q with lateMonitor := q.lateMonitor ++ [port.val] }))))

/-- R325, R327, R328: a rally record is kept until the device's own exists, compared with it, or, for a line in arbitration,
taken as the partner's evidence; Table 67 resolves the line; a record that does not come is counted.
Model choices that this rests on: assumption log 78. -/
def Obligations.RallyIsComparedAndArbitrated : Prop :=
  (∀ (s : State) (r : RallyRec), s.runs →
    let n := r.plane.val
    let e := s.dev.setPair (fun p => { p with
      arb := p.arb.map (fun a => if a.isLine n r.event then { a with theirs := some r.evidence } else a) })
    (s.dev.pair.arb.any (fun a => a.isLine n r.event) = false →
      (s.dev.rallies n = false → Completes (.rallyRecord r) s s.dev s.mem) ∧
      (s.dev.rallies n = true → (∀ o ∈ s.dev.pair.own, ¬ (o.plane = r.plane ∧ o.event = r.event)) →
        Completes (.rallyRecord r) s (s.dev.setPair (fun p => { p with partner := p.partner ++ [r] })) s.mem) ∧
      (∀ o, s.dev.rallies n = true →
        s.dev.pair.own.find? (fun o => decide (o.plane = r.plane) && decide (o.event = r.event)) = some o →
        Completes (.rallyRecord r) s (s.dev.compareRally o r) s.mem)) ∧
    (∀ a x, s.dev.pair.arb.find? (fun a => a.isLine n r.event) = some a → a.mine = some x →
      Completes (.rallyRecord r) s (e.resolve { a with theirs := some r.evidence } x r.evidence) s.mem) ∧
    (∀ a, s.dev.pair.arb.find? (fun a => a.isLine n r.event) = some a → a.mine = none →
      Completes (.rallyRecord r) s e s.mem)) ∧
  (∀ (d : Dev) (a : ArbLine) (mine theirs : Bool),
    let striker := if d.isKeeper then theirs else mine
    let keeper := if d.isKeeper then mine else theirs
    let y := d.setPair (fun p => { p with
      arb := p.arb.filter (fun x => !x.isLine a.plane a.event)
      evidence := p.evidence.filter (fun x => x != (a.plane, a.event)) })
    let z := y.joinRange a.plane a.event a.mask (y.pagesAt a.plane a.event a.pageId)
    (keeper = true → striker = false → d.resolve a mine theirs = y) ∧
    (keeper = striker → d.resolve a mine theirs = z) ∧
    (keeper = false → striker = true → z.readyBusy = true → z.pair.state = .paired → z.isKeeper = false →
      d.resolve a mine theirs = z.startHandoff 1) ∧
    (keeper = false → striker = true → z.readyBusy = false → d.resolve a mine theirs = z)) ∧
  (∀ (d : Dev) (own theirs : RallyRec),
    let same := fun (r : RallyRec) => decide (r.plane = own.plane) && decide (r.event = own.event)
    let y := d.setPair (fun p => { p with
      own := p.own.filter (fun r => !same r), partner := p.partner.filter (fun r => !same r) })
    (own.lcvs = theirs.lcvs → d.compareRally own theirs = y.matchingLine own.plane.val) ∧
    (∀ p < 64, p ∈ y.portsOf own.plane.val → own.lcvs.getD (p - (y.range own.plane.val).1) 0#32 ≠
        theirs.lcvs.getD (p - (y.range own.plane.val).1) 0#32 →
      d.compareRally own theirs = (((y.bump Fld.PAIR_MISCNT.Count).setPair (fun q => { q with
        arb := q.arb ++ [⟨own.plane.val, own.event, y.differing own.plane.val own theirs, own.pageId, none, none⟩] })).stateKnown
          own.plane.val 0).judgeSuspect own.plane.val own.event)) ∧
  (∀ (s : State) (plane : Fin 8) (event : Nat), s.runs →
    let mine := fun (r : RallyRec) => decide (r.plane = plane) && decide (r.event = event)
    (s.dev.pair.own.any mine = false → Completes (.rallyWaitExpiry plane event) s s.dev s.mem) ∧
    (s.dev.pair.own.any mine = true → ∃ e, Completes (.rallyWaitExpiry plane event) s e s.mem ∧
      e.pair.own = s.dev.pair.own.filter (fun r => !mine r) ∧
      e.rd Fld.PAIR_MISSCNT.Count = (s.dev.rd Fld.PAIR_MISSCNT.Count + 1) % 2 ^ 32 ∧
      e.rd Fld.PAIR_ERR.RallyMissing = 1))

/-- R98, R120, R145, R177, R318, R319, R320, R322, R335, R338, R339, R340: what arrives over the Igmal link and is performed.
Mirrored lines are written whole and acknowledged, the acknowledgement takes them off the oldest messages; a register
message is a write on a keeper and, on a striker, a request for a handoff; sequence messages wait behind a descriptor under
repair; verdicts, session copies and time samples are a keeper's; a repair is asked for, answered, and ends what waited;
resynchronisation data counts while the device is Syncing, and a continued stream's saved state later too, where the keeper
has none; a plane that waits for a stream is not Ready. Messages that need the job store wait while MEM is not ON.
Model choices that this rests on: assumption logs 76, 137, 139. -/
def Obligations.PairMessagesArePerformed : Prop :=
  (∀ (s : State) (lines : List (Nat × Bytes × Bool)) (line : Nat) (finds : Finds) (item : ResyncItem), s.runs →
    (s.dev.memRuns = false →
      Completes (.mirror lines) s ((s.dev.wake 5 8).holdFrame (.mirror lines)) s.mem ∧
      Completes (.repairRequest line finds) s ((s.dev.wake 5 8).holdFrame (.repairRequest line finds)) s.mem ∧
      Completes (.resyncData item) s ((s.dev.wake 5 8).holdFrame (.resyncData item)) s.mem) ∧
    (s.dev.memRuns = true →
      (s.dev.pair.mode = true → s.dev.isKeeper = true → Completes (.mirror lines) s
        (s.dev.emit (.pair (.mirrorAck lines.length)))
        (lines.foldl (fun m l => m.putLine s.dev.now.sec (lineOf l.1) l.2.1 l.2.2) s.mem)) ∧
      (s.dev.pair.mode = false ∨ s.dev.isKeeper = false → Completes (.mirror lines) s s.dev s.mem) ∧
      (s.dev.pair.mode = true → s.dev.pair.state = .syncing →
        Completes (.resyncData item) s (resyncItem s.dev s.mem item).1 (resyncItem s.dev s.mem item).2) ∧
      (s.dev.pair.mode = false ∨ s.dev.pair.state ≠ .syncing → (s.dev.isKeeper = false ∨ ∀ x, item ≠ .stream x) →
        Completes (.resyncData item) s s.dev s.mem) ∧
      (s.dev.pair.mode = true → s.dev.isKeeper = true → ∀ x,
        (s.dev.stream x.number = none →
          Completes (.resyncData (.stream x)) s ((s.dev.setStream x).haveStream x.number) s.mem) ∧
        ((s.dev.stream x.number).isSome = true → Completes (.resyncData (.stream x)) s s.dev s.mem)) ∧
      (s.dev.pair.mode = false → Completes (.repairRequest line finds) s s.dev s.mem) ∧
      (s.dev.pair.mode = true → s.mem.bad finds line = false → foundAs finds .corrected line = false →
        Completes (.repairRequest line finds) s (s.dev.emit (.pair (.repairAnswer line (some (s.mem.read line 64))))) s.mem) ∧
      (s.dev.pair.mode = true → line < s.mem.watermark → s.mem.poison.contains line = true →
        Completes (.repairRequest line finds) s (s.dev.emit (.pair (.repairAnswer line none))) s.mem))) ∧
  (∀ (d : Dev) (n key k j : Nat) (x : StreamSt), d.isKeeper = true → n < 8 →
    (d.pair.gap = true → d.stream k = none → (n, key, k) ∈ (d.lackStream n key k).pair.lacking) ∧
    ((n, key, k) ∈ (d.haveStream j).pair.lacking ↔ (n, key, k) ∈ d.pair.lacking ∧ k ≠ j) ∧
    ((n, key, k) ∈ d.pair.lacking → (∃ r ∈ (d.plane n).runs, r.page = key) → d.readyMask.toNat.testBit n = false) ∧
    (d.setStream x).stream x.number = some x) ∧
  (∀ (s : State) (line : Nat) (bytes : Bytes), s.runs → s.dev.memRuns = true → s.dev.pair.mode = true →
    s.dev.pair.heldFetch = [] →
    let d := s.dev.setPair (fun p => { p with repairs := delNat line p.repairs })
    let ok := takeUpAll ((d.bump Fld.PAIR_RPROK.Count).dropWait line, s.mem.putLine s.dev.now.sec line bytes false)
    let no := takeUpAll (((d.bump Fld.PAIR_RPRFAIL.Count).sticky Fld.PAIR_ERR.RepairFail).endWait line, s.mem)
    Completes (.repairAnswer line (some bytes)) s ok.1 ok.2 ∧ Completes (.repairAnswer line none) s no.1 no.2) ∧
  (∀ (m : Mem) (sec line a : Nat) (bytes : Bytes) (bad : Bool),
    (m.putLine sec line bytes bad).poison.contains line = bad ∧
    (a < line ∨ line + 64 ≤ a → (m.putLine sec line bytes bad).byte a = m.byte a) ∧
    (line ≤ a → a < line + 64 → (m.putLine sec line bytes bad).byte a = bytes.getD (a - line) 0#8)) ∧
  (∀ (s : State) (n : Nat), s.runs →
    let y := settleMirrors (s.dev.setPair (fun p => { p with mirrors := takeMirrorAck n p.mirrors }), s.mem)
    Completes (.mirrorAck n) s y.1 y.2 ∧
    ((takeMirrorAck n s.dev.pair.mirrors).map (fun w => w.left)).sum = (s.dev.pair.mirrors.map (fun w => w.left)).sum - n ∧
    (takeMirrorAck n s.dev.pair.mirrors).length = s.dev.pair.mirrors.length) ∧
  (∀ (s : State) (a : Nat) (v : Word), s.runs →
    (s.dev.pair.mode = false → Completes (.registerMessage a v) s s.dev s.mem) ∧
    (s.dev.pair.mode = true →
      let y := (windowWrite s.dev s.mem .partner [] a v).2
      (s.dev.isKeeper = true → Completes (.registerMessage a v) s y.1 y.2) ∧
      (s.dev.isKeeper = false → a = Adr.PAIR_CTRL → v.toNat.testBit 0 = true →
        Completes (.registerMessage a v) s s.dev.handoff s.mem) ∧
      (s.dev.isKeeper = false → a ≠ Adr.PAIR_CTRL → Completes (.registerMessage a v) s s.dev s.mem))) ∧
  (∀ (s : State) (g : SeqMsg), s.runs →
    (s.dev.pair.mode = false ∨ s.dev.isKeeper = false → Completes (.sequenceMessage g) s s.dev s.mem) ∧
    (s.dev.pair.mode = true → s.dev.isKeeper = true →
      (s.dev.pair.heldFetch ≠ [] → Completes (.sequenceMessage g) s (s.dev.holdFrame (.sequenceMessage g)) s.mem) ∧
      (s.dev.pair.heldFetch = [] →
        Completes (.sequenceMessage .stop) s s.dev.jobStop s.mem ∧ Completes (.sequenceMessage .abort) s s.dev.jobAbort s.mem ∧
        (∀ off crc, Completes (.sequenceMessage (.fetch off crc)) s (s.dev.keeperFetch s.mem off crc) s.mem) ∧
        (∀ n e, Completes (.sequenceMessage (.abandon n e)) s (s.dev.keeperAbandon n.val e) s.mem) ∧
        (∀ c p resume, Completes (.sequenceMessage (.dataLate c p resume)) s (s.dev.keeperLate resume) s.mem) ∧
        (∀ c o t, let y := dmaPrintEvents s.dev ((s.dev.keeperStart c (signedOf 48 o.toNat) t).lackBegun s.mem c.val, s.mem)
          Completes (.sequenceMessage (.pageStart c o t)) s y.1 y.2)))) ∧
  (∀ (s : State) (z : Nat) (state : BitVec 2) (i : Fin 16) (copy : Option SessionCopy) (t : TimeStamp), s.runs →
    (s.dev.pair.mode = true → s.dev.isKeeper = true → z ≤ s.dev.part.maxNozzle →
      Completes (.verdictMessage z state) s (s.dev.setNozzleState z state 2) s.mem) ∧
    (s.dev.pair.mode = false ∨ s.dev.isKeeper = false → Completes (.verdictMessage z state) s s.dev s.mem ∧
      Completes (.sessionMessage i copy) s s.dev s.mem) ∧
    (s.dev.pair.mode = true → s.dev.isKeeper = true →
      let others := s.dev.ojp.copies.filter (fun e => e.1 != i.val)
      Completes (.sessionMessage i none) s (s.dev.setCopies others) s.mem ∧
      ∀ c, Completes (.sessionMessage i (some c)) s
        (s.dev.setCopies (others ++ [(i.val, SessionCopy.session c s.dev.initialRto)])) s.mem) ∧
    (s.dev.isKeeper = false → Completes (.timeMessage t) s s.dev s.mem) ∧
    (s.dev.isKeeper = true → ∃ e, Completes (.timeMessage t) s e s.mem ∧ e.now = stampOf (TimeStamp.fine t) ∧
      e = { s.dev.wr Fld.PAIR_TIMEOFF.Offset (patternOf 32 (clampInt (-2147483648) 2147483647
        (Int.fdiv (TimeStamp.fine s.dev.now - TimeStamp.fine t) (2 ^ 32)))) with now := e.now }))

/-! ### DMA and the check units -/

/-- R411, R413, R415, R416, R418, R419, R422, R424, R426: a producer index beyond the ring is discarded; a working channel
fetches its next descriptor, which waits for its trigger; a copy moves as if every source byte were read first; the record
waits for room, in order; Resume clears Halted, Abort of a channel with no descriptor sets CONS to PROD; Reset frees a check
unit from any state.
Model choices that this rests on: assumption logs 9, 102, 103, 104. -/
def Obligations.DmaFetchesMovesAndRecords : Prop :=
  (∀ (s : State) (path : Sys2Proof.Path) (c : Fin 16) (v : Word), Reaches s path (Adr.DMA_CHPROD c.val) v →
    BitVec.ofNat 32 (v.toNat &&& definedBits (Adr.DMA_CHPROD c.val)) = v →
    let d := s.dev.met path (Adr.DMA_CHPROD c.val) v
    (max 1 (d.rd (Fld.DMA_CHSIZE.Entries c.val)) ≤ v.toNat →
      Completes (.dmaProdWrite path c v) s (d.sticky Fld.DMA_ERR.ProdRange) s.mem) ∧
    (v.toNat < max 1 (d.rd (Fld.DMA_CHSIZE.Entries c.val)) →
      Completes (.dmaProdWrite path c v) s (d.wr (Fld.DMA_CHPROD.Prod c.val) v.toNat) s.mem)) ∧
  (∀ (s : State) (path : Sys2Proof.Path) (v : Word), Reaches s path Adr.DMA_CQCONS v →
    BitVec.ofNat 32 (v.toNat &&& definedBits Adr.DMA_CQCONS) = v → ∃ e, Completes (.dmaCqconsWrite path v) s e s.mem ∧
      e = { s.dev.met path Adr.DMA_CQCONS v with win := e.win } ∧ OnlyFields [Fld.DMA_CQCONS.Cons] (s.dev.met path Adr.DMA_CQCONS v) e ∧
      e.rd Fld.DMA_CQCONS.Cons = v.toNat % 65536) ∧
  (∀ (s : State) (path : Sys2Proof.Path) (c : Fin 16),
    let v (k : Nat) := s.dev.reg (Adr.DMA_CHCTRL c.val) ||| BitVec.ofNat 32 k
    (Reaches s path (Adr.DMA_CHCTRL c.val) (v 2) →
      BitVec.ofNat 32 ((v 2).toNat &&& definedBits (Adr.DMA_CHCTRL c.val)) = v 2 → (v 2).toNat.testBit 2 = false →
      Completes (.dmaResume path c) s ((s.dev.met path (Adr.DMA_CHCTRL c.val) (v 2)).wr (Fld.DMA_CHSTAT.Halted c.val) 0) s.mem) ∧
    (Reaches s path (Adr.DMA_CHCTRL c.val) (v 4) →
      BitVec.ofNat 32 ((v 4).toNat &&& definedBits (Adr.DMA_CHCTRL c.val)) = v 4 → (v 4).toNat.testBit 1 = false →
      let d := s.dev.met path (Adr.DMA_CHCTRL c.val) (v 4)
      let y := dmaAbort d s.mem c.val
      Completes (.dmaAbort path c) s y.1 y.2 ∧
      ((d.dmaChan c.val).phase = .none →
        y = (d.wr (Fld.DMA_CHCONS.Cons c.val) (d.rd (Fld.DMA_CHPROD.Prod c.val)), s.mem)) ∧
      (∀ x, (d.dmaChan c.val).phase = .trigger → (d.dmaChan c.val).desc = some x →
        y = dmaThen (dmaOutcome (d.modDma c.val (fun z => { z with abort := true })) s.mem c.val x 7 0 0 [])))) ∧
  (∀ (s : State) (path : Sys2Proof.Path) (u : Fin 4),
    let v := s.dev.reg (Adr.CRC_CTRL u.val) ||| BitVec.ofNat 32 8
    Reaches s path (Adr.CRC_CTRL u.val) v → BitVec.ofNat 32 (v.toNat &&& definedBits (Adr.CRC_CTRL u.val)) = v →
    let d := s.dev.met path (Adr.CRC_CTRL u.val) v
    let y := unitReset d s.mem u.val
    Completes (.crcReset path u) s y.1 y.2 ∧
    (d.resetUnit u.val).crcUnit u.val = ⟨none, 0, 0⟩ ∧ (d.resetUnit u.val).rd (Fld.CRC_STAT.State u.val) = 0 ∧
    (d.resetUnit u.val).reg (Adr.CRC_STAT u.val) = 0#32) ∧
  (∀ (s : State) (c : Fin 16) (finds : Finds) (t : Fin 8), s.runs →
    let slot := s.dev.rd (Fld.DMA_CHCONS.Cons c.val)
    let base := s.dev.rd (Fld.DMA_CHBASELO.BaseLo c.val) * 32 + s.dev.rd (Fld.DMA_CHBASEHI.BaseHi c.val) * 2 ^ 32
    let x := dmaDescOf slot (s.mem.read (base + 32 * slot) 32) false
    (s.dev.dmaWorks c.val = false ∨ (s.dev.dmaChan c.val).phase ≠ .none →
      Completes (.dmaDescFetch c finds) s s.dev s.mem) ∧
    (s.dev.dmaWorks c.val = true → (s.dev.dmaChan c.val).phase = .none → s.dev.domOn 5 = false →
      Completes (.dmaDescFetch c finds) s (s.dev.wake 5 8) s.mem) ∧
    (s.dev.dmaWorks c.val = true → (s.dev.dmaChan c.val).phase = .none → s.dev.domOn 5 = true →
      base + 32 * max 1 (s.dev.rd (Fld.DMA_CHSIZE.Entries c.val)) ≤ s.dev.jobLimit →
      s.mem.bad finds (lineOf (base + 32 * slot)) = false → x.bad = false →
      ∃ e, Completes (.dmaDescFetch c finds) s e s.mem ∧ e.dmaChan c.val = ⟨.trigger, some x, none, false⟩) ∧
    ((s.dev.dmaChan c.val).desc = none → Completes (.dmaTrigger c) s s.dev s.mem) ∧
    (∀ x, (s.dev.dmaChan c.val).desc = some x → (s.dev.dmaChan c.val).phase = .trigger →
      (x.trigger ≠ 0 → ¬ (x.trigger = 2 ∧ x.trigArg = c.val) → Completes (.dmaTrigger c) s s.dev s.mem) ∧
      (x.trigger = 0 → x.namesUnit = false → s.dev.dmaCheck x = none →
        Completes (.dmaTrigger c) s (s.dev.modDma c.val (fun y => { y with phase := .moving })) s.mem) ∧
      (x.trigger = 0 → x.namesUnit = false → ∀ st, s.dev.dmaCheck x = some st →
        let y := dmaThen (dmaOutcome s.dev s.mem c.val x st 0 0 [])
        Completes (.dmaTrigger c) s y.1 y.2)) ∧
    (s.dev.rd (Fld.DMA_TIMER.Enable t.val) = 0 → Completes (.dmaTimerExpiry t) s s.dev s.mem) ∧
    (s.dev.rd (Fld.DMA_TIMER.Enable t.val) = 1 →
      Completes (.dmaTimerExpiry t) s (dmaEvent (s.dev, s.mem) 1 t.val).1 (dmaEvent (s.dev, s.mem) 1 t.val).2) ∧
    ((s.dev.dmaChan c.val).phase ≠ .moving ∨ s.dev.rd (Fld.DMA_CHCTRL.Enable c.val) = 0 →
      Completes (.dmaComplete c finds) s s.dev s.mem) ∧
    (∀ x, (s.dev.dmaChan c.val).phase = .moving → (s.dev.dmaChan c.val).desc = some x →
      s.dev.rd (Fld.DMA_CHCTRL.Enable c.val) = 1 →
      let v := dmaMove s.dev s.mem finds x none
      let y := dmaThen (dmaMoved c.val x v (v.stop.getD 0))
      Completes (.dmaComplete c finds) s y.1 y.2)) ∧
  (∀ (d : Dev) (m : Mem) (finds : Finds) (x : DmaDesc) (a : Nat), x.gather = false → x.srcSpace = 0 → x.dstSpace = 0 →
    x.feeds = false → m.badLines finds x.src x.count = [] →
    let v := dmaMove d m finds x none
    v.stop = none ∧ v.done = x.count ∧
    v.mem.byte a = if x.dst ≤ a ∧ a < x.dst + x.count then m.seen (x.src + (a - x.dst)) else m.byte a) ∧
  (∀ s : State, s.runs →
    (s.dev.dma.waiting = [] ∨ s.dev.cqFull = true → Completes .dmaRecordWrite s s.dev s.mem) ∧
    (∀ c rest x o e m, s.dev.dma.waiting = c :: rest → s.dev.cqFull = false → (s.dev.dmaChan c).desc = some x →
      (s.dev.dmaChan c).outcome = some o → x.noRecord = false →
      writeRecord { s.dev with dma := { s.dev.dma with waiting := [] } } s.mem c x o = (e, m) →
      let f := e.dmaFinish c
      let y := dmaThen ({ f with dma := { f.dma with waiting := rest ++ f.dma.waiting } }, m, f.dmaFollowers c)
      Completes .dmaRecordWrite s y.1 y.2)) ∧
  (∀ (d e : Dev) (m n : Mem) (c : Nat) (x : DmaDesc) (o : DmaOutcome) (i : Nat), writeRecord d m c x o = (e, n) →
    let a := d.rd Fld.DMA_CQBASELO.BaseLo * 64 + d.rd Fld.DMA_CQBASEHI.BaseHi * 2 ^ 32 + 16 * d.rd Fld.DMA_CQPROD.Prod
    let bs := natLE 2 x.tag ++ natLE 1 c ++ natLE 1 o.status ++ natLE 4 o.bytes ++ natLE 4 x.slot ++ natLE 2 0 ++
      natLE 2 (o.flags + (if d.dma.phase then 0x8000 else 0))
    a + 16 ≤ d.jobLimit → i < 16 → n.byte (a + i) = bs.getD i 0#8)
end

