-- ==== Sys2Proof/Laws/Bits.lean ====
section
/-!
SUPPORT. Laws of bit fields, sparse tables and sorted lists: a field written reads back, its neighbours do not change,
and a table keeps its canonical form.
-/
namespace Sys2Proof.Machine

/-! ### Bit fields -/

theorem bitsOf_eq (n hi lo : Nat) : bitsOf n hi lo = n / 2 ^ lo % 2 ^ (hi + 1 - lo) := by
  simp [bitsOf, Nat.shiftRight_eq_div_pow]

theorem testBit_bitsOf (n hi lo i : Nat) :
    (bitsOf n hi lo).testBit i = (decide (i < hi + 1 - lo) && n.testBit (lo + i)) := by
  simp [bitsOf, Nat.testBit_mod_two_pow, Nat.testBit_shiftRight]

theorem bitsOf_lt (n hi lo : Nat) : bitsOf n hi lo < 2 ^ (hi + 1 - lo) := Nat.mod_lt _ (Nat.two_pow_pos _)

theorem bitsOf_congr {a b hi lo : Nat} (h : ∀ i, lo ≤ i → i ≤ hi → a.testBit i = b.testBit i) :
    bitsOf a hi lo = bitsOf b hi lo := by
  apply Nat.eq_of_testBit_eq
  intro i
  rw [testBit_bitsOf, testBit_bitsOf]
  by_cases hi' : i < hi + 1 - lo
  · rw [h (lo + i) (by omega) (by omega)]
  · simp [hi']

/-- A digit and a remainder fit below the product of their bounds. -/
theorem digit_lt {x y X Y : Nat} (hx : x < X) (hy : y < Y) : x * Y + y < X * Y := by
  have : (x + 1) * Y ≤ X * Y := Nat.mul_le_mul_right Y hx
  rw [Nat.add_mul, Nat.one_mul] at this
  omega

/-- A word's bits with a field's bits taken away, as numbers: the field above the low part and below the high part. -/
theorem field_split (n hi lo : Nat) (h : lo ≤ hi + 1) :
    n = n / 2 ^ (hi + 1) * 2 ^ (hi + 1) + bitsOf n hi lo * 2 ^ lo + n % 2 ^ lo := by
  rw [bitsOf_eq]
  have e : (2 : Nat) ^ (hi + 1) = 2 ^ lo * 2 ^ (hi + 1 - lo) := by
    rw [← Nat.pow_add]; congr 1; omega
  have h1 := Nat.div_add_mod n (2 ^ lo)
  have h2 := Nat.div_add_mod (n / 2 ^ lo) (2 ^ (hi + 1 - lo))
  rw [Nat.div_div_eq_div_mul, ← e] at h2
  calc n = 2 ^ lo * (n / 2 ^ lo) + n % 2 ^ lo := h1.symm
    _ = 2 ^ lo * (2 ^ (hi + 1 - lo) * (n / 2 ^ (hi + 1)) + n / 2 ^ lo % 2 ^ (hi + 1 - lo)) + n % 2 ^ lo := by rw [h2]
    _ = _ := by rw [e]; ring

/-- The value of a word with a field replaced. -/
theorem setBits_toNat (w : Word) (hi lo v : Nat) (hlo : lo ≤ hi) (hhi : hi < 32) :
    (setBits w hi lo v).toNat =
      w.toNat / 2 ^ (hi + 1) * 2 ^ (hi + 1) + v % 2 ^ (hi + 1 - lo) * 2 ^ lo + w.toNat % 2 ^ lo := by
  have hs := field_split w.toNat hi lo (by omega)
  have hm : v % 2 ^ (hi + 1 - lo) < 2 ^ (hi + 1 - lo) := Nat.mod_lt _ (Nat.two_pow_pos _)
  have e : (2 : Nat) ^ (hi + 1) = 2 ^ lo * 2 ^ (hi + 1 - lo) := by
    rw [← Nat.pow_add]; congr 1; omega
  have e32 : (2 : Nat) ^ 32 = 2 ^ (hi + 1) * 2 ^ (31 - hi) := by
    rw [← Nat.pow_add]; congr 1; omega
  have hq : w.toNat / 2 ^ (hi + 1) < 2 ^ (31 - hi) := by
    apply Nat.div_lt_of_lt_mul; rw [← e32]; exact w.isLt
  have hl : w.toNat % 2 ^ lo < 2 ^ lo := Nat.mod_lt _ (Nat.two_pow_pos _)
  have hfit : w.toNat / 2 ^ (hi + 1) * 2 ^ (hi + 1) + v % 2 ^ (hi + 1 - lo) * 2 ^ lo + w.toNat % 2 ^ lo < 2 ^ 32 := by
    have h1 : v % 2 ^ (hi + 1 - lo) * 2 ^ lo + w.toNat % 2 ^ lo < 2 ^ (hi + 1) := by
      rw [e, Nat.mul_comm (2 ^ lo)]; exact digit_lt hm hl
    rw [e32, Nat.add_assoc, Nat.mul_comm (2 ^ (hi + 1)) (2 ^ (31 - hi))]
    exact digit_lt hq h1
  unfold setBits
  simp only [BitVec.toNat_ofNat]
  rw [Nat.mod_eq_of_lt]
  · omega
  · omega

theorem testBit_setBits (w : Word) (hi lo v i : Nat) (hlo : lo ≤ hi) (hhi : hi < 32) :
    (setBits w hi lo v).toNat.testBit i =
      if lo ≤ i ∧ i ≤ hi then v.testBit (i - lo) else w.toNat.testBit i := by
  rw [setBits_toNat w hi lo v hlo hhi]
  have hl : w.toNat % 2 ^ lo < 2 ^ lo := Nat.mod_lt _ (Nat.two_pow_pos _)
  have hm : v % 2 ^ (hi + 1 - lo) < 2 ^ (hi + 1 - lo) := Nat.mod_lt _ (Nat.two_pow_pos _)
  have e : (2 : Nat) ^ (hi + 1) = 2 ^ lo * 2 ^ (hi + 1 - lo) := by
    rw [← Nat.pow_add]; congr 1; omega
  have h1 : v % 2 ^ (hi + 1 - lo) * 2 ^ lo + w.toNat % 2 ^ lo < 2 ^ (hi + 1) := by
    rw [e, Nat.mul_comm (2 ^ lo)]; exact digit_lt hm hl
  rw [Nat.add_assoc, Nat.mul_comm (w.toNat / 2 ^ (hi + 1)), Nat.testBit_two_pow_mul_add _ h1]
  by_cases hi1 : i < hi + 1
  · rw [if_pos hi1, Nat.mul_comm (v % _), Nat.testBit_two_pow_mul_add _ hl]
    by_cases hi2 : i < lo
    · rw [if_pos hi2, if_neg (by omega), Nat.testBit_mod_two_pow]; simp [hi2]
    · rw [if_neg hi2, if_pos (by omega), Nat.testBit_mod_two_pow]
      simp only [Bool.and_eq_right_iff_imp]
      intro; simp; omega
  · rw [if_neg hi1, if_neg (by omega), Nat.testBit_div_two_pow]
    congr 1; omega

/-- A field reads back what was written, cut to its width. -/
theorem bitsOf_setBits_same (w : Word) (hi lo v : Nat) (hlo : lo ≤ hi) (hhi : hi < 32) :
    bitsOf (setBits w hi lo v).toNat hi lo = v % 2 ^ (hi + 1 - lo) := by
  apply Nat.eq_of_testBit_eq
  intro i
  rw [testBit_bitsOf, testBit_setBits w hi lo v _ hlo hhi, Nat.testBit_mod_two_pow]
  by_cases h : i < hi + 1 - lo
  · rw [if_pos (by omega)]; simp
  · simp [h]

/-- A field that shares no bit with the one written keeps its value. -/
theorem bitsOf_setBits_ne (w : Word) (hi lo v h2 l2 : Nat) (hlo : lo ≤ hi) (hhi : hi < 32) (hd : h2 < lo ∨ hi < l2) :
    bitsOf (setBits w hi lo v).toNat h2 l2 = bitsOf w.toNat h2 l2 := by
  apply bitsOf_congr
  intro i h1 h3
  rw [testBit_setBits w hi lo v i hlo hhi, if_neg (by omega)]

/-! ### Sparse tables -/

section
variable {α : Type} [DecidableEq α]

theorem spGet_spPut_same (d x : α) (a : Nat) : ∀ l : List (Nat × α), spGet d (spPut d a x l) a = x
  | [] => by by_cases h : x = d <;> simp [spPut, spGet, h]
  | (k, v) :: l => by
    have ih := spGet_spPut_same d x a l
    by_cases h : k = a
    · by_cases hx : x = d
      · simp only [spPut, if_pos h, if_pos hx]; exact ih
      · simp [spPut, if_pos h, if_neg hx, spGet]
    · by_cases h2 : a < k ∧ x ≠ d
      · simp only [spPut, if_neg h, if_pos h2, spGet, if_true]
      · simp only [spPut, if_neg h, if_neg h2, spGet]; exact ih

theorem spGet_spPut_ne (c d x : α) {a b : Nat} (h : b ≠ a) :
    ∀ l : List (Nat × α), spGet c (spPut d a x l) b = spGet c l b
  | [] => by
    by_cases hx : x = d
    · simp [spPut, hx]
    · have : ¬ a = b := fun e => h e.symm
      simp [spPut, hx, spGet, this]
  | (k, v) :: l => by
    have ih := spGet_spPut_ne c d x h l
    have hab : ¬ a = b := fun e => h e.symm
    by_cases hk : k = a
    · by_cases hx : x = d
      · simp only [spPut, if_pos hk, if_pos hx, spGet]
        rw [ih, if_neg (by rw [hk]; exact hab)]
      · simp [spPut, if_neg hx, spGet, hk, hab]
    · by_cases h2 : a < k ∧ x ≠ d
      · simp only [spPut, if_neg hk, if_pos h2, spGet, if_neg hab]
      · simp only [spPut, if_neg hk, if_neg h2, spGet]; rw [ih]

omit [DecidableEq α] in
/-- Keys strictly rising, as a relation between neighbours in the list. -/
theorem spSorted_iff (l : List (Nat × α)) : spSorted l = true ↔ l.Pairwise (fun x y => x.1 < y.1) := by
  induction l with
  | nil => simp [spSorted]
  | cons e l ih =>
    obtain ⟨i, x⟩ := e
    cases l with
    | nil => simp [spSorted]
    | cons f l =>
      obtain ⟨j, y⟩ := f
      simp only [spSorted, Bool.and_eq_true, decide_eq_true_eq, ih]
      constructor
      · rintro ⟨hij, hp⟩
        refine List.Pairwise.cons ?_ hp
        intro z hz
        rcases List.mem_cons.1 hz with rfl | hz
        · exact hij
        · exact Nat.lt_trans hij (List.rel_of_pairwise_cons hp hz)
      · intro hp
        exact ⟨List.rel_of_pairwise_cons hp (List.mem_cons_self ..), hp.of_cons⟩

theorem mem_spPut {d x : α} {a : Nat} : ∀ {l : List (Nat × α)} {e : Nat × α}, e ∈ spPut d a x l →
    (e = (a, x) ∧ x ≠ d) ∨ e ∈ l
  | [], e, h => by
    by_cases hx : x = d
    · simp [spPut, hx] at h
    · simp [spPut, hx] at h; exact .inl ⟨h, hx⟩
  | (k, v) :: l, e, h => by
    by_cases hk : k = a
    · by_cases hx : x = d
      · simp only [spPut, if_pos hk, if_pos hx] at h
        rcases mem_spPut h with h | h
        · exact .inl h
        · exact .inr (List.mem_cons_of_mem _ h)
      · simp only [spPut, if_pos hk, if_neg hx, List.mem_cons] at h
        rcases h with h | h
        · exact .inl ⟨h, hx⟩
        · exact .inr (List.mem_cons_of_mem _ h)
    · by_cases h2 : a < k ∧ x ≠ d
      · simp only [spPut, if_neg hk, if_pos h2, List.mem_cons] at h
        rcases h with h | h
        · exact .inl ⟨h, h2.2⟩
        · exact .inr (List.mem_cons.2 h)
      · simp only [spPut, if_neg hk, if_neg h2, List.mem_cons] at h
        rcases h with h | h
        · exact .inr (by rw [h]; exact List.mem_cons_self ..)
        · rcases mem_spPut h with h | h
          · exact .inl h
          · exact .inr (List.mem_cons_of_mem _ h)

/-- Setting a key keeps the keys strictly rising. -/
theorem spSorted_spPut {d x : α} {a : Nat} : ∀ {l : List (Nat × α)}, spSorted l = true → spSorted (spPut d a x l) = true
  | [], _ => by by_cases hx : x = d <;> simp [spPut, hx, spSorted]
  | (k, v) :: l, h => by
    have hp := (spSorted_iff _).1 h
    have hl : spSorted l = true := (spSorted_iff _).2 hp.of_cons
    by_cases hk : k = a
    · by_cases hx : x = d
      · simp only [spPut, if_pos hk, if_pos hx]; exact spSorted_spPut hl
      · simp only [spPut, if_pos hk, if_neg hx]
        subst hk
        exact (spSorted_iff _).2 (List.pairwise_cons.2 ⟨fun z hz => List.rel_of_pairwise_cons hp hz, hp.of_cons⟩)
    · by_cases h2 : a < k ∧ x ≠ d
      · simp only [spPut, if_neg hk, if_pos h2]
        refine (spSorted_iff _).2 (List.pairwise_cons.2 ⟨?_, hp⟩)
        intro z hz
        rcases List.mem_cons.1 hz with rfl | hz
        · exact h2.1
        · exact Nat.lt_trans h2.1 (List.rel_of_pairwise_cons hp hz)
      · simp only [spPut, if_neg hk, if_neg h2]
        refine (spSorted_iff _).2 (List.pairwise_cons.2 ⟨?_, (spSorted_iff _).1 (spSorted_spPut hl)⟩)
        intro z hz
        rcases mem_spPut hz with ⟨rfl, hx⟩ | hz
        · have : ¬ a < k := fun hlt => h2 ⟨hlt, hx⟩
          show k < a
          omega
        · exact List.rel_of_pairwise_cons hp hz

theorem all_spPut {d x : α} {a : Nat} {l : List (Nat × α)} (h : ∀ e ∈ l, e.2 ≠ d) : ∀ e ∈ spPut d a x l, e.2 ≠ d := by
  intro e he
  rcases mem_spPut he with ⟨rfl, hx⟩ | he
  · exact hx
  · exact h e he

end

end Sys2Proof.Machine
end

