-- ==== Sys2Proof/Laws/State.lean ====
section
/-!
SUPPORT. Laws of the registers and of the state's updates: for each update and each field of the device, what the field
holds afterwards; a register or field written reads back, and every other keeps its value.
-/
namespace Sys2Proof.Machine

/-! ### Fields under the updates of registers -/

@[simp] theorem setReg_part (d : Dev) (a : Nat) (w : Word) : (d.setReg a w).part = d.part := rfl
@[simp] theorem setReg_devNum (d : Dev) (a : Nat) (w : Word) : (d.setReg a w).devNum = d.devNum := rfl
@[simp] theorem setReg_act (d : Dev) (a : Nat) (w : Word) : (d.setReg a w).act = d.act := rfl
@[simp] theorem setReg_now (d : Dev) (a : Nat) (w : Word) : (d.setReg a w).now = d.now := rfl
@[simp] theorem setReg_rep (d : Dev) (a : Nat) (w : Word) : (d.setReg a w).rep = d.rep := rfl
@[simp] theorem setReg_job (d : Dev) (a : Nat) (w : Word) : (d.setReg a w).job = d.job := rfl
@[simp] theorem setReg_dec (d : Dev) (a : Nat) (w : Word) : (d.setReg a w).dec = d.dec := rfl
@[simp] theorem setReg_ras (d : Dev) (a : Nat) (w : Word) : (d.setReg a w).ras = d.ras := rfl
@[simp] theorem setReg_lt (d : Dev) (a : Nat) (w : Word) : (d.setReg a w).lt = d.lt := rfl
@[simp] theorem setReg_hp (d : Dev) (a : Nat) (w : Word) : (d.setReg a w).hp = d.hp := rfl
@[simp] theorem setReg_dd (d : Dev) (a : Nat) (w : Word) : (d.setReg a w).dd = d.dd := rfl
@[simp] theorem setReg_mot (d : Dev) (a : Nat) (w : Word) : (d.setReg a w).mot = d.mot := rfl
@[simp] theorem setReg_ojp (d : Dev) (a : Nat) (w : Word) : (d.setReg a w).ojp = d.ojp := rfl
@[simp] theorem setReg_pair (d : Dev) (a : Nat) (w : Word) : (d.setReg a w).pair = d.pair := rfl
@[simp] theorem setReg_pwr (d : Dev) (a : Nat) (w : Word) : (d.setReg a w).pwr = d.pwr := rfl
@[simp] theorem setReg_boot (d : Dev) (a : Nat) (w : Word) : (d.setReg a w).boot = d.boot := rfl
@[simp] theorem setReg_memc (d : Dev) (a : Nat) (w : Word) : (d.setReg a w).memc = d.memc := rfl
@[simp] theorem setReg_jnl (d : Dev) (a : Nat) (w : Word) : (d.setReg a w).jnl = d.jnl := rfl
@[simp] theorem setReg_lane (d : Dev) (a : Nat) (w : Word) : (d.setReg a w).lane = d.lane := rfl
@[simp] theorem setReg_time (d : Dev) (a : Nat) (w : Word) : (d.setReg a w).time = d.time := rfl
@[simp] theorem setReg_dma (d : Dev) (a : Nat) (w : Word) : (d.setReg a w).dma = d.dma := rfl
@[simp] theorem setReg_fire (d : Dev) (a : Nat) (w : Word) : (d.setReg a w).fire = d.fire := rfl
@[simp] theorem setReg_out (d : Dev) (a : Nat) (w : Word) : (d.setReg a w).out = d.out := rfl
@[simp] theorem setReg_free (d : Dev) (a : Nat) (w : Word) : (d.setReg a w).free = d.free := rfl

@[simp] theorem wr_part (d : Dev) (f : FieldRef) (v : Nat) : (d.wr f v).part = d.part := rfl
@[simp] theorem wr_devNum (d : Dev) (f : FieldRef) (v : Nat) : (d.wr f v).devNum = d.devNum := rfl
@[simp] theorem wr_act (d : Dev) (f : FieldRef) (v : Nat) : (d.wr f v).act = d.act := rfl
@[simp] theorem wr_now (d : Dev) (f : FieldRef) (v : Nat) : (d.wr f v).now = d.now := rfl
@[simp] theorem wr_rep (d : Dev) (f : FieldRef) (v : Nat) : (d.wr f v).rep = d.rep := rfl
@[simp] theorem wr_job (d : Dev) (f : FieldRef) (v : Nat) : (d.wr f v).job = d.job := rfl
@[simp] theorem wr_dec (d : Dev) (f : FieldRef) (v : Nat) : (d.wr f v).dec = d.dec := rfl
@[simp] theorem wr_ras (d : Dev) (f : FieldRef) (v : Nat) : (d.wr f v).ras = d.ras := rfl
@[simp] theorem wr_lt (d : Dev) (f : FieldRef) (v : Nat) : (d.wr f v).lt = d.lt := rfl
@[simp] theorem wr_hp (d : Dev) (f : FieldRef) (v : Nat) : (d.wr f v).hp = d.hp := rfl
@[simp] theorem wr_dd (d : Dev) (f : FieldRef) (v : Nat) : (d.wr f v).dd = d.dd := rfl
@[simp] theorem wr_mot (d : Dev) (f : FieldRef) (v : Nat) : (d.wr f v).mot = d.mot := rfl
@[simp] theorem wr_ojp (d : Dev) (f : FieldRef) (v : Nat) : (d.wr f v).ojp = d.ojp := rfl
@[simp] theorem wr_pair (d : Dev) (f : FieldRef) (v : Nat) : (d.wr f v).pair = d.pair := rfl
@[simp] theorem wr_pwr (d : Dev) (f : FieldRef) (v : Nat) : (d.wr f v).pwr = d.pwr := rfl
@[simp] theorem wr_boot (d : Dev) (f : FieldRef) (v : Nat) : (d.wr f v).boot = d.boot := rfl
@[simp] theorem wr_memc (d : Dev) (f : FieldRef) (v : Nat) : (d.wr f v).memc = d.memc := rfl
@[simp] theorem wr_jnl (d : Dev) (f : FieldRef) (v : Nat) : (d.wr f v).jnl = d.jnl := rfl
@[simp] theorem wr_lane (d : Dev) (f : FieldRef) (v : Nat) : (d.wr f v).lane = d.lane := rfl
@[simp] theorem wr_time (d : Dev) (f : FieldRef) (v : Nat) : (d.wr f v).time = d.time := rfl
@[simp] theorem wr_dma (d : Dev) (f : FieldRef) (v : Nat) : (d.wr f v).dma = d.dma := rfl
@[simp] theorem wr_fire (d : Dev) (f : FieldRef) (v : Nat) : (d.wr f v).fire = d.fire := rfl
@[simp] theorem wr_out (d : Dev) (f : FieldRef) (v : Nat) : (d.wr f v).out = d.out := rfl
@[simp] theorem wr_free (d : Dev) (f : FieldRef) (v : Nat) : (d.wr f v).free = d.free := rfl

@[simp] theorem sticky_part (d : Dev) (f : FieldRef) : (d.sticky f).part = d.part := rfl
@[simp] theorem sticky_devNum (d : Dev) (f : FieldRef) : (d.sticky f).devNum = d.devNum := rfl
@[simp] theorem sticky_act (d : Dev) (f : FieldRef) : (d.sticky f).act = d.act := rfl
@[simp] theorem sticky_now (d : Dev) (f : FieldRef) : (d.sticky f).now = d.now := rfl
@[simp] theorem sticky_rep (d : Dev) (f : FieldRef) : (d.sticky f).rep = d.rep := rfl
@[simp] theorem sticky_job (d : Dev) (f : FieldRef) : (d.sticky f).job = d.job := rfl
@[simp] theorem sticky_dec (d : Dev) (f : FieldRef) : (d.sticky f).dec = d.dec := rfl
@[simp] theorem sticky_ras (d : Dev) (f : FieldRef) : (d.sticky f).ras = d.ras := rfl
@[simp] theorem sticky_lt (d : Dev) (f : FieldRef) : (d.sticky f).lt = d.lt := rfl
@[simp] theorem sticky_hp (d : Dev) (f : FieldRef) : (d.sticky f).hp = d.hp := rfl
@[simp] theorem sticky_dd (d : Dev) (f : FieldRef) : (d.sticky f).dd = d.dd := rfl
@[simp] theorem sticky_mot (d : Dev) (f : FieldRef) : (d.sticky f).mot = d.mot := rfl
@[simp] theorem sticky_ojp (d : Dev) (f : FieldRef) : (d.sticky f).ojp = d.ojp := rfl
@[simp] theorem sticky_pair (d : Dev) (f : FieldRef) : (d.sticky f).pair = d.pair := rfl
@[simp] theorem sticky_pwr (d : Dev) (f : FieldRef) : (d.sticky f).pwr = d.pwr := rfl
@[simp] theorem sticky_boot (d : Dev) (f : FieldRef) : (d.sticky f).boot = d.boot := rfl
@[simp] theorem sticky_memc (d : Dev) (f : FieldRef) : (d.sticky f).memc = d.memc := rfl
@[simp] theorem sticky_jnl (d : Dev) (f : FieldRef) : (d.sticky f).jnl = d.jnl := rfl
@[simp] theorem sticky_lane (d : Dev) (f : FieldRef) : (d.sticky f).lane = d.lane := rfl
@[simp] theorem sticky_time (d : Dev) (f : FieldRef) : (d.sticky f).time = d.time := rfl
@[simp] theorem sticky_dma (d : Dev) (f : FieldRef) : (d.sticky f).dma = d.dma := rfl
@[simp] theorem sticky_fire (d : Dev) (f : FieldRef) : (d.sticky f).fire = d.fire := rfl
@[simp] theorem sticky_out (d : Dev) (f : FieldRef) : (d.sticky f).out = d.out := rfl
@[simp] theorem sticky_free (d : Dev) (f : FieldRef) : (d.sticky f).free = d.free := rfl

@[simp] theorem bump_part (d : Dev) (f : FieldRef) : (d.bump f).part = d.part := rfl
@[simp] theorem bump_devNum (d : Dev) (f : FieldRef) : (d.bump f).devNum = d.devNum := rfl
@[simp] theorem bump_act (d : Dev) (f : FieldRef) : (d.bump f).act = d.act := rfl
@[simp] theorem bump_now (d : Dev) (f : FieldRef) : (d.bump f).now = d.now := rfl
@[simp] theorem bump_rep (d : Dev) (f : FieldRef) : (d.bump f).rep = d.rep := rfl
@[simp] theorem bump_job (d : Dev) (f : FieldRef) : (d.bump f).job = d.job := rfl
@[simp] theorem bump_dec (d : Dev) (f : FieldRef) : (d.bump f).dec = d.dec := rfl
@[simp] theorem bump_ras (d : Dev) (f : FieldRef) : (d.bump f).ras = d.ras := rfl
@[simp] theorem bump_lt (d : Dev) (f : FieldRef) : (d.bump f).lt = d.lt := rfl
@[simp] theorem bump_hp (d : Dev) (f : FieldRef) : (d.bump f).hp = d.hp := rfl
@[simp] theorem bump_dd (d : Dev) (f : FieldRef) : (d.bump f).dd = d.dd := rfl
@[simp] theorem bump_mot (d : Dev) (f : FieldRef) : (d.bump f).mot = d.mot := rfl
@[simp] theorem bump_ojp (d : Dev) (f : FieldRef) : (d.bump f).ojp = d.ojp := rfl
@[simp] theorem bump_pair (d : Dev) (f : FieldRef) : (d.bump f).pair = d.pair := rfl
@[simp] theorem bump_pwr (d : Dev) (f : FieldRef) : (d.bump f).pwr = d.pwr := rfl
@[simp] theorem bump_boot (d : Dev) (f : FieldRef) : (d.bump f).boot = d.boot := rfl
@[simp] theorem bump_memc (d : Dev) (f : FieldRef) : (d.bump f).memc = d.memc := rfl
@[simp] theorem bump_jnl (d : Dev) (f : FieldRef) : (d.bump f).jnl = d.jnl := rfl
@[simp] theorem bump_lane (d : Dev) (f : FieldRef) : (d.bump f).lane = d.lane := rfl
@[simp] theorem bump_time (d : Dev) (f : FieldRef) : (d.bump f).time = d.time := rfl
@[simp] theorem bump_dma (d : Dev) (f : FieldRef) : (d.bump f).dma = d.dma := rfl
@[simp] theorem bump_fire (d : Dev) (f : FieldRef) : (d.bump f).fire = d.fire := rfl
@[simp] theorem bump_out (d : Dev) (f : FieldRef) : (d.bump f).out = d.out := rfl
@[simp] theorem bump_free (d : Dev) (f : FieldRef) : (d.bump f).free = d.free := rfl

@[simp] theorem bumpSat_part (d : Dev) (f : FieldRef) (n : Nat) : (d.bumpSat f n).part = d.part := rfl
@[simp] theorem bumpSat_devNum (d : Dev) (f : FieldRef) (n : Nat) : (d.bumpSat f n).devNum = d.devNum := rfl
@[simp] theorem bumpSat_act (d : Dev) (f : FieldRef) (n : Nat) : (d.bumpSat f n).act = d.act := rfl
@[simp] theorem bumpSat_now (d : Dev) (f : FieldRef) (n : Nat) : (d.bumpSat f n).now = d.now := rfl
@[simp] theorem bumpSat_rep (d : Dev) (f : FieldRef) (n : Nat) : (d.bumpSat f n).rep = d.rep := rfl
@[simp] theorem bumpSat_job (d : Dev) (f : FieldRef) (n : Nat) : (d.bumpSat f n).job = d.job := rfl
@[simp] theorem bumpSat_dec (d : Dev) (f : FieldRef) (n : Nat) : (d.bumpSat f n).dec = d.dec := rfl
@[simp] theorem bumpSat_ras (d : Dev) (f : FieldRef) (n : Nat) : (d.bumpSat f n).ras = d.ras := rfl
@[simp] theorem bumpSat_lt (d : Dev) (f : FieldRef) (n : Nat) : (d.bumpSat f n).lt = d.lt := rfl
@[simp] theorem bumpSat_hp (d : Dev) (f : FieldRef) (n : Nat) : (d.bumpSat f n).hp = d.hp := rfl
@[simp] theorem bumpSat_dd (d : Dev) (f : FieldRef) (n : Nat) : (d.bumpSat f n).dd = d.dd := rfl
@[simp] theorem bumpSat_mot (d : Dev) (f : FieldRef) (n : Nat) : (d.bumpSat f n).mot = d.mot := rfl
@[simp] theorem bumpSat_ojp (d : Dev) (f : FieldRef) (n : Nat) : (d.bumpSat f n).ojp = d.ojp := rfl
@[simp] theorem bumpSat_pair (d : Dev) (f : FieldRef) (n : Nat) : (d.bumpSat f n).pair = d.pair := rfl
@[simp] theorem bumpSat_pwr (d : Dev) (f : FieldRef) (n : Nat) : (d.bumpSat f n).pwr = d.pwr := rfl
@[simp] theorem bumpSat_boot (d : Dev) (f : FieldRef) (n : Nat) : (d.bumpSat f n).boot = d.boot := rfl
@[simp] theorem bumpSat_memc (d : Dev) (f : FieldRef) (n : Nat) : (d.bumpSat f n).memc = d.memc := rfl
@[simp] theorem bumpSat_jnl (d : Dev) (f : FieldRef) (n : Nat) : (d.bumpSat f n).jnl = d.jnl := rfl
@[simp] theorem bumpSat_lane (d : Dev) (f : FieldRef) (n : Nat) : (d.bumpSat f n).lane = d.lane := rfl
@[simp] theorem bumpSat_time (d : Dev) (f : FieldRef) (n : Nat) : (d.bumpSat f n).time = d.time := rfl
@[simp] theorem bumpSat_dma (d : Dev) (f : FieldRef) (n : Nat) : (d.bumpSat f n).dma = d.dma := rfl
@[simp] theorem bumpSat_fire (d : Dev) (f : FieldRef) (n : Nat) : (d.bumpSat f n).fire = d.fire := rfl
@[simp] theorem bumpSat_out (d : Dev) (f : FieldRef) (n : Nat) : (d.bumpSat f n).out = d.out := rfl
@[simp] theorem bumpSat_free (d : Dev) (f : FieldRef) (n : Nat) : (d.bumpSat f n).free = d.free := rfl

/-! ### Fields under what leaves the device and a draw -/

@[simp] theorem emit_part (d : Dev) (o : Out) : (d.emit o).part = d.part := rfl
@[simp] theorem emit_devNum (d : Dev) (o : Out) : (d.emit o).devNum = d.devNum := rfl
@[simp] theorem emit_win (d : Dev) (o : Out) : (d.emit o).win = d.win := rfl
@[simp] theorem emit_act (d : Dev) (o : Out) : (d.emit o).act = d.act := rfl
@[simp] theorem emit_now (d : Dev) (o : Out) : (d.emit o).now = d.now := rfl
@[simp] theorem emit_rep (d : Dev) (o : Out) : (d.emit o).rep = d.rep := rfl
@[simp] theorem emit_job (d : Dev) (o : Out) : (d.emit o).job = d.job := rfl
@[simp] theorem emit_dec (d : Dev) (o : Out) : (d.emit o).dec = d.dec := rfl
@[simp] theorem emit_ras (d : Dev) (o : Out) : (d.emit o).ras = d.ras := rfl
@[simp] theorem emit_lt (d : Dev) (o : Out) : (d.emit o).lt = d.lt := rfl
@[simp] theorem emit_hp (d : Dev) (o : Out) : (d.emit o).hp = d.hp := rfl
@[simp] theorem emit_dd (d : Dev) (o : Out) : (d.emit o).dd = d.dd := rfl
@[simp] theorem emit_mot (d : Dev) (o : Out) : (d.emit o).mot = d.mot := rfl
@[simp] theorem emit_ojp (d : Dev) (o : Out) : (d.emit o).ojp = d.ojp := rfl
@[simp] theorem emit_pair (d : Dev) (o : Out) : (d.emit o).pair = d.pair := rfl
@[simp] theorem emit_pwr (d : Dev) (o : Out) : (d.emit o).pwr = d.pwr := rfl
@[simp] theorem emit_boot (d : Dev) (o : Out) : (d.emit o).boot = d.boot := rfl
@[simp] theorem emit_memc (d : Dev) (o : Out) : (d.emit o).memc = d.memc := rfl
@[simp] theorem emit_jnl (d : Dev) (o : Out) : (d.emit o).jnl = d.jnl := rfl
@[simp] theorem emit_lane (d : Dev) (o : Out) : (d.emit o).lane = d.lane := rfl
@[simp] theorem emit_time (d : Dev) (o : Out) : (d.emit o).time = d.time := rfl
@[simp] theorem emit_dma (d : Dev) (o : Out) : (d.emit o).dma = d.dma := rfl
@[simp] theorem emit_fire (d : Dev) (o : Out) : (d.emit o).fire = d.fire := rfl
@[simp] theorem emit_out (d : Dev) (o : Out) : (d.emit o).out = d.out ++ [o] := rfl
@[simp] theorem emit_free (d : Dev) (o : Out) : (d.emit o).free = d.free := rfl

@[simp] theorem draw_part (d : Dev) : d.draw.part = d.part := rfl
@[simp] theorem draw_devNum (d : Dev) : d.draw.devNum = d.devNum := rfl
@[simp] theorem draw_win (d : Dev) : d.draw.win = d.win := rfl
@[simp] theorem draw_act (d : Dev) : d.draw.act = d.act := rfl
@[simp] theorem draw_now (d : Dev) : d.draw.now = d.now := rfl
@[simp] theorem draw_rep (d : Dev) : d.draw.rep = d.rep := rfl
@[simp] theorem draw_job (d : Dev) : d.draw.job = d.job := rfl
@[simp] theorem draw_dec (d : Dev) : d.draw.dec = d.dec := rfl
@[simp] theorem draw_ras (d : Dev) : d.draw.ras = d.ras := rfl
@[simp] theorem draw_lt (d : Dev) : d.draw.lt = d.lt := rfl
@[simp] theorem draw_hp (d : Dev) : d.draw.hp = d.hp := rfl
@[simp] theorem draw_dd (d : Dev) : d.draw.dd = d.dd := rfl
@[simp] theorem draw_mot (d : Dev) : d.draw.mot = d.mot := rfl
@[simp] theorem draw_ojp (d : Dev) : d.draw.ojp = d.ojp := rfl
@[simp] theorem draw_pair (d : Dev) : d.draw.pair = d.pair := rfl
@[simp] theorem draw_pwr (d : Dev) : d.draw.pwr = d.pwr := rfl
@[simp] theorem draw_boot (d : Dev) : d.draw.boot = d.boot := rfl
@[simp] theorem draw_memc (d : Dev) : d.draw.memc = d.memc := rfl
@[simp] theorem draw_jnl (d : Dev) : d.draw.jnl = d.jnl := rfl
@[simp] theorem draw_lane (d : Dev) : d.draw.lane = d.lane := rfl
@[simp] theorem draw_time (d : Dev) : d.draw.time = d.time := rfl
@[simp] theorem draw_dma (d : Dev) : d.draw.dma = d.dma := rfl
@[simp] theorem draw_fire (d : Dev) : d.draw.fire = d.fire := rfl
@[simp] theorem draw_out (d : Dev) : d.draw.out = d.out := rfl
@[simp] theorem draw_free (d : Dev) : d.draw.free = d.free + 1 := rfl

/-! ### Registers -/

/-- Devices with the same part and the same stored words hold the same registers. -/
theorem reg_congr {d e : Dev} (hp : e.part = d.part) (hw : e.win = d.win) (a : Nat) : e.reg a = d.reg a := by
  simp only [Dev.reg, hp, hw]

theorem rd_congr {d e : Dev} (hp : e.part = d.part) (hw : e.win = d.win) (f : FieldRef) : e.rd f = d.rd f := by
  simp only [Dev.rd, reg_congr hp hw]

@[simp] theorem reg_setReg_same (d : Dev) (a : Nat) (w : Word) : (d.setReg a w).reg a = w := spGet_spPut_same ..

theorem reg_setReg_ne (d : Dev) {a b : Nat} (w : Word) (h : b ≠ a) : (d.setReg a w).reg b = d.reg b :=
  spGet_spPut_ne _ _ _ h d.win

theorem reg_wr_same (d : Dev) (f : FieldRef) (v : Nat) :
    (d.wr f v).reg f.addr = setBits (d.reg f.addr) f.hi f.lo v := reg_setReg_same ..

theorem reg_wr_ne (d : Dev) {f : FieldRef} {b : Nat} (v : Nat) (h : b ≠ f.addr) : (d.wr f v).reg b = d.reg b :=
  reg_setReg_ne _ _ h

/-- A field lies inside a word. -/
def FieldRef.ok (f : FieldRef) : Bool := decide (f.lo ≤ f.hi ∧ f.hi < 32)

/-- Two fields share no bit of the window. -/
def FieldRef.apart (f g : FieldRef) : Bool := decide (f.addr ≠ g.addr ∨ g.hi < f.lo ∨ f.hi < g.lo)

/-- A field written reads back, cut to its width. -/
theorem rd_wr_same (d : Dev) (f : FieldRef) (v : Nat) (h : f.ok = true) :
    (d.wr f v).rd f = v % 2 ^ (f.hi + 1 - f.lo) := by
  simp only [FieldRef.ok, decide_eq_true_eq] at h
  rw [Dev.rd, reg_wr_same, bitsOf_setBits_same _ _ _ _ h.1 h.2]

/-- A field apart from the one written keeps its value. -/
theorem rd_wr_ne (d : Dev) (f g : FieldRef) (v : Nat) (h : f.ok = true) (ha : f.apart g = true) :
    (d.wr f v).rd g = d.rd g := by
  simp only [FieldRef.ok, FieldRef.apart, decide_eq_true_eq] at h ha
  by_cases e : f.addr = g.addr
  · rw [Dev.rd, Dev.rd, ← e, reg_wr_same, bitsOf_setBits_ne _ _ _ _ _ _ h.1 h.2]
    rcases ha with ha | ha | ha
    · exact absurd e ha
    · exact .inl ha
    · exact .inr ha
  · rw [Dev.rd, Dev.rd, reg_wr_ne d v (fun h => e h.symm)]

/-- A field set to what it holds changes no register. -/
theorem rd_lt (d : Dev) (f : FieldRef) : d.rd f < 2 ^ (f.hi + 1 - f.lo) := bitsOf_lt ..

theorem rd_sticky_same (d : Dev) (f : FieldRef) (h : f.ok = true) : (d.sticky f).rd f = 1 := by
  have h2 := h
  simp only [FieldRef.ok, decide_eq_true_eq] at h2
  rw [Dev.sticky, rd_wr_same d f 1 h]
  apply Nat.mod_eq_of_lt
  exact Nat.one_lt_two_pow (by omega)

theorem rd_sticky_ne (d : Dev) (f g : FieldRef) (h : f.ok = true) (ha : f.apart g = true) :
    (d.sticky f).rd g = d.rd g := rd_wr_ne d f g 1 h ha

theorem reg_sticky_ne (d : Dev) {f : FieldRef} {b : Nat} (h : b ≠ f.addr) : (d.sticky f).reg b = d.reg b :=
  reg_wr_ne d 1 h

theorem rd_bump_same (d : Dev) (f : FieldRef) (h : f.ok = true) :
    (d.bump f).rd f = (d.rd f + 1) % 2 ^ (f.hi + 1 - f.lo) := rd_wr_same d f _ h

theorem rd_bump_ne (d : Dev) (f g : FieldRef) (h : f.ok = true) (ha : f.apart g = true) :
    (d.bump f).rd g = d.rd g := rd_wr_ne d f g _ h ha

theorem reg_bump_ne (d : Dev) {f : FieldRef} {b : Nat} (h : b ≠ f.addr) : (d.bump f).reg b = d.reg b := reg_wr_ne d _ h

theorem reg_bumpSat_ne (d : Dev) {f : FieldRef} {b : Nat} (n : Nat) (h : b ≠ f.addr) :
    (d.bumpSat f n).reg b = d.reg b := reg_wr_ne d _ h

@[simp] theorem reg_emit (d : Dev) (o : Out) (a : Nat) : (d.emit o).reg a = d.reg a := rfl
@[simp] theorem rd_emit (d : Dev) (o : Out) (f : FieldRef) : (d.emit o).rd f = d.rd f := rfl
@[simp] theorem reg_draw (d : Dev) (a : Nat) : d.draw.reg a = d.reg a := rfl
@[simp] theorem rd_draw (d : Dev) (f : FieldRef) : d.draw.rd f = d.rd f := rfl

end Sys2Proof.Machine
end

