-- ==== Sys2Proof/Laws/Access.lean ====
section
/-!
SUPPORT. Laws of what every command shares: a command that finds the device running, the pair's part on a single device, and
a write of a register by a path.
-/
namespace Sys2Proof.Machine

/-! ### A running device -/

theorem live_runs {s : State} {f : Dev → Mem → Dev × Mem} (h : s.runs) : live s f = .next (settle s (f s.dev s.mem)) := by
  unfold live; rw [if_neg]; rw [State.runs] at h; rw [h]; exact Bool.false_ne_true

theorem live_reset {s : State} {f : Dev → Mem → Dev × Mem} (h : s.dev.boot.inReset = true) : live s f = .next s := by
  unfold live; rw [if_pos h]

theorem liveDev_reset {s : State} {f : Dev → Dev} (h : s.dev.boot.inReset = true) : liveDev s f = .next s := live_reset h

theorem liveDev_runs {s : State} {f : Dev → Dev} (h : s.runs) : liveDev s f = .next (settle s (f s.dev, s.mem)) := live_runs h

/-- A command of a running device completes as its meaning says. -/
theorem completes_live {c : Instr} {s : State} {f : Dev → Mem → Dev × Mem} {e : Dev} {m : Mem} (hr : s.runs)
    (hx : exec c s = live s f) (he : f s.dev s.mem = (e, m)) : Completes c s e m := by
  unfold Completes; rw [hx, live_runs hr, he]

/-- The same for a command that changes no byte of the job store. -/
theorem completes_dev {c : Instr} {s : State} {f : Dev → Dev} {e : Dev} (hr : s.runs) (hx : exec c s = liveDev s f)
    (he : f s.dev = e) : Completes c s e s.mem := by
  unfold Completes; rw [hx, liveDev_runs hr, he]

/-- On a single device a command leaves nothing more to do. -/
theorem settle_single {s : State} {x : Dev × Mem} (h : x.1.pair.mode = false) : settle s x = ⟨x.1, x.2, s.pending⟩ := by
  unfold settle; rw [if_neg]; rw [h]; exact Bool.false_ne_true

/-! ### Wakes (R471) -/

section
variable (d : Dev) (k x : Nat)

@[simp] theorem setDomain_part (y : Domain) : (d.setDomain k y).part = d.part := rfl
@[simp] theorem setDomain_win (y : Domain) : (d.setDomain k y).win = d.win := rfl
@[simp] theorem setDomain_pair (y : Domain) : (d.setDomain k y).pair = d.pair := rfl
@[simp] theorem setDomain_boot (y : Domain) : (d.setDomain k y).boot = d.boot := rfl

theorem beginExit_cases : d.beginExit k = d ∨ ∃ y, d.beginExit k = d.setDomain k y := by
  unfold Dev.beginExit
  extract_lets y
  split
  · exact .inr ⟨_, rfl⟩
  · exact .inr ⟨_, rfl⟩
  · exact .inl rfl

theorem wake_cases : d.wake k x = d ∨ (∃ y, d.wake k x = (d.setDomain k y).showWake k x) ∨ d.wake k x = d.showWake k x := by
  unfold Dev.wake
  extract_lets y
  split
  · exact .inl rfl
  · split
    · rcases beginExit_cases d k with h | ⟨y, h⟩
      · rw [h]; exact .inr (.inr rfl)
      · rw [h]; exact .inr (.inl ⟨y, rfl⟩)
    · split
      · exact .inr (.inl ⟨_, rfl⟩)
      · exact .inl rfl

@[simp] theorem wake_part : (d.wake k x).part = d.part := by
  rcases wake_cases d k x with h | ⟨y, h⟩ | h <;> rw [h] <;> rfl
@[simp] theorem wake_pair : (d.wake k x).pair = d.pair := by
  rcases wake_cases d k x with h | ⟨y, h⟩ | h <;> rw [h] <;> rfl
@[simp] theorem wake_boot : (d.wake k x).boot = d.boot := by
  rcases wake_cases d k x with h | ⟨y, h⟩ | h <;> rw [h] <;> rfl

/-- A wake of a domain that is ON, or leaves its sleep, does nothing. -/
theorem wake_on (h : (d.domain k).state = .on) : d.wake k x = d := by
  unfold Dev.wake
  simp [h, DomState.asleep, DomState.entering]
end

/-! ### A write of a register -/

@[simp] theorem sendRegister_part (d : Dev) (a : Nat) (v : Word) : (d.sendRegister a v).part = d.part := by
  unfold Dev.sendRegister; split <;> rfl

@[simp] theorem mirrorWrite_part (d : Dev) (path : Path) (a : Nat) (v : Word) : (d.mirrorWrite path a v).part = d.part := by
  unfold Dev.mirrorWrite
  split
  · rfl
  · split
    · simp
    · split
      · rfl
      · dsimp only
        split
        · rfl
        · split <;> simp

theorem isKeeper_congr {d e : Dev} (h : e.pair = d.pair) : e.isKeeper = d.isKeeper := by
  unfold Dev.isKeeper; rw [h]

@[simp] theorem sendRegister_pair (d : Dev) (a : Nat) (v : Word) : (d.sendRegister a v).pair = d.pair := by
  unfold Dev.sendRegister; split <;> rfl

/-- What a write finds of the pair is what was there. -/
@[simp] theorem met_pair (d : Dev) (path : Path) (a : Nat) (v : Word) : (d.met path a v).pair = d.pair := by
  have hm : ∀ e : Dev, (e.mirrorWrite path a v).pair = e.pair := by
    intro e
    unfold Dev.mirrorWrite
    split
    · rfl
    · split
      · exact sendRegister_pair ..
      · split
        · rfl
        · extract_lets b x
          split
          · rfl
          · rw [sendRegister_pair]; unfold x; split
            · rw [sendRegister_pair, sendRegister_pair]
            · rfl
  unfold Dev.met
  rw [hm]
  split
  · rfl
  · simp

/-- What a write finds: the device with a wake shown and the partner told, if anything. -/
theorem met_keeps (d : Dev) (path : Path) (a : Nat) (v : Word) :
    ∃ w p o, d.met path a v = { d with win := w, pwr := p, out := o } := by
  have hs : ∀ (e : Dev) (a : Nat) (v : Word), ∃ o, e.sendRegister a v = { e with out := o } := by
    intro e a v; unfold Dev.sendRegister; split
    · exact ⟨_, rfl⟩
    · exact ⟨e.out, rfl⟩
  have hm : ∀ e : Dev, ∃ o, e.mirrorWrite path a v = { e with out := o } := by
    intro e
    unfold Dev.mirrorWrite
    split
    · exact ⟨e.out, rfl⟩
    · split
      · exact hs ..
      · split
        · exact ⟨e.out, rfl⟩
        · rename_i c _
          extract_lets b x
          split
          · exact ⟨e.out, rfl⟩
          · have hx : ∃ o, x = { e with out := o } := by
              unfold x; split
              · obtain ⟨o, h⟩ := hs e (Adr.LT_POSSETLO c) (e.reg (Adr.LT_POSSETLO c))
                obtain ⟨o', h'⟩ := hs (e.sendRegister (Adr.LT_POSSETLO c) (e.reg (Adr.LT_POSSETLO c))) (Adr.LT_POSSETHI c)
                  (e.reg (Adr.LT_POSSETHI c))
                exact ⟨o', by rw [h', h]⟩
              · exact ⟨e.out, rfl⟩
            obtain ⟨o, ho⟩ := hx
            obtain ⟨o', h'⟩ := hs x a (BitVec.ofNat 32 b)
            exact ⟨o', by rw [h', ho]⟩
  unfold Dev.met
  split
  · obtain ⟨o, h⟩ := hm d
    exact ⟨_, _, o, h⟩
  · obtain ⟨o, h⟩ := hm (d.wake 1 (pathWake path))
    rw [h]
    rcases wake_cases d 1 (pathWake path) with e | ⟨y, e⟩ | e <;> rw [e] <;> exact ⟨_, _, _, rfl⟩

@[simp] theorem met_devNum (d : Dev) (path : Path) (a : Nat) (v : Word) : (d.met path a v).devNum = d.devNum := by
  obtain ⟨w, p, o, h⟩ := met_keeps d path a v; rw [h]
@[simp] theorem met_act (d : Dev) (path : Path) (a : Nat) (v : Word) : (d.met path a v).act = d.act := by
  obtain ⟨w, p, o, h⟩ := met_keeps d path a v; rw [h]
@[simp] theorem met_now (d : Dev) (path : Path) (a : Nat) (v : Word) : (d.met path a v).now = d.now := by
  obtain ⟨w, p, o, h⟩ := met_keeps d path a v; rw [h]
@[simp] theorem met_rep (d : Dev) (path : Path) (a : Nat) (v : Word) : (d.met path a v).rep = d.rep := by
  obtain ⟨w, p, o, h⟩ := met_keeps d path a v; rw [h]
@[simp] theorem met_job (d : Dev) (path : Path) (a : Nat) (v : Word) : (d.met path a v).job = d.job := by
  obtain ⟨w, p, o, h⟩ := met_keeps d path a v; rw [h]
@[simp] theorem met_dec (d : Dev) (path : Path) (a : Nat) (v : Word) : (d.met path a v).dec = d.dec := by
  obtain ⟨w, p, o, h⟩ := met_keeps d path a v; rw [h]
@[simp] theorem met_ras (d : Dev) (path : Path) (a : Nat) (v : Word) : (d.met path a v).ras = d.ras := by
  obtain ⟨w, p, o, h⟩ := met_keeps d path a v; rw [h]
@[simp] theorem met_lt (d : Dev) (path : Path) (a : Nat) (v : Word) : (d.met path a v).lt = d.lt := by
  obtain ⟨w, p, o, h⟩ := met_keeps d path a v; rw [h]
@[simp] theorem met_hp (d : Dev) (path : Path) (a : Nat) (v : Word) : (d.met path a v).hp = d.hp := by
  obtain ⟨w, p, o, h⟩ := met_keeps d path a v; rw [h]
@[simp] theorem met_dd (d : Dev) (path : Path) (a : Nat) (v : Word) : (d.met path a v).dd = d.dd := by
  obtain ⟨w, p, o, h⟩ := met_keeps d path a v; rw [h]
@[simp] theorem met_mot (d : Dev) (path : Path) (a : Nat) (v : Word) : (d.met path a v).mot = d.mot := by
  obtain ⟨w, p, o, h⟩ := met_keeps d path a v; rw [h]
@[simp] theorem met_ojp (d : Dev) (path : Path) (a : Nat) (v : Word) : (d.met path a v).ojp = d.ojp := by
  obtain ⟨w, p, o, h⟩ := met_keeps d path a v; rw [h]
@[simp] theorem met_boot (d : Dev) (path : Path) (a : Nat) (v : Word) : (d.met path a v).boot = d.boot := by
  obtain ⟨w, p, o, h⟩ := met_keeps d path a v; rw [h]
@[simp] theorem met_memc (d : Dev) (path : Path) (a : Nat) (v : Word) : (d.met path a v).memc = d.memc := by
  obtain ⟨w, p, o, h⟩ := met_keeps d path a v; rw [h]
@[simp] theorem met_jnl (d : Dev) (path : Path) (a : Nat) (v : Word) : (d.met path a v).jnl = d.jnl := by
  obtain ⟨w, p, o, h⟩ := met_keeps d path a v; rw [h]
@[simp] theorem met_lane (d : Dev) (path : Path) (a : Nat) (v : Word) : (d.met path a v).lane = d.lane := by
  obtain ⟨w, p, o, h⟩ := met_keeps d path a v; rw [h]
@[simp] theorem met_time (d : Dev) (path : Path) (a : Nat) (v : Word) : (d.met path a v).time = d.time := by
  obtain ⟨w, p, o, h⟩ := met_keeps d path a v; rw [h]
@[simp] theorem met_dma (d : Dev) (path : Path) (a : Nat) (v : Word) : (d.met path a v).dma = d.dma := by
  obtain ⟨w, p, o, h⟩ := met_keeps d path a v; rw [h]
@[simp] theorem met_fire (d : Dev) (path : Path) (a : Nat) (v : Word) : (d.met path a v).fire = d.fire := by
  obtain ⟨w, p, o, h⟩ := met_keeps d path a v; rw [h]
@[simp] theorem met_free (d : Dev) (path : Path) (a : Nat) (v : Word) : (d.met path a v).free = d.free := by
  obtain ⟨w, p, o, h⟩ := met_keeps d path a v; rw [h]
@[simp] theorem met_part (d : Dev) (path : Path) (a : Nat) (v : Word) : (d.met path a v).part = d.part := by
  obtain ⟨w, p, o, h⟩ := met_keeps d path a v; rw [h]

/-- A path that is open brings no configuration. -/
theorem pathOpen_ne_config {d : Dev} {path : Path} {a : Nat} (h : d.pathOpen path a = true) : path ≠ .config := by
  rintro rfl; exact Bool.false_ne_true h

/-- A write that is brought now is a write of the window. -/
theorem writeAccess_open {path : Path} {finds : Finds} {a : Nat} {v : Word} {d : Dev} {m : Mem}
    (ho : d.pathOpen path a = true) (hw : d.pathWaits path = false) :
    writeAccess path finds a v d m =
      (windowWrite (if path = .partner then d else d.wake 1 (pathWake path)) m path finds a v).2 := by
  unfold writeAccess
  rw [ho, hw]
  rfl

/-- R11, R12, R17: a write of a word that sets no reserved bit of a register that the part has, by a path that is not the
configuration, acts as its row says. -/
theorem windowWrite_row {d : Dev} {m : Mem} {path : Path} {finds : Finds} {a : Nat} {v : Word} {r : RegSpec} {i w : Nat}
    (ha : a % 4 = 0) (hh : holdsRegister d.part a = true) (hs : silentRegister d.part a = false)
    (hv : BitVec.ofNat 32 (v.toNat &&& definedBits a) = v) (hk : d.keeperBars path a v = false)
    (hn : isNzt a = false) (ht : isThr a = false) (hr : regSpecAt a = some (r, i, w)) (hc : path ≠ .config) :
    windowWrite d m path finds a v = (stOk, writeReg (d.mirrorWrite path a v) m path finds r i a v) := by
  have e : ∀ x : Dev, x.alsoInForce path a = x := by
    intro x; unfold Dev.alsoInForce; rw [if_neg]; exact fun h => hc h.1
  have hx : d.reservedBits a v = (d, v) := by
    unfold Dev.reservedBits; simp only; rw [if_pos hv]
  unfold windowWrite
  rw [if_neg (by omega), hh, hs, hx]
  simp only [Bool.not_true, Bool.false_eq_true, if_false, hk, hn, ht, Bool.or_self, hr, e]

/-- A write of a word, by a path that brings it now, to a register that the part has. -/
theorem writeAccess_row {s : State} {path : Path} {finds : Finds} {a : Nat} {v : Word} {r : RegSpec} {i w : Nat}
    (h : Reaches s path a v) (ha : a % 4 = 0) (hh : holdsRegister s.dev.part a = true)
    (hs : silentRegister s.dev.part a = false) (hv : BitVec.ofNat 32 (v.toNat &&& definedBits a) = v)
    (hn : isNzt a = false) (ht : isThr a = false) (hr : regSpecAt a = some (r, i, w)) :
    writeAccess path finds a v s.dev s.mem = writeReg (s.dev.met path a v) s.mem path finds r i a v := by
  obtain ⟨-, ho, hw, hk⟩ := h
  have hp : (if path = .partner then s.dev else s.dev.wake 1 (pathWake path)).part = s.dev.part := by
    split <;> simp
  have hb : (if path = .partner then s.dev else s.dev.wake 1 (pathWake path)).keeperBars path a v = false := by
    unfold Dev.keeperBars Dev.isKeeper at *
    split
    · exact hk
    · simpa using hk
  rw [writeAccess_open ho hw, windowWrite_row ha (by rw [hp]; exact hh) (by rw [hp]; exact hs) hv hb hn ht hr
    (pathOpen_ne_config ho)]
  rfl

end Sys2Proof.Machine
end

