-- ==== Sys2Proof/Laws/Commands.lean ====
section
/-!
SUPPORT. The commands that are a write of a command register: what each write comes to, once a path brings it.
-/
namespace Sys2Proof.Machine

/-- A row without a field that stores what is written keeps the stored word. -/
theorem storedWord_command (p : Part) (r : RegSpec) (old v : Word) (h : r.flds.all (fun f => decide (f.acc ≠ .rw)) = true) :
    storedWord p r old v = old := by
  unfold storedWord
  have hl : ∀ (l : List FieldSpec) (w : Word), l.all (fun f => decide (f.acc ≠ .rw)) = true →
      l.foldl (fun w f => if f.acc = .rw then
        let v := bitsOf v.toNat f.hi f.lo
        setBits w f.hi f.lo (if r.set = .none then clampField p r f v else v) else w) w = w := by
    intro l
    induction l with
    | nil => intro w _; rfl
    | cons f l ih =>
      intro w hw
      simp only [List.all_cons, Bool.and_eq_true, decide_eq_true_eq] at hw
      rw [List.foldl_cons, if_neg hw.1]
      exact ih w hw.2
  exact hl _ _ h

@[simp] theorem keepReg_self (d : Dev) (a : Nat) : d.keepReg a (d.reg a) = d := by
  unfold Dev.keepReg; rw [if_pos rfl]

theorem keepReg_cases (d : Dev) (a : Nat) (w : Word) : d.keepReg a w = d ∨ d.keepReg a w = d.setReg a w := by
  unfold Dev.keepReg; split
  · exact .inl rfl
  · exact .inr rfl

@[simp] theorem keepReg_reg_same (d : Dev) (a : Nat) (w : Word) : (d.keepReg a w).reg a = w := by
  unfold Dev.keepReg; split
  · rename_i h; exact h.symm
  · exact reg_setReg_same ..

theorem keepReg_reg_ne (d : Dev) {a b : Nat} (w : Word) (h : b ≠ a) : (d.keepReg a w).reg b = d.reg b := by
  rcases keepReg_cases d a w with e | e <;> rw [e]
  exact reg_setReg_ne _ _ h

@[simp] theorem keepReg_part (d : Dev) (a : Nat) (w : Word) : (d.keepReg a w).part = d.part := by
  rcases keepReg_cases d a w with e | e <;> rw [e]; rfl
@[simp] theorem keepReg_pair (d : Dev) (a : Nat) (w : Word) : (d.keepReg a w).pair = d.pair := by
  rcases keepReg_cases d a w with e | e <;> rw [e]; rfl

/-- The address of a command register: its row and index, with nothing of it stored and in no shadow set. -/
def CommandRow (a : Nat) (base i : Nat) : Prop :=
  a % 4 = 0 ∧ isNzt a = false ∧ isThr a = false ∧ setOf a = .none ∧
    ∃ r w, regSpecAt a = some (r, i, w) ∧ r.base = base ∧ r.flds.all (fun f => decide (f.acc ≠ .rw)) = true

theorem barPending_none (d : Dev) {a : Nat} (h : setOf a = .none) : d.barPending a = none := by
  unfold Dev.barPending
  split
  · rfl
  · rw [h]

/-- A write of a command register does what the register does, on the device as the write finds it. -/
theorem write_acts {s : State} {path : Path} {finds : Finds} {a base i : Nat} {v : Word} (h : Reaches s path a v)
    (hr : CommandRow a base i) (hh : holdsRegister s.dev.part a = true) (hs : silentRegister s.dev.part a = false)
    (hv : BitVec.ofNat 32 (v.toNat &&& definedBits a) = v)
    (hb : ([Adr.LT_CHCFG 0, Adr.CRC_EXPLO 0, Adr.CRC_EXPHI 0, Adr.CRC_CTRL 0, Adr.DMA_CHPROD 0, Adr.LT_SSI 0,
      Adr.LT_SSIPOLL 0, Adr.LANE_FOM, Adr.TIME_STEPNS].contains base || axisBound base) = false) :
    ∃ r, r.base = base ∧ writeAccess path finds a v s.dev s.mem =
      actOn (s.dev.met path a v) (s.dev.met path a v) s.mem path finds r i a v.toNat := by
  obtain ⟨ha, hn, ht, hset, r, w, hr, hbase, hf⟩ := hr
  refine ⟨r, hbase, ?_⟩
  rw [writeAccess_row h ha hh hs hv hn ht hr]
  simp only [List.contains_cons, List.contains_nil, Bool.or_eq_false_iff, beq_eq_false_iff_ne, ne_eq, Bool.or_false] at hb
  obtain ⟨⟨h1, h2, h3, h4, h5, h6, h7, h8, h9⟩, hx⟩ := hb
  have hbar : (s.dev.met path a v).barWrite r i a v = none := by
    unfold Dev.barWrite
    rw [hbase, if_neg (fun h => h1 h.1), if_neg (by rw [hx]; simp), if_neg (fun h => h.1.elim h2 h3),
      if_neg (fun h => h4 h.1)]
    exact barPending_none _ hset
  have hst : (s.dev.met path a v).storeReg r i a v = s.dev.met path a v := by
    unfold Dev.storeReg
    simp only [storedWord_command _ _ _ _ hf, keepReg_self, hbase, if_neg h6, if_neg h7, if_neg h8, if_neg h9]
  unfold writeReg
  rw [hbar]
  simp only [hbase, if_neg h5, hst]

/-! ### The rows -/

theorem row_JOB_CTRL : CommandRow Adr.JOB_CTRL Adr.JOB_CTRL 0 := ⟨rfl, rfl, rfl, rfl, _, _, rfl, rfl, rfl⟩
theorem row_JOB_DOORBELL : CommandRow Adr.JOB_DOORBELL Adr.JOB_DOORBELL 0 := ⟨rfl, rfl, rfl, rfl, _, _, rfl, rfl, rfl⟩
theorem row_CFG_COMMIT : CommandRow Adr.CFG_COMMIT Adr.CFG_COMMIT 0 := ⟨rfl, rfl, rfl, rfl, _, _, rfl, rfl, rfl⟩
theorem row_CFG_CLAMPCTRL : CommandRow Adr.CFG_CLAMPCTRL Adr.CFG_CLAMPCTRL 0 := ⟨rfl, rfl, rfl, rfl, _, _, rfl, rfl, rfl⟩
theorem row_TRB_CLRMASK : CommandRow Adr.TRB_CLRMASK Adr.TRB_CLRMASK 0 := ⟨rfl, rfl, rfl, rfl, _, _, rfl, rfl, rfl⟩
theorem row_PWR_REQ : CommandRow Adr.PWR_REQ Adr.PWR_REQ 0 := ⟨rfl, rfl, rfl, rfl, _, _, rfl, rfl, rfl⟩
theorem row_MEM_RMCTRL : CommandRow Adr.MEM_RMCTRL Adr.MEM_RMCTRL 0 := ⟨rfl, rfl, rfl, rfl, _, _, rfl, rfl, rfl⟩
theorem row_JNL_CTRL : CommandRow Adr.JNL_CTRL Adr.JNL_CTRL 0 := ⟨rfl, rfl, rfl, rfl, _, _, rfl, rfl, rfl⟩
theorem row_PAIR_CTRL : CommandRow Adr.PAIR_CTRL Adr.PAIR_CTRL 0 := ⟨rfl, rfl, rfl, rfl, _, _, rfl, rfl, rfl⟩
theorem row_TIME_STEPSEC : CommandRow Adr.TIME_STEPSEC Adr.TIME_STEPSEC 0 := ⟨rfl, rfl, rfl, rfl, _, _, rfl, rfl, rfl⟩
theorem row_LT_CHCTRL : ∀ c : Fin 4, CommandRow (Adr.LT_CHCTRL c.val) (Adr.LT_CHCTRL 0) c.val
  | 0 => ⟨rfl, rfl, rfl, rfl, _, _, rfl, rfl, rfl⟩
  | 1 => ⟨rfl, rfl, rfl, rfl, _, _, rfl, rfl, rfl⟩
  | 2 => ⟨rfl, rfl, rfl, rfl, _, _, rfl, rfl, rfl⟩
  | 3 => ⟨rfl, rfl, rfl, rfl, _, _, rfl, rfl, rfl⟩
theorem row_MOT_CMD : ∀ c : Fin 8, CommandRow (Adr.MOT_CMD c.val) (Adr.MOT_CMD 0) c.val
  | 0 => ⟨rfl, rfl, rfl, rfl, _, _, rfl, rfl, rfl⟩
  | 1 => ⟨rfl, rfl, rfl, rfl, _, _, rfl, rfl, rfl⟩
  | 2 => ⟨rfl, rfl, rfl, rfl, _, _, rfl, rfl, rfl⟩
  | 3 => ⟨rfl, rfl, rfl, rfl, _, _, rfl, rfl, rfl⟩
  | 4 => ⟨rfl, rfl, rfl, rfl, _, _, rfl, rfl, rfl⟩
  | 5 => ⟨rfl, rfl, rfl, rfl, _, _, rfl, rfl, rfl⟩
  | 6 => ⟨rfl, rfl, rfl, rfl, _, _, rfl, rfl, rfl⟩
  | 7 => ⟨rfl, rfl, rfl, rfl, _, _, rfl, rfl, rfl⟩

theorem defined_LT_CHCTRL : ∀ c : Fin 4, definedBits (Adr.LT_CHCTRL c.val) = 7 := by decide
theorem block_LT_CHCTRL : ∀ c : Fin 4, Adr.LT_CHCTRL c.val / 0x10000 = 15 := by decide
theorem holds_LT_CHCTRL (c : Fin 4) (p : Part) : holdsRegister p (Adr.LT_CHCTRL c.val) = true := by cases p <;> (revert c; decide)
theorem silent_LT_CHCTRL (c : Fin 4) (p : Part) : silentRegister p (Adr.LT_CHCTRL c.val) = false := by cases p <;> (revert c; decide)

theorem defined_MOT_CMD : ∀ c : Fin 8, definedBits (Adr.MOT_CMD c.val) = 7 := by decide
theorem block_MOT_CMD : ∀ c : Fin 8, Adr.MOT_CMD c.val / 0x10000 = 18 := by decide
theorem holds_MOT_CMD (c : Fin 8) (p : Part) : holdsRegister p (Adr.MOT_CMD c.val) = true := by cases p <;> (revert c; decide)
theorem silent_MOT_CMD (c : Fin 8) (p : Part) : silentRegister p (Adr.MOT_CMD c.val) = false := by cases p <;> (revert c; decide)

/-! ### The writes -/

section
variable {s : State} {path : Path} {finds : Finds} {v : Word}

theorem write_JOB_CTRL (h : Reaches s path Adr.JOB_CTRL v) (hv : BitVec.ofNat 32 (v.toNat &&& 7) = v) :
    writeAccess path finds Adr.JOB_CTRL v s.dev s.mem = ((s.dev.met path Adr.JOB_CTRL v).jobControl (v.toNat.testBit 2)
      (v.toNat.testBit 1) (v.toNat.testBit 0), s.mem) := by
  obtain ⟨r, hb, e⟩ := write_acts (finds := finds) h row_JOB_CTRL (by cases s.dev.part <;> rfl) (by cases s.dev.part <;> rfl) hv rfl
  rw [e]; unfold actOn; rw [show Adr.JOB_CTRL / 0x10000 = 11 from rfl]
  simp [actStore, hb, Adr.JOB_CTRL, Adr.MEM_RMREQ, Adr.MEM_RMCTRL, Adr.DMA_CHCTRL, Adr.CRC_CTRL]

theorem jobControl_start (d : Dev) : d.jobControl false false true = d.jobStart := by
  simp only [Dev.jobControl, Dev.jobCtrl, if_true, Bool.false_eq_true, if_false]
theorem jobControl_stop (d : Dev) : d.jobControl false true false = d.jobStop.tellKeeper .stop := by
  simp only [Dev.jobControl, Dev.jobCtrl, if_true, Bool.false_eq_true, if_false]
theorem jobControl_abort (d : Dev) : d.jobControl true false false = d.jobAbort.tellKeeper .abort := by
  simp only [Dev.jobControl, Dev.jobCtrl, if_true, Bool.false_eq_true, if_false]

theorem write_JOB_start (h : Reaches s path Adr.JOB_CTRL 1#32) : writeAccess path finds Adr.JOB_CTRL 1#32 s.dev s.mem =
    ((s.dev.met path Adr.JOB_CTRL 1#32).jobStart, s.mem) := by
  have b2 : (1#32 : Word).toNat.testBit 2 = false := by decide
  have b1 : (1#32 : Word).toNat.testBit 1 = false := by decide
  have b0 : (1#32 : Word).toNat.testBit 0 = true := by decide
  rw [write_JOB_CTRL h rfl, b2, b1, b0, jobControl_start]

theorem write_JOB_stop (h : Reaches s path Adr.JOB_CTRL 2#32) : writeAccess path finds Adr.JOB_CTRL 2#32 s.dev s.mem =
    ((s.dev.met path Adr.JOB_CTRL 2#32).jobStop.tellKeeper .stop, s.mem) := by
  have b2 : (2#32 : Word).toNat.testBit 2 = false := by decide
  have b1 : (2#32 : Word).toNat.testBit 1 = true := by decide
  have b0 : (2#32 : Word).toNat.testBit 0 = false := by decide
  rw [write_JOB_CTRL h rfl, b2, b1, b0, jobControl_stop]

theorem write_JOB_abort (h : Reaches s path Adr.JOB_CTRL 4#32) : writeAccess path finds Adr.JOB_CTRL 4#32 s.dev s.mem =
    ((s.dev.met path Adr.JOB_CTRL 4#32).jobAbort.tellKeeper .abort, s.mem) := by
  have b2 : (4#32 : Word).toNat.testBit 2 = true := by decide
  have b1 : (4#32 : Word).toNat.testBit 1 = false := by decide
  have b0 : (4#32 : Word).toNat.testBit 0 = false := by decide
  rw [write_JOB_CTRL h rfl, b2, b1, b0, jobControl_abort]

theorem write_JOB_DOORBELL (h : Reaches s path Adr.JOB_DOORBELL 1#32) :
    writeAccess path finds Adr.JOB_DOORBELL 1#32 s.dev s.mem = ((s.dev.met path Adr.JOB_DOORBELL 1#32).ring s.mem finds, s.mem) := by
  obtain ⟨r, hb, e⟩ := write_acts (finds := finds) h row_JOB_DOORBELL (by cases s.dev.part <;> rfl) (by cases s.dev.part <;> rfl) rfl rfl
  rw [e]; unfold actOn; rw [show Adr.JOB_DOORBELL / 0x10000 = 11 from rfl]
  simp [actStore, hb, Adr.JOB_CTRL, Adr.MEM_RMREQ, Adr.MEM_RMCTRL, Adr.DMA_CHCTRL, Adr.CRC_CTRL, Adr.JOB_DOORBELL]

theorem write_CFG_COMMIT (h : Reaches s path Adr.CFG_COMMIT v) (hv : BitVec.ofNat 32 (v.toNat &&& 31) = v) :
    writeAccess path finds Adr.CFG_COMMIT v s.dev s.mem = ((s.dev.met path Adr.CFG_COMMIT v).commit v.toNat, s.mem) := by
  obtain ⟨r, hb, e⟩ := write_acts (finds := finds) h row_CFG_COMMIT (by cases s.dev.part <;> rfl) (by cases s.dev.part <;> rfl) hv rfl
  rw [e]; unfold actOn; rw [show Adr.CFG_COMMIT / 0x10000 = 1 from rfl]
  simp [Dev.actGlobal, hb]

theorem write_CFG_CLAMPCTRL (h : Reaches s path Adr.CFG_CLAMPCTRL 1#32) :
    writeAccess path finds Adr.CFG_CLAMPCTRL 1#32 s.dev s.mem = ((s.dev.met path Adr.CFG_CLAMPCTRL 1#32).clampClear, s.mem) := by
  obtain ⟨r, hb, e⟩ := write_acts (finds := finds) h row_CFG_CLAMPCTRL (by cases s.dev.part <;> rfl) (by cases s.dev.part <;> rfl) rfl rfl
  rw [e]; unfold actOn; rw [show Adr.CFG_CLAMPCTRL / 0x10000 = 1 from rfl]
  simp [Dev.actGlobal, hb, Adr.CFG_CLAMPCTRL, Adr.CFG_COMMIT]

theorem write_TRB_CLRMASK (h : Reaches s path Adr.TRB_CLRMASK v) :
    writeAccess path finds Adr.TRB_CLRMASK v s.dev s.mem = ((s.dev.met path Adr.TRB_CLRMASK v).clearNamed v.toNat, s.mem) := by
  have hv : BitVec.ofNat 32 (v.toNat &&& definedBits Adr.TRB_CLRMASK) = v := by
    rw [show definedBits Adr.TRB_CLRMASK = 2 ^ 32 - 1 from rfl, Nat.and_two_pow_sub_one_eq_mod, Nat.mod_eq_of_lt v.isLt]
    simp
  obtain ⟨r, hb, e⟩ := write_acts (finds := finds) h row_TRB_CLRMASK (by cases s.dev.part <;> rfl) (by cases s.dev.part <;> rfl) hv rfl
  rw [e]; unfold actOn; rw [show Adr.TRB_CLRMASK / 0x10000 = 2 from rfl]
  simp [Dev.actGlobal, hb, Adr.CFG_CLAMPCTRL, Adr.CFG_COMMIT, Adr.TRB_CLRMASK]

theorem write_PWR_REQ (h : Reaches s path Adr.PWR_REQ v) (hv : BitVec.ofNat 32 (v.toNat &&& 0xFFFFFFF) = v) :
    writeAccess path finds Adr.PWR_REQ v s.dev s.mem = ((s.dev.met path Adr.PWR_REQ v).powerRequest v.toNat, s.mem) := by
  obtain ⟨r, hb, e⟩ := write_acts (finds := finds) h row_PWR_REQ (by cases s.dev.part <;> rfl) (by cases s.dev.part <;> rfl) hv rfl
  rw [e]; unfold actOn; rw [show Adr.PWR_REQ / 0x10000 = 3 from rfl]
  simp [Dev.actGlobal, hb, Adr.CFG_CLAMPCTRL, Adr.CFG_COMMIT, Adr.TRB_CLRMASK, Adr.PWR_REQ]

theorem write_MEM_RMCTRL (h : Reaches s path Adr.MEM_RMCTRL 1#32) :
    writeAccess path finds Adr.MEM_RMCTRL 1#32 s.dev s.mem = ((s.dev.met path Adr.MEM_RMCTRL 1#32).remapClearAll, s.mem) := by
  obtain ⟨r, hb, e⟩ := write_acts (finds := finds) h row_MEM_RMCTRL (by cases s.dev.part <;> rfl) (by cases s.dev.part <;> rfl) rfl rfl
  rw [e]; unfold actOn; rw [show Adr.MEM_RMCTRL / 0x10000 = 8 from rfl]
  simp [actStore, hb, Adr.MEM_RMREQ, Adr.MEM_RMCTRL]

theorem write_JNL_CTRL (h : Reaches s path Adr.JNL_CTRL v) (hv : BitVec.ofNat 32 (v.toNat &&& 31) = v) :
    writeAccess path finds Adr.JNL_CTRL v s.dev s.mem = ((s.dev.met path Adr.JNL_CTRL v).journalControl v.toNat, s.mem) := by
  obtain ⟨r, hb, e⟩ := write_acts (finds := finds) h row_JNL_CTRL (by cases s.dev.part <;> rfl) (by cases s.dev.part <;> rfl) hv rfl
  rw [e]; unfold actOn; rw [show Adr.JNL_CTRL / 0x10000 = 20 from rfl]
  simp [Dev.actRest, hb, Adr.DD_CTRL, Adr.MOT_CMD, Adr.MOT_LIMPOL, Adr.CAL_ADCCTRL, Adr.JNL_CTRL]

theorem write_PAIR_CTRL (h : Reaches s path Adr.PAIR_CTRL v) (hv : BitVec.ofNat 32 (v.toNat &&& 3) = v)
    (hp : s.dev.part = .sn262) :
    writeAccess path finds Adr.PAIR_CTRL v s.dev s.mem =
      ((if v.toNat.testBit 1 then
          (if v.toNat.testBit 0 then (s.dev.met path Adr.PAIR_CTRL v).handoff else s.dev.met path Adr.PAIR_CTRL v).selfTest
        else if v.toNat.testBit 0 then (s.dev.met path Adr.PAIR_CTRL v).handoff else s.dev.met path Adr.PAIR_CTRL v),
        s.mem) := by
  obtain ⟨r, hb, e⟩ := write_acts (finds := finds) h row_PAIR_CTRL (by rw [hp]; rfl) (by rw [hp]; rfl) hv rfl
  rw [e]; unfold actOn; rw [show Adr.PAIR_CTRL / 0x10000 = 7 from rfl]
  simp [Dev.actLink, hb, Adr.NET_PCTRL, Adr.LANE_CTRL, Adr.TIME_INCRHI, Adr.TIME_STEPSEC, Adr.TIME_PTPCTRL, Adr.TIME_TOCTRL,
    Adr.PAIR_CTRL]

theorem write_TIME_STEPSEC (h : Reaches s path Adr.TIME_STEPSEC v) :
    writeAccess path finds Adr.TIME_STEPSEC v s.dev s.mem = ((s.dev.met path Adr.TIME_STEPSEC v).timeStep v.toNat, s.mem) := by
  have hv : BitVec.ofNat 32 (v.toNat &&& definedBits Adr.TIME_STEPSEC) = v := by
    rw [show definedBits Adr.TIME_STEPSEC = 2 ^ 32 - 1 from rfl, Nat.and_two_pow_sub_one_eq_mod, Nat.mod_eq_of_lt v.isLt]
    simp
  obtain ⟨r, hb, e⟩ := write_acts (finds := finds) h row_TIME_STEPSEC (by cases s.dev.part <;> rfl) (by cases s.dev.part <;> rfl) hv rfl
  rw [e]; unfold actOn; rw [show Adr.TIME_STEPSEC / 0x10000 = 6 from rfl]
  simp [Dev.actLink, hb, Adr.NET_PCTRL, Adr.LANE_CTRL, Adr.TIME_INCRHI, Adr.TIME_STEPSEC]

theorem write_LT_CHCTRL {c : Fin 4} (h : Reaches s path (Adr.LT_CHCTRL c.val) v) (hv : BitVec.ofNat 32 (v.toNat &&& 7) = v) :
    writeAccess path finds (Adr.LT_CHCTRL c.val) v s.dev s.mem =
      channelControl (s.dev.met path (Adr.LT_CHCTRL c.val) v) s.mem c path v.toNat := by
  have hd := defined_LT_CHCTRL c
  have hq := block_LT_CHCTRL c
  obtain ⟨r, hb, e⟩ := write_acts (finds := finds) h (row_LT_CHCTRL c)
    (holds_LT_CHCTRL c s.dev.part) (silent_LT_CHCTRL c s.dev.part) (by rw [hd]; exact hv) rfl
  rw [e]; unfold actOn; rw [hq]
  simp [actPrint, hb, Adr.LT_CHCFG, Adr.LT_CHCTRL]

theorem write_MOT_CMD {c : Fin 8} (h : Reaches s path (Adr.MOT_CMD c.val) v) (hv : BitVec.ofNat 32 (v.toNat &&& 7) = v) :
    writeAccess path finds (Adr.MOT_CMD c.val) v s.dev s.mem =
      ((s.dev.met path (Adr.MOT_CMD c.val) v).axisCommand c v.toNat, s.mem) := by
  have hd := defined_MOT_CMD c
  have hq := block_MOT_CMD c
  obtain ⟨r, hb, e⟩ := write_acts (finds := finds) h (row_MOT_CMD c)
    (holds_MOT_CMD c s.dev.part) (silent_MOT_CMD c s.dev.part) (by rw [hd]; exact hv) rfl
  have hm : v.toNat % 8 = v.toNat := by
    have := congrArg BitVec.toNat hv
    rw [BitVec.toNat_ofNat, show (7 : Nat) = 2 ^ 3 - 1 from rfl, Nat.and_two_pow_sub_one_eq_mod] at this
    omega
  rw [e]; unfold actOn; rw [hq]
  simp [Dev.actRest, hb, Adr.DD_CTRL, Adr.MOT_CMD, hm]

end

end Sys2Proof.Machine
end

