-- ==== Sys2Proof/Laws/Rows.lean ====
section
/-!
SUPPORT. Laws of the rows of the register tables: the row at an address is one of its block's, what a write of a plain row
stores, and that a plain row does nothing more when it is written.
-/
namespace Sys2Proof.Machine

/-! ### The row at an address -/

theorem findReg_mem {a : Nat} {r : RegSpec} {i w : Nat} : ∀ {l : List RegSpec}, findReg l a = some (r, i, w) → r ∈ l
  | [], h => by simp [findReg] at h
  | x :: xs, h => by
    unfold findReg at h
    split at h
    · simp only [Option.some.injEq, Prod.mk.injEq] at h; rw [h.1]; exact List.mem_cons_self ..
    · exact List.mem_cons_of_mem _ (findReg_mem h)

/-- The row at an address is in the tables. -/
theorem regSpecAt_mem {a : Nat} {r : RegSpec} {i w : Nat} (h : regSpecAt a = some (r, i, w)) :
    ∃ l ∈ blockRegs, r ∈ l := by
  unfold regSpecAt at h
  split at h
  · have hm := findReg_mem h
    refine ⟨_, ?_, hm⟩
    rw [List.getD_eq_getElem?_getD] at hm ⊢
    cases hg : blockRegs[a / 0x10000]? with
    | none => rw [hg] at hm; simp at hm
    | some l => exact List.mem_of_getElem? hg
  · simp at h

/-- What holds of every row of the tables holds of the row at an address. -/
theorem row_all {P : RegSpec → Bool} (h : blockRegs.all (fun l => l.all P) = true) {a : Nat} {r : RegSpec} {i w : Nat}
    (hr : regSpecAt a = some (r, i, w)) : P r = true := by
  obtain ⟨l, hl, hm⟩ := regSpecAt_mem hr
  exact List.all_eq_true.1 (List.all_eq_true.1 h l hl) r hm

theorem regSpecAt_lt {a : Nat} {x : RegSpec × Nat × Nat} (h : regSpecAt a = some x) : a < 22 * 0x10000 := by
  unfold regSpecAt at h
  split at h
  · assumption
  · simp at h

theorem not_nzt {a : Nat} {x : RegSpec × Nat × Nat} (h : regSpecAt a = some x) : isNzt a = false := by
  have := regSpecAt_lt h
  unfold isNzt; simp only [decide_eq_false_iff_not]; omega

theorem not_thr {a : Nat} {x : RegSpec × Nat × Nat} (h : regSpecAt a = some x) : isThr a = false := by
  have := regSpecAt_lt h
  unfold isThr; simp only [decide_eq_false_iff_not]; omega

theorem setOf_row {a : Nat} {r : RegSpec} {i w : Nat} (h : regSpecAt a = some (r, i, w)) : setOf a = r.set := by
  unfold setOf
  rw [not_nzt h, not_thr h, h]; rfl

/-- Every field lies within a word. -/
theorem fields_ok : blockRegs.all (fun l => l.all (fun r => r.flds.all (fun f => decide (f.lo ≤ f.hi) && decide (f.hi < 32)))) = true := by
  decide

/-! ### What a write stores -/

/-- A write of a row of a shadow set: each RW field takes the bits written, each other bit stays. -/
theorem testBit_storedWord (p : Part) (r : RegSpec) (old v : Word) (hs : r.set ≠ .none)
    (hf : r.flds.all (fun f => decide (f.lo ≤ f.hi) && decide (f.hi < 32)) = true) (j : Nat) :
    (storedWord p r old v).toNat.testBit j =
      if (∃ f ∈ r.flds, f.acc = .rw ∧ f.lo ≤ j ∧ j ≤ f.hi) then v.toNat.testBit j else old.toNat.testBit j := by
  unfold storedWord
  have hl : ∀ (l : List FieldSpec) (w : Word), l.all (fun f => decide (f.lo ≤ f.hi) && decide (f.hi < 32)) = true →
      (l.foldl (fun w f => if f.acc = .rw then
        let x := bitsOf v.toNat f.hi f.lo
        setBits w f.hi f.lo (if r.set = .none then clampField p r f x else x) else w) w).toNat.testBit j =
      if (∃ f ∈ l, f.acc = .rw ∧ f.lo ≤ j ∧ j ≤ f.hi) then v.toNat.testBit j else w.toNat.testBit j := by
    intro l
    induction l with
    | nil => intro w _; simp
    | cons f l ih =>
      intro w hw
      simp only [List.all_cons, Bool.and_eq_true, decide_eq_true_eq] at hw
      rw [List.foldl_cons, ih _ hw.2]
      by_cases h1 : ∃ g ∈ l, g.acc = .rw ∧ g.lo ≤ j ∧ j ≤ g.hi
      · rw [if_pos h1, if_pos (h1.imp fun g hg => ⟨List.mem_cons_of_mem _ hg.1, hg.2⟩)]
      · rw [if_neg h1]
        by_cases h2 : f.acc = .rw
        · simp only [if_pos h2, if_neg hs]
          rw [testBit_setBits _ _ _ _ _ hw.1.1 hw.1.2]
          by_cases h3 : f.lo ≤ j ∧ j ≤ f.hi
          · rw [if_pos h3, if_pos ⟨f, List.mem_cons_self .., h2, h3⟩, testBit_bitsOf]
            have : j - f.lo < f.hi + 1 - f.lo := by omega
            simp only [this, decide_true, Bool.true_and]
            congr 1; omega
          · rw [if_neg h3, if_neg]
            rintro ⟨g, hg, hr⟩
            rcases List.mem_cons.1 hg with rfl | hg
            · exact h3 hr.2
            · exact h1 ⟨g, hg, hr⟩
        · rw [if_neg h2, if_neg]
          rintro ⟨g, hg, hr⟩
          rcases List.mem_cons.1 hg with rfl | hg
          · exact h2 hr.1
          · exact h1 ⟨g, hg, hr⟩
  exact hl _ _ hf

/-! ### Rows that do nothing more -/

/-- The rows whose write does more than store, or is at times discarded by a rule of its own. -/
def actingBases : List Nat :=
  [Adr.CFG_COMMIT, Adr.CFG_CLAMPCTRL, Adr.TRB_CLRMASK, Adr.PWR_REQ, Adr.NET_PCTRL 0, Adr.LANE_CTRL 0, Adr.TIME_INCRHI,
    Adr.TIME_STEPSEC, Adr.TIME_PTPCTRL, Adr.TIME_TOCTRL 0, Adr.PAIR_CTRL, Adr.MEM_RMREQ, Adr.MEM_RMCTRL, Adr.DMA_CHCTRL 0,
    Adr.CRC_CTRL 0, Adr.JOB_CTRL, Adr.JOB_DOORBELL, Adr.DEC_PLANPER, Adr.LT_CHCFG 0, Adr.LT_CHCTRL 0, Adr.HP_ECHO 0,
    Adr.HP_DSKCTRL, Adr.DD_CTRL, Adr.MOT_CMD 0, Adr.MOT_LIMPOL, Adr.CAL_ADCCTRL, Adr.JNL_CTRL, Adr.CRC_EXPLO 0,
    Adr.CRC_EXPHI 0, Adr.DMA_CHPROD 0, Adr.LT_SSI 0, Adr.LT_SSIPOLL 0, Adr.LANE_FOM, Adr.TIME_STEPNS]

theorem actOn_plain {was d : Dev} {m : Mem} {path : Path} {finds : Finds} {r : RegSpec} {i a v : Nat}
    (h : actingBases.contains r.base = false) : actOn was d m path finds r i a v = (d, m) := by
  simp only [actingBases, List.contains_cons, List.contains_nil, Bool.or_eq_false_iff, beq_eq_false_iff_ne, ne_eq] at h
  obtain ⟨a1, a2, a3, a4, a5, a6, a7, a8, a9, a10, a11, a12, a13, a14, a15, a16, a17, a18, a19, a20, a21, a22, a23, a24, a25,
    a26, a27, -⟩ := h
  unfold actOn
  split <;> simp only [Dev.actGlobal, Dev.actLink, actStore, actPrint, Dev.actRest, a1, a2, a3, a4, a5, a6, a7, a8, a9, a10, a11,
    a12, a13, a14, a15, a16, a17, a18, a19, a20, a21, a22, a23, a24, a25, a26, a27, if_false]

theorem storeReg_plain {d : Dev} {r : RegSpec} {i a : Nat} {v : Word} (h : actingBases.contains r.base = false) :
    d.storeReg r i a v = d.keepReg a (storedWord d.part r (d.reg a) v) := by
  simp only [actingBases, List.contains_cons, List.contains_nil, Bool.or_eq_false_iff, beq_eq_false_iff_ne, ne_eq] at h
  obtain ⟨-, -, -, -, -, -, -, -, -, -, -, -, -, -, -, -, -, -, -, -, -, -, -, -, -, -, -, -, -, -, h1, h2, h3, h4, -⟩ := h
  simp only [Dev.storeReg, h1, h2, h3, h4, if_false]

/-- A write of a plain row that nothing discards stores its word and does nothing more. -/
theorem writeReg_plain {d : Dev} {m : Mem} {path : Path} {finds : Finds} {r : RegSpec} {i a : Nat} {v : Word}
    (h : actingBases.contains r.base = false) (hx : axisBound r.base = false) (hb : d.barPending a = none) :
    writeReg d m path finds r i a v = (d.keepReg a (storedWord d.part r (d.reg a) v), m) := by
  have h' := h
  simp only [actingBases, List.contains_cons, List.contains_nil, Bool.or_eq_false_iff, beq_eq_false_iff_ne, ne_eq] at h'
  obtain ⟨-, -, -, -, -, -, -, -, -, -, -, -, -, -, h1, -, -, -, h2, -, -, -, -, -, -, -, -, h3, h4, h5, -⟩ := h'
  have hbar : d.barWrite r i a v = none := by
    unfold Dev.barWrite
    rw [if_neg (fun e => h2 e.1), if_neg (by rw [hx]; simp), if_neg (fun e => e.1.elim h3 h4), if_neg (fun e => h1 e.1)]
    exact hb
  unfold writeReg
  rw [hbar]
  simp only [if_neg h5, actOn_plain h, storeReg_plain h]

/-- A write that nothing discards, to a row that sets no other field's limits, stores its word and does what its row does. -/
theorem writeReg_stores {d : Dev} {m : Mem} {path : Path} {finds : Finds} {r : RegSpec} {i a : Nat} {v : Word}
    (h : ([Adr.LT_CHCFG 0, Adr.CRC_EXPLO 0, Adr.CRC_EXPHI 0, Adr.CRC_CTRL 0, Adr.DMA_CHPROD 0, Adr.LT_SSI 0,
      Adr.LT_SSIPOLL 0, Adr.LANE_FOM, Adr.TIME_STEPNS].contains r.base || axisBound r.base) = false)
    (hb : d.barPending a = none) :
    writeReg d m path finds r i a v =
      actOn d (d.keepReg a (storedWord d.part r (d.reg a) v)) m path finds r i a v.toNat := by
  simp only [List.contains_cons, List.contains_nil, Bool.or_eq_false_iff, beq_eq_false_iff_ne, ne_eq, Bool.or_false] at h
  obtain ⟨⟨h1, h2, h3, h4, h5, h6, h7, h8, h9⟩, hx⟩ := h
  have hbar : d.barWrite r i a v = none := by
    unfold Dev.barWrite
    rw [if_neg (fun e => h1 e.1), if_neg (by rw [hx]; simp), if_neg (fun e => e.1.elim h2 h3), if_neg (fun e => h4 e.1)]
    exact hb
  have hst : d.storeReg r i a v = d.keepReg a (storedWord d.part r (d.reg a) v) := by
    simp only [Dev.storeReg, if_neg h6, if_neg h7, if_neg h8, if_neg h9]
  unfold writeReg
  rw [hbar]
  simp only [if_neg h5, hst]

/-- The rows of the sets that a commit puts in force, and what else stores only: none acts. -/
theorem shadow_plain : blockRegs.all (fun l => l.all (fun r =>
    decide (r.set = .none) || (!actingBases.contains r.base && !axisBound r.base))) = true := by decide

end Sys2Proof.Machine
end

