-- ==== Sys2Proof/Laws/BitWrites.lean ====
section
/-!
SUPPORT. The commands that set one bit of a register and leave its other fields: what such a write comes to; and the
commands that are a read with an effect.
-/
namespace Sys2Proof.Machine

/-! ### What a write finds -/

theorem showWake_reg (d : Dev) (k x : Nat) {b : Nat} (h1 : b ≠ Adr.PWR_LASTWAKE) (h2 : b ≠ Adr.PWR_WAKECNT) :
    (d.showWake k x).reg b = d.reg b := by
  unfold Dev.showWake
  rw [reg_bump_ne _ h2, reg_wr_ne _ _ h1, reg_wr_ne _ _ h1]

theorem wake_reg (d : Dev) (k x : Nat) {b : Nat} (h1 : b ≠ Adr.PWR_LASTWAKE) (h2 : b ≠ Adr.PWR_WAKECNT) :
    (d.wake k x).reg b = d.reg b := by
  rcases wake_cases d k x with h | ⟨y, h⟩ | h <;> rw [h]
  · rw [showWake_reg _ _ _ h1 h2]; rfl
  · exact showWake_reg _ _ _ h1 h2

theorem sendRegister_reg (d : Dev) (a : Nat) (v : Word) (b : Nat) : (d.sendRegister a v).reg b = d.reg b := by
  unfold Dev.sendRegister; split <;> rfl

/-- A write finds every register as it was, but for what shows the wake of the stoker. -/
theorem met_reg (d : Dev) (path : Path) (a : Nat) (v : Word) {b : Nat} (h1 : b ≠ Adr.PWR_LASTWAKE)
    (h2 : b ≠ Adr.PWR_WAKECNT) : (d.met path a v).reg b = d.reg b := by
  have hm : ∀ e : Dev, (e.mirrorWrite path a v).reg b = e.reg b := by
    intro e
    unfold Dev.mirrorWrite
    split
    · rfl
    · split
      · exact sendRegister_reg ..
      · split
        · rfl
        · extract_lets c x
          split
          · rfl
          · rw [sendRegister_reg]; unfold x; split
            · rw [sendRegister_reg, sendRegister_reg]
            · rfl
  unfold Dev.met
  rw [hm]
  split
  · rfl
  · exact wake_reg _ _ _ h1 h2

/-! ### One bit set -/

/-- The rows whose fields a part clamps by a rule of their own. -/
def partBases : List Nat :=
  [Adr.RAS_REG 0, Adr.NET_PCTRL 0, Adr.HP_PLANE 0, Adr.HP_DSKCTRL, Adr.RAS_PEEKIDX, Adr.TEL_FCIDX, Adr.DD_FIRST 0,
    Adr.DD_LAST 0, Adr.MEM_RMREQ]

theorem clampField_free {p : Part} {r : RegSpec} {f : FieldSpec} (hl : f.lim = none) (hb : partBases.contains r.base = false)
    (v : Nat) : clampField p r f v = v := by
  simp only [partBases, List.contains_cons, List.contains_nil, Bool.or_eq_false_iff, beq_eq_false_iff_ne, ne_eq] at hb
  obtain ⟨h1, h2, h3, h4, h5, h6, h7, h8, h9, -⟩ := hb
  unfold clampField
  cases p <;> simp [hl, h1, h2, h3, h4, h5, h6, h7, h8, h9]

/-- The address of a register of no shadow set whose stored fields have no limit and none of the given bits. -/
def BitRow (a base i bits : Nat) : Prop :=
  a % 4 = 0 ∧ setOf a = .none ∧ partBases.contains base = false ∧
    ∃ r w, regSpecAt a = some (r, i, w) ∧ r.base = base ∧
      r.flds.all (fun f => decide (f.acc ≠ .rw) || (decide (f.lim = none) && decide (f.lo ≤ f.hi) && decide (f.hi < 32) &&
        (List.range 32).all (fun j => !(decide (f.lo ≤ j) && decide (j ≤ f.hi) && bits.testBit j)))) = true

theorem storedWord_bits (p : Part) (r : RegSpec) (old : Word) (bits : Nat) (hb : partBases.contains r.base = false)
    (hf : r.flds.all (fun f => decide (f.acc ≠ .rw) || (decide (f.lim = none) && decide (f.lo ≤ f.hi) && decide (f.hi < 32) &&
        (List.range 32).all (fun j => !(decide (f.lo ≤ j) && decide (j ≤ f.hi) && bits.testBit j)))) = true) :
    storedWord p r old (old ||| BitVec.ofNat 32 bits) = old := by
  unfold storedWord
  have hl : ∀ (l : List FieldSpec), l.all (fun f => decide (f.acc ≠ .rw) || (decide (f.lim = none) && decide (f.lo ≤ f.hi) &&
        decide (f.hi < 32) && (List.range 32).all (fun j => !(decide (f.lo ≤ j) && decide (j ≤ f.hi) && bits.testBit j)))) = true →
      l.foldl (fun w f => if f.acc = .rw then
        let v := bitsOf (old ||| BitVec.ofNat 32 bits).toNat f.hi f.lo
        setBits w f.hi f.lo (if r.set = .none then clampField p r f v else v) else w) old = old := by
    intro l
    induction l with
    | nil => intro _; rfl
    | cons f l ih =>
      intro h
      simp only [List.all_cons, Bool.and_eq_true] at h
      rw [List.foldl_cons]
      have hw : (if f.acc = .rw then
          let v := bitsOf (old ||| BitVec.ofNat 32 bits).toNat f.hi f.lo
          setBits old f.hi f.lo (if r.set = .none then clampField p r f v else v) else old) = old := by
        split
        · rename_i hacc
          have h1 := h.1
          simp only [hacc, ne_eq, not_true_eq_false, decide_false, Bool.false_or, Bool.and_eq_true, decide_eq_true_eq] at h1
          obtain ⟨⟨⟨hlim, hlo⟩, hhi⟩, hbits⟩ := h1
          simp only [clampField_free hlim hb, ite_self]
          apply BitVec.eq_of_getLsbD_eq
          intro j hj
          rw [← BitVec.testBit_toNat, ← BitVec.testBit_toNat, testBit_setBits _ _ _ _ _ hlo hhi]
          split
          · rename_i hin
            unfold bitsOf
            rw [Nat.testBit_mod_two_pow, Nat.testBit_shiftRight, BitVec.toNat_or, Nat.testBit_or]
            have hz : (BitVec.ofNat 32 bits).toNat.testBit (f.lo + (j - f.lo)) = false := by
              have hb2 : bits.testBit j = false := by
                have h3 := List.all_eq_true.mp hbits j (List.mem_range.mpr hj)
                simpa [hin.1, hin.2] using h3
              rw [show f.lo + (j - f.lo) = j by omega, BitVec.toNat_ofNat, Nat.testBit_mod_two_pow, hb2]
              simp
            rw [hz, Bool.or_false, show f.lo + (j - f.lo) = j by omega]
            simp; omega
          · rfl
        · rfl
      rw [hw]
      exact ih h.2
  exact hl _ hf

/-- A command that sets a bit of a register does what the register does, on the device as the write finds it. -/
theorem bits_act {s : State} {path : Path} {a base i bits : Nat} (h : Reaches s path a (s.dev.reg a ||| BitVec.ofNat 32 bits))
    (hr : BitRow a base i bits) (hp : a ≠ Adr.PWR_LASTWAKE ∧ a ≠ Adr.PWR_WAKECNT)
    (hh : holdsRegister s.dev.part a = true) (hs : silentRegister s.dev.part a = false)
    (hv : BitVec.ofNat 32 ((s.dev.reg a ||| BitVec.ofNat 32 bits).toNat &&& definedBits a) = s.dev.reg a ||| BitVec.ofNat 32 bits)
    (hc : base = Adr.CRC_CTRL 0 → bits &&& 7 = 0)
    (hb : ([Adr.LT_CHCFG 0, Adr.CRC_EXPLO 0, Adr.CRC_EXPHI 0, Adr.DMA_CHPROD 0, Adr.LT_SSI 0,
      Adr.LT_SSIPOLL 0, Adr.LANE_FOM, Adr.TIME_STEPNS].contains base || axisBound base) = false) :
    ∃ r, r.base = base ∧ writeBits path a bits s.dev s.mem =
      actOn (s.dev.met path a (s.dev.reg a ||| BitVec.ofNat 32 bits)) (s.dev.met path a (s.dev.reg a ||| BitVec.ofNat 32 bits))
        s.mem path [] r i a (s.dev.reg a ||| BitVec.ofNat 32 bits).toNat := by
  obtain ⟨ha, hset, hpb, r, w, hr, hbase, hf⟩ := hr
  refine ⟨r, hbase, ?_⟩
  unfold writeBits
  rw [writeAccess_row h ha hh hs hv (not_nzt hr) (not_thr hr) hr]
  simp only [List.contains_cons, List.contains_nil, Bool.or_eq_false_iff, beq_eq_false_iff_ne, ne_eq, Bool.or_false] at hb
  obtain ⟨⟨h1, h2, h3, h5, h6, h7, h8, h9⟩, hx⟩ := hb
  have hreg : (s.dev.met path a (s.dev.reg a ||| BitVec.ofNat 32 bits)).reg a = s.dev.reg a := met_reg _ _ _ _ hp.1 hp.2
  generalize s.dev.met path a (s.dev.reg a ||| BitVec.ofNat 32 bits) = d at *
  have hbar : d.barWrite r i a (s.dev.reg a ||| BitVec.ofNat 32 bits) = none := by
    unfold Dev.barWrite
    rw [hbase, if_neg (fun h => h1 h.1), if_neg (by rw [hx]; simp), if_neg (fun h => h.1.elim h2 h3), if_neg]
    · exact barPending_none _ hset
    · rintro ⟨e, -, q⟩
      unfold Dev.changesUnit at q
      rw [hreg] at q
      have : bitsOf (s.dev.reg a ||| BitVec.ofNat 32 bits).toNat 2 0 = bitsOf (s.dev.reg a).toNat 2 0 := by
        unfold bitsOf
        simp only [Nat.shiftRight_zero]
        apply Nat.eq_of_testBit_eq
        intro j
        rw [Nat.testBit_mod_two_pow, Nat.testBit_mod_two_pow, BitVec.toNat_or, Nat.testBit_or, BitVec.toNat_ofNat,
          Nat.testBit_mod_two_pow]
        by_cases hj : j < 3
        · have hz := congrArg (fun n => n.testBit j) (hc e)
          simp only [Nat.testBit_and, Nat.zero_testBit] at hz
          have h7 : (7 : Nat).testBit j = true := by
            rcases j with _ | _ | _ | j
            · decide
            · decide
            · decide
            · omega
          rw [h7, Bool.and_true] at hz
          simp [hz]
        · simp [hj]
      rw [this] at q
      simp at q
  have hst : d.storeReg r i a (s.dev.reg a ||| BitVec.ofNat 32 bits) = d := by
    unfold Dev.storeReg
    rw [hreg]
    have : storedWord d.part r (s.dev.reg a) (s.dev.reg a ||| BitVec.ofNat 32 bits) = d.reg a := by
      rw [hreg]; exact storedWord_bits _ _ _ _ (by rw [hbase]; exact hpb) hf
    simp only [this, keepReg_self, hbase, if_neg h6, if_neg h7, if_neg h8, if_neg h9]
  unfold writeReg
  rw [hbar]
  simp only [hbase, if_neg h5, hst]

/-! ### Reads with an effect -/

/-- Where a register lies that a read acts on. -/
def ReadRow (a base i : Nat) : Prop :=
  a % 4 = 0 ∧ isNzt a = false ∧ isThr a = false ∧ ∃ r, regSpecAt a = some (r, i, 0) ∧ r.base = base

theorem readAccess_row {d : Dev} {a base i : Nat} (h : ReadRow a base i) (hs : d.serviceReaches a = true)
    (hh : holdsRegister d.part a = true) (hsil : silentRegister d.part a = false) :
    ∃ r, r.base = base ∧ regSpecAt a = some (r, i, 0) ∧
      d.readAccess a = if a = Adr.JNL_RDDATA then (d.readEffect a).journalRead else d.readEffect a := by
  obtain ⟨ha, hn, ht, r, hr, hb⟩ := h
  refine ⟨r, hb, hr, ?_⟩
  unfold Dev.readAccess
  rw [if_pos hs]
  unfold windowRead
  rw [if_neg (by omega), hh, hsil, hn, ht]
  rfl

end Sys2Proof.Machine
end

