-- ==== Sys2Proof/Laws/Fields.lean ====
section
/-!
SUPPORT. Laws of field writes, of what a list of fields leaves alone, and of sparse tables that are filtered.
-/
namespace Sys2Proof.Machine

theorem OnlyFields.refl (l : List FieldRef) (d : Dev) : OnlyFields l d d := fun _ _ _ => rfl

theorem OnlyFields.of_win {l : List FieldRef} {d e : Dev} (hw : e.win = d.win) (hp : e.part = d.part) : OnlyFields l d e := by
  intro a i _; unfold Dev.reg; rw [hw, hp]

theorem onlyFields_wr (d : Dev) (f : FieldRef) (v : Nat) (h : f.ok = true) : OnlyFields [f] d (d.wr f v) := by
  intro a i hn
  by_cases ha : a = f.addr
  · subst ha
    rw [reg_wr_same]
    simp only [FieldRef.ok, decide_eq_true_eq] at h
    rw [testBit_setBits _ _ _ _ _ h.1 h.2]
    split
    · rename_i hi; exact absurd ⟨f, List.mem_singleton_self _, rfl, hi.1, hi.2⟩ hn
    · rfl
  · rw [reg_wr_ne _ _ ha]

theorem OnlyFields.trans {l : List FieldRef} {a b c : Dev} (h : OnlyFields l a b) (k : OnlyFields l b c) : OnlyFields l a c :=
  fun x i hn => (k x i hn).trans (h x i hn)

theorem OnlyFields.mono {l m : List FieldRef} {a b : Dev} (h : OnlyFields l a b) (hs : ∀ f ∈ l, f ∈ m) : OnlyFields m a b :=
  fun x i hn => h x i (fun ⟨f, hf, r⟩ => hn ⟨f, hs f hf, r⟩)

theorem spGet_filter {α : Type} (d : α) (a : Nat) (p : Nat → Bool) : ∀ l : List (Nat × α), p a = true →
    spGet d (l.filter (fun e => p e.1)) a = spGet d l a := by
  intro l hp
  induction l with
  | nil => rfl
  | cons e l ih =>
    obtain ⟨k, v⟩ := e
    rw [List.filter_cons]
    by_cases hk : k = a
    · subst hk; simp only [hp, if_true]; unfold spGet; simp
    · split
      · unfold spGet; rw [if_neg hk, if_neg hk, ih]
      · rw [ih]; conv_rhs => unfold spGet
        rw [if_neg hk]

theorem spGet_filter_none {α : Type} (d : α) (a : Nat) (p : Nat → Bool) : ∀ l : List (Nat × α), p a = false →
    spGet d (l.filter (fun e => p e.1)) a = d := by
  intro l hp
  induction l with
  | nil => rfl
  | cons e l ih =>
    obtain ⟨k, v⟩ := e
    rw [List.filter_cons]
    split
    · rename_i h
      rw [spGet, if_neg, ih]
      rintro rfl; rw [hp] at h; exact Bool.noConfusion h
    · exact ih

/-- A device that differs in its registers only from one that differs in them only. -/
theorem win_trans {a b c : Dev} (h : b = { a with win := b.win }) (k : c = { b with win := c.win }) : c = { a with win := c.win } := by
  rw [k, h]

theorem onlyFields_cons {l : List FieldRef} {a b : Dev} (f : FieldRef) (v : Nat) (hf : f ∈ l) (h : f.ok = true)
    (k : OnlyFields l a b) : OnlyFields l a (b.wr f v) :=
  k.trans (OnlyFields.mono (onlyFields_wr b f v h) (by intro g hg; rw [List.mem_singleton.1 hg]; exact hf))

end Sys2Proof.Machine
end

