-- ==== Sys2Proof/Laws/Parts.lean ====
section
/-!
SUPPORT. The parts of the device that come in numbers (planes, ports, channels, sessions, queues, domains, axes, units): a
part read after it is set, after another is set, and after it is set twice.
-/
namespace Sys2Proof.Machine

section
variable {α : Type} {n : Nat}

theorem vgetD_vmodN_same (v : Vector α n) (i : Nat) (f : α → α) (x : α) (h : i < n) :
    vgetD (vmodN v i f) i x = f (vgetD v i x) := by
  unfold vgetD vmodN; simp [h]

theorem vgetD_vmodN_ne (v : Vector α n) (i j : Nat) (f : α → α) (x : α) (h : j ≠ i) :
    vgetD (vmodN v i f) j x = vgetD v j x := by
  unfold vgetD vmodN
  split
  · split
    · rw [Vector.getElem_set_ne]; omega
    · rfl
  · rfl

theorem vmodN_vmodN (v : Vector α n) (i : Nat) (f g : α → α) : vmodN (vmodN v i f) i g = vmodN v i (fun x => g (f x)) := by
  unfold vmodN; split <;> simp

end

section
variable (d : Dev) {i j : Nat}

theorem plane_setPlane_same (h : i < 8) (x : PlaneLine) : (d.setPlane i x).plane i = x := vgetD_vmodN_same _ _ _ _ h
theorem plane_setPlane_ne (h : j ≠ i) (x : PlaneLine) : (d.setPlane i x).plane j = d.plane j := vgetD_vmodN_ne _ _ _ _ _ h
theorem setPlane_setPlane (x y : PlaneLine) : (d.setPlane i x).setPlane i y = d.setPlane i y := by
  unfold Dev.setPlane; simp only [vmodN_vmodN]

theorem port_setPort_same (h : i < 64) (x : Port) : (d.setPort i x).port i = x := vgetD_vmodN_same _ _ _ _ h
theorem port_setPort_ne (h : j ≠ i) (x : Port) : (d.setPort i x).port j = d.port j := vgetD_vmodN_ne _ _ _ _ _ h
theorem setPort_setPort (x y : Port) : (d.setPort i x).setPort i y = d.setPort i y := by
  unfold Dev.setPort; simp only [vmodN_vmodN]

theorem decode_setDecode_same (h : i < 8) (x : PlaneDecode) : (d.setDecode i x).decode i = x := vgetD_vmodN_same _ _ _ _ h
theorem raster_setRaster_same (h : i < 8) (x : PlaneRaster) : (d.setRaster i x).raster i = x := vgetD_vmodN_same _ _ _ _ h

theorem domain_setDomain_same (h : i < 14) (x : Domain) : (d.setDomain i x).domain i = x := vgetD_vmodN_same _ _ _ _ h
theorem domain_setDomain_ne (h : j ≠ i) (x : Domain) : (d.setDomain i x).domain j = d.domain j := vgetD_vmodN_ne _ _ _ _ _ h

theorem session_setSession_same (h : i < 16) (x : Option Session) : (d.setSession i x).session i = x :=
  vgetD_vmodN_same _ _ _ _ h
theorem session_setSession_ne (h : j ≠ i) (x : Option Session) : (d.setSession i x).session j = d.session j :=
  vgetD_vmodN_ne _ _ _ _ _ h

theorem queue_setQueue_same (h : i < 4) (x : NoticeQueue) : (d.setQueue i x).queue i = x := vgetD_vmodN_same _ _ _ _ h
theorem queue_setQueue_ne (h : j ≠ i) (x : NoticeQueue) : (d.setQueue i x).queue j = d.queue j := vgetD_vmodN_ne _ _ _ _ _ h

theorem chan_setChan_same (c : Fin 4) (x : Channel) : (d.setChan c x).chan c = x := by
  unfold Dev.setChan Dev.chan; simp
theorem chan_setChan_ne {c k : Fin 4} (h : k ≠ c) (x : Channel) : (d.setChan c x).chan k = d.chan k := by
  unfold Dev.setChan Dev.chan
  exact Vector.getElem_set_ne c.isLt k.isLt (fun e => h (Fin.ext e.symm))

theorem axis_setAxis_same (a : Fin 8) (x : AxisSt) : (d.setAxis a x).axis a = x := by
  unfold Dev.setAxis Dev.axis; simp
theorem gate_setGate_same (g : Fin 4) (x : GateSt) : (d.setGate g x).gate g = x := by
  unfold Dev.setGate Dev.gate; simp

end
end Sys2Proof.Machine
end

