-- ==== Sys2Proof/Laws/Report.lean ====
section
/-!
SUPPORT. Laws of reporting: a notice, a trouble record and a message change nothing of the device but what they report
through, the registers that count them, and what leaves it.
-/
namespace Sys2Proof.Machine

/-- Two devices that differ at most in their registers, reports, sessions and what has left them. -/
def Reported (d e : Dev) : Prop := e = { d with win := e.win, rep := e.rep, ojp := e.ojp, out := e.out }

theorem Reported.refl (d : Dev) : Reported d d := rfl

theorem Reported.trans {a b c : Dev} (h : Reported a b) (k : Reported b c) : Reported a c := by
  unfold Reported at *; rw [k]; rw [h]

theorem reported_wr (d : Dev) (f : FieldRef) (v : Nat) : Reported d (d.wr f v) := rfl
theorem reported_setSession (d : Dev) (i : Nat) (s : Option Session) : Reported d (d.setSession i s) := rfl
theorem reported_setQueue (d : Dev) (q : Nat) (x : NoticeQueue) : Reported d (d.setQueue q x) := rfl

theorem reported_sendFrame (d : Dev) (p : Fin 4) (o : Out) : Reported d (d.sendFrame p o) := by
  unfold Dev.sendFrame; split
  · exact rfl
  · exact Reported.refl d

theorem reported_transmit (d : Dev) (i : Nat) (s : Session) (k n : Nat) (b : Bytes) : Reported d (d.transmit i s k n b) := by
  unfold Dev.transmit; split
  · exact (reported_setSession d i _).trans (reported_sendFrame _ _ _)
  · exact reported_setSession d i _

theorem reported_launch (d : Dev) (i : Nat) (s : Session) (k : Nat) (b : Bytes) (p : Option (Nat × Nat)) :
    Reported d (d.launch i s k b p) := reported_transmit d i _ k _ b

theorem reported_sendSeq (d : Dev) (i k : Nat) (b : Bytes) (p : Option (Nat × Nat)) : Reported d (d.sendSeq i k b p) := by
  unfold Dev.sendSeq; split
  · exact Reported.refl d
  · split
    · exact reported_launch d i _ k b p
    · exact reported_setSession d i _

theorem reported_sendAll (is : List Nat) (k : Nat) (b : Bytes) (p : Option (Nat × Nat)) :
    ∀ d : Dev, Reported d (d.sendAll is k b p) := by
  unfold Dev.sendAll
  induction is with
  | nil => exact Reported.refl
  | cons i is ih => intro d; exact (reported_sendSeq d i k b p).trans (ih _)

theorem reported_pushNotice (d : Dev) (n : Notice) : Reported d (d.pushNotice n) := by
  unfold Dev.pushNotice; split
  · exact reported_wr d _ _
  · exact reported_sendAll _ _ _ _ d

theorem reported_drainQueue (d : Dev) (q : Nat) : Reported d (d.drainQueue q) := by
  unfold Dev.drainQueue
  have h : ∀ (l : List Notice) (e : Dev), Reported e (l.foldl (fun d n => d.pushNotice n) e) := by
    intro l
    induction l with
    | nil => exact Reported.refl
    | cons n l ih => intro e; exact (reported_pushNotice e n).trans (ih _)
  exact (reported_setQueue d q _).trans (h _ _)

theorem reported_enqueue (d : Dev) (n : Notice) : Reported d (d.enqueue n) := by
  unfold Dev.enqueue
  extract_lets q x e
  split
  · exact (reported_wr d _ _).trans (reported_wr _ _ _)
  · split
    · exact (reported_setQueue d q _).trans (reported_drainQueue _ _)
    · exact reported_setQueue d q _

theorem reported_noticeAt (d : Dev) (k : NoticeKind) (l : List (Nat × Nat × Nat)) : Reported d (d.noticeAt k l) :=
  reported_enqueue d _

theorem reported_notice (d : Dev) (k : NoticeKind) (l : List (Nat × Nat)) : Reported d (d.notice k l) :=
  reported_enqueue d _

@[simp] theorem sendFrame_part (d : Dev) (p : Fin 4) (o : Out) : (d.sendFrame p o).part = d.part := by rw [reported_sendFrame d p o]
@[simp] theorem sendFrame_devNum (d : Dev) (p : Fin 4) (o : Out) : (d.sendFrame p o).devNum = d.devNum := by rw [reported_sendFrame d p o]
@[simp] theorem sendFrame_act (d : Dev) (p : Fin 4) (o : Out) : (d.sendFrame p o).act = d.act := by rw [reported_sendFrame d p o]
@[simp] theorem sendFrame_now (d : Dev) (p : Fin 4) (o : Out) : (d.sendFrame p o).now = d.now := by rw [reported_sendFrame d p o]
@[simp] theorem sendFrame_job (d : Dev) (p : Fin 4) (o : Out) : (d.sendFrame p o).job = d.job := by rw [reported_sendFrame d p o]
@[simp] theorem sendFrame_dec (d : Dev) (p : Fin 4) (o : Out) : (d.sendFrame p o).dec = d.dec := by rw [reported_sendFrame d p o]
@[simp] theorem sendFrame_ras (d : Dev) (p : Fin 4) (o : Out) : (d.sendFrame p o).ras = d.ras := by rw [reported_sendFrame d p o]
@[simp] theorem sendFrame_lt (d : Dev) (p : Fin 4) (o : Out) : (d.sendFrame p o).lt = d.lt := by rw [reported_sendFrame d p o]
@[simp] theorem sendFrame_hp (d : Dev) (p : Fin 4) (o : Out) : (d.sendFrame p o).hp = d.hp := by rw [reported_sendFrame d p o]
@[simp] theorem sendFrame_dd (d : Dev) (p : Fin 4) (o : Out) : (d.sendFrame p o).dd = d.dd := by rw [reported_sendFrame d p o]
@[simp] theorem sendFrame_mot (d : Dev) (p : Fin 4) (o : Out) : (d.sendFrame p o).mot = d.mot := by rw [reported_sendFrame d p o]
@[simp] theorem sendFrame_pair (d : Dev) (p : Fin 4) (o : Out) : (d.sendFrame p o).pair = d.pair := by rw [reported_sendFrame d p o]
@[simp] theorem sendFrame_pwr (d : Dev) (p : Fin 4) (o : Out) : (d.sendFrame p o).pwr = d.pwr := by rw [reported_sendFrame d p o]
@[simp] theorem sendFrame_boot (d : Dev) (p : Fin 4) (o : Out) : (d.sendFrame p o).boot = d.boot := by rw [reported_sendFrame d p o]
@[simp] theorem sendFrame_memc (d : Dev) (p : Fin 4) (o : Out) : (d.sendFrame p o).memc = d.memc := by rw [reported_sendFrame d p o]
@[simp] theorem sendFrame_jnl (d : Dev) (p : Fin 4) (o : Out) : (d.sendFrame p o).jnl = d.jnl := by rw [reported_sendFrame d p o]
@[simp] theorem sendFrame_lane (d : Dev) (p : Fin 4) (o : Out) : (d.sendFrame p o).lane = d.lane := by rw [reported_sendFrame d p o]
@[simp] theorem sendFrame_time (d : Dev) (p : Fin 4) (o : Out) : (d.sendFrame p o).time = d.time := by rw [reported_sendFrame d p o]
@[simp] theorem sendFrame_dma (d : Dev) (p : Fin 4) (o : Out) : (d.sendFrame p o).dma = d.dma := by rw [reported_sendFrame d p o]
@[simp] theorem sendFrame_fire (d : Dev) (p : Fin 4) (o : Out) : (d.sendFrame p o).fire = d.fire := by rw [reported_sendFrame d p o]
@[simp] theorem sendFrame_free (d : Dev) (p : Fin 4) (o : Out) : (d.sendFrame p o).free = d.free := by rw [reported_sendFrame d p o]

@[simp] theorem sendSeq_part (d : Dev) (i k : Nat) (b : Bytes) (p : Option (Nat × Nat)) : (d.sendSeq i k b p).part = d.part := by rw [reported_sendSeq d i k b p]
@[simp] theorem sendSeq_devNum (d : Dev) (i k : Nat) (b : Bytes) (p : Option (Nat × Nat)) : (d.sendSeq i k b p).devNum = d.devNum := by rw [reported_sendSeq d i k b p]
@[simp] theorem sendSeq_act (d : Dev) (i k : Nat) (b : Bytes) (p : Option (Nat × Nat)) : (d.sendSeq i k b p).act = d.act := by rw [reported_sendSeq d i k b p]
@[simp] theorem sendSeq_now (d : Dev) (i k : Nat) (b : Bytes) (p : Option (Nat × Nat)) : (d.sendSeq i k b p).now = d.now := by rw [reported_sendSeq d i k b p]
@[simp] theorem sendSeq_job (d : Dev) (i k : Nat) (b : Bytes) (p : Option (Nat × Nat)) : (d.sendSeq i k b p).job = d.job := by rw [reported_sendSeq d i k b p]
@[simp] theorem sendSeq_dec (d : Dev) (i k : Nat) (b : Bytes) (p : Option (Nat × Nat)) : (d.sendSeq i k b p).dec = d.dec := by rw [reported_sendSeq d i k b p]
@[simp] theorem sendSeq_ras (d : Dev) (i k : Nat) (b : Bytes) (p : Option (Nat × Nat)) : (d.sendSeq i k b p).ras = d.ras := by rw [reported_sendSeq d i k b p]
@[simp] theorem sendSeq_lt (d : Dev) (i k : Nat) (b : Bytes) (p : Option (Nat × Nat)) : (d.sendSeq i k b p).lt = d.lt := by rw [reported_sendSeq d i k b p]
@[simp] theorem sendSeq_hp (d : Dev) (i k : Nat) (b : Bytes) (p : Option (Nat × Nat)) : (d.sendSeq i k b p).hp = d.hp := by rw [reported_sendSeq d i k b p]
@[simp] theorem sendSeq_dd (d : Dev) (i k : Nat) (b : Bytes) (p : Option (Nat × Nat)) : (d.sendSeq i k b p).dd = d.dd := by rw [reported_sendSeq d i k b p]
@[simp] theorem sendSeq_mot (d : Dev) (i k : Nat) (b : Bytes) (p : Option (Nat × Nat)) : (d.sendSeq i k b p).mot = d.mot := by rw [reported_sendSeq d i k b p]
@[simp] theorem sendSeq_pair (d : Dev) (i k : Nat) (b : Bytes) (p : Option (Nat × Nat)) : (d.sendSeq i k b p).pair = d.pair := by rw [reported_sendSeq d i k b p]
@[simp] theorem sendSeq_pwr (d : Dev) (i k : Nat) (b : Bytes) (p : Option (Nat × Nat)) : (d.sendSeq i k b p).pwr = d.pwr := by rw [reported_sendSeq d i k b p]
@[simp] theorem sendSeq_boot (d : Dev) (i k : Nat) (b : Bytes) (p : Option (Nat × Nat)) : (d.sendSeq i k b p).boot = d.boot := by rw [reported_sendSeq d i k b p]
@[simp] theorem sendSeq_memc (d : Dev) (i k : Nat) (b : Bytes) (p : Option (Nat × Nat)) : (d.sendSeq i k b p).memc = d.memc := by rw [reported_sendSeq d i k b p]
@[simp] theorem sendSeq_jnl (d : Dev) (i k : Nat) (b : Bytes) (p : Option (Nat × Nat)) : (d.sendSeq i k b p).jnl = d.jnl := by rw [reported_sendSeq d i k b p]
@[simp] theorem sendSeq_lane (d : Dev) (i k : Nat) (b : Bytes) (p : Option (Nat × Nat)) : (d.sendSeq i k b p).lane = d.lane := by rw [reported_sendSeq d i k b p]
@[simp] theorem sendSeq_time (d : Dev) (i k : Nat) (b : Bytes) (p : Option (Nat × Nat)) : (d.sendSeq i k b p).time = d.time := by rw [reported_sendSeq d i k b p]
@[simp] theorem sendSeq_dma (d : Dev) (i k : Nat) (b : Bytes) (p : Option (Nat × Nat)) : (d.sendSeq i k b p).dma = d.dma := by rw [reported_sendSeq d i k b p]
@[simp] theorem sendSeq_fire (d : Dev) (i k : Nat) (b : Bytes) (p : Option (Nat × Nat)) : (d.sendSeq i k b p).fire = d.fire := by rw [reported_sendSeq d i k b p]
@[simp] theorem sendSeq_free (d : Dev) (i k : Nat) (b : Bytes) (p : Option (Nat × Nat)) : (d.sendSeq i k b p).free = d.free := by rw [reported_sendSeq d i k b p]

@[simp] theorem noticeAt_part (d : Dev) (k : NoticeKind) (l : List (Nat × Nat × Nat)) : (d.noticeAt k l).part = d.part := by rw [reported_noticeAt d k l]
@[simp] theorem noticeAt_devNum (d : Dev) (k : NoticeKind) (l : List (Nat × Nat × Nat)) : (d.noticeAt k l).devNum = d.devNum := by rw [reported_noticeAt d k l]
@[simp] theorem noticeAt_act (d : Dev) (k : NoticeKind) (l : List (Nat × Nat × Nat)) : (d.noticeAt k l).act = d.act := by rw [reported_noticeAt d k l]
@[simp] theorem noticeAt_now (d : Dev) (k : NoticeKind) (l : List (Nat × Nat × Nat)) : (d.noticeAt k l).now = d.now := by rw [reported_noticeAt d k l]
@[simp] theorem noticeAt_job (d : Dev) (k : NoticeKind) (l : List (Nat × Nat × Nat)) : (d.noticeAt k l).job = d.job := by rw [reported_noticeAt d k l]
@[simp] theorem noticeAt_dec (d : Dev) (k : NoticeKind) (l : List (Nat × Nat × Nat)) : (d.noticeAt k l).dec = d.dec := by rw [reported_noticeAt d k l]
@[simp] theorem noticeAt_ras (d : Dev) (k : NoticeKind) (l : List (Nat × Nat × Nat)) : (d.noticeAt k l).ras = d.ras := by rw [reported_noticeAt d k l]
@[simp] theorem noticeAt_lt (d : Dev) (k : NoticeKind) (l : List (Nat × Nat × Nat)) : (d.noticeAt k l).lt = d.lt := by rw [reported_noticeAt d k l]
@[simp] theorem noticeAt_hp (d : Dev) (k : NoticeKind) (l : List (Nat × Nat × Nat)) : (d.noticeAt k l).hp = d.hp := by rw [reported_noticeAt d k l]
@[simp] theorem noticeAt_dd (d : Dev) (k : NoticeKind) (l : List (Nat × Nat × Nat)) : (d.noticeAt k l).dd = d.dd := by rw [reported_noticeAt d k l]
@[simp] theorem noticeAt_mot (d : Dev) (k : NoticeKind) (l : List (Nat × Nat × Nat)) : (d.noticeAt k l).mot = d.mot := by rw [reported_noticeAt d k l]
@[simp] theorem noticeAt_pair (d : Dev) (k : NoticeKind) (l : List (Nat × Nat × Nat)) : (d.noticeAt k l).pair = d.pair := by rw [reported_noticeAt d k l]
@[simp] theorem noticeAt_pwr (d : Dev) (k : NoticeKind) (l : List (Nat × Nat × Nat)) : (d.noticeAt k l).pwr = d.pwr := by rw [reported_noticeAt d k l]
@[simp] theorem noticeAt_boot (d : Dev) (k : NoticeKind) (l : List (Nat × Nat × Nat)) : (d.noticeAt k l).boot = d.boot := by rw [reported_noticeAt d k l]
@[simp] theorem noticeAt_memc (d : Dev) (k : NoticeKind) (l : List (Nat × Nat × Nat)) : (d.noticeAt k l).memc = d.memc := by rw [reported_noticeAt d k l]
@[simp] theorem noticeAt_jnl (d : Dev) (k : NoticeKind) (l : List (Nat × Nat × Nat)) : (d.noticeAt k l).jnl = d.jnl := by rw [reported_noticeAt d k l]
@[simp] theorem noticeAt_lane (d : Dev) (k : NoticeKind) (l : List (Nat × Nat × Nat)) : (d.noticeAt k l).lane = d.lane := by rw [reported_noticeAt d k l]
@[simp] theorem noticeAt_time (d : Dev) (k : NoticeKind) (l : List (Nat × Nat × Nat)) : (d.noticeAt k l).time = d.time := by rw [reported_noticeAt d k l]
@[simp] theorem noticeAt_dma (d : Dev) (k : NoticeKind) (l : List (Nat × Nat × Nat)) : (d.noticeAt k l).dma = d.dma := by rw [reported_noticeAt d k l]
@[simp] theorem noticeAt_fire (d : Dev) (k : NoticeKind) (l : List (Nat × Nat × Nat)) : (d.noticeAt k l).fire = d.fire := by rw [reported_noticeAt d k l]
@[simp] theorem noticeAt_free (d : Dev) (k : NoticeKind) (l : List (Nat × Nat × Nat)) : (d.noticeAt k l).free = d.free := by rw [reported_noticeAt d k l]

@[simp] theorem notice_part (d : Dev) (k : NoticeKind) (l : List (Nat × Nat)) : (d.notice k l).part = d.part := by rw [reported_notice d k l]
@[simp] theorem notice_devNum (d : Dev) (k : NoticeKind) (l : List (Nat × Nat)) : (d.notice k l).devNum = d.devNum := by rw [reported_notice d k l]
@[simp] theorem notice_act (d : Dev) (k : NoticeKind) (l : List (Nat × Nat)) : (d.notice k l).act = d.act := by rw [reported_notice d k l]
@[simp] theorem notice_now (d : Dev) (k : NoticeKind) (l : List (Nat × Nat)) : (d.notice k l).now = d.now := by rw [reported_notice d k l]
@[simp] theorem notice_job (d : Dev) (k : NoticeKind) (l : List (Nat × Nat)) : (d.notice k l).job = d.job := by rw [reported_notice d k l]
@[simp] theorem notice_dec (d : Dev) (k : NoticeKind) (l : List (Nat × Nat)) : (d.notice k l).dec = d.dec := by rw [reported_notice d k l]
@[simp] theorem notice_ras (d : Dev) (k : NoticeKind) (l : List (Nat × Nat)) : (d.notice k l).ras = d.ras := by rw [reported_notice d k l]
@[simp] theorem notice_lt (d : Dev) (k : NoticeKind) (l : List (Nat × Nat)) : (d.notice k l).lt = d.lt := by rw [reported_notice d k l]
@[simp] theorem notice_hp (d : Dev) (k : NoticeKind) (l : List (Nat × Nat)) : (d.notice k l).hp = d.hp := by rw [reported_notice d k l]
@[simp] theorem notice_dd (d : Dev) (k : NoticeKind) (l : List (Nat × Nat)) : (d.notice k l).dd = d.dd := by rw [reported_notice d k l]
@[simp] theorem notice_mot (d : Dev) (k : NoticeKind) (l : List (Nat × Nat)) : (d.notice k l).mot = d.mot := by rw [reported_notice d k l]
@[simp] theorem notice_pair (d : Dev) (k : NoticeKind) (l : List (Nat × Nat)) : (d.notice k l).pair = d.pair := by rw [reported_notice d k l]
@[simp] theorem notice_pwr (d : Dev) (k : NoticeKind) (l : List (Nat × Nat)) : (d.notice k l).pwr = d.pwr := by rw [reported_notice d k l]
@[simp] theorem notice_boot (d : Dev) (k : NoticeKind) (l : List (Nat × Nat)) : (d.notice k l).boot = d.boot := by rw [reported_notice d k l]
@[simp] theorem notice_memc (d : Dev) (k : NoticeKind) (l : List (Nat × Nat)) : (d.notice k l).memc = d.memc := by rw [reported_notice d k l]
@[simp] theorem notice_jnl (d : Dev) (k : NoticeKind) (l : List (Nat × Nat)) : (d.notice k l).jnl = d.jnl := by rw [reported_notice d k l]
@[simp] theorem notice_lane (d : Dev) (k : NoticeKind) (l : List (Nat × Nat)) : (d.notice k l).lane = d.lane := by rw [reported_notice d k l]
@[simp] theorem notice_time (d : Dev) (k : NoticeKind) (l : List (Nat × Nat)) : (d.notice k l).time = d.time := by rw [reported_notice d k l]
@[simp] theorem notice_dma (d : Dev) (k : NoticeKind) (l : List (Nat × Nat)) : (d.notice k l).dma = d.dma := by rw [reported_notice d k l]
@[simp] theorem notice_fire (d : Dev) (k : NoticeKind) (l : List (Nat × Nat)) : (d.notice k l).fire = d.fire := by rw [reported_notice d k l]
@[simp] theorem notice_free (d : Dev) (k : NoticeKind) (l : List (Nat × Nat)) : (d.notice k l).free = d.free := by rw [reported_notice d k l]

theorem trouble_eq (d : Dev) (k : NoticeKind) (l : List (Nat × Nat)) :
    ∃ r j, d.trouble k l = { d with rep := r, jnl := j } := ⟨_, _, rfl⟩

@[simp] theorem trouble_part (d : Dev) (k : NoticeKind) (l : List (Nat × Nat)) : (d.trouble k l).part = d.part := by
  obtain ⟨r, j, h⟩ := trouble_eq d k l; rw [h]
@[simp] theorem trouble_devNum (d : Dev) (k : NoticeKind) (l : List (Nat × Nat)) : (d.trouble k l).devNum = d.devNum := by
  obtain ⟨r, j, h⟩ := trouble_eq d k l; rw [h]
@[simp] theorem trouble_act (d : Dev) (k : NoticeKind) (l : List (Nat × Nat)) : (d.trouble k l).act = d.act := by
  obtain ⟨r, j, h⟩ := trouble_eq d k l; rw [h]
@[simp] theorem trouble_now (d : Dev) (k : NoticeKind) (l : List (Nat × Nat)) : (d.trouble k l).now = d.now := by
  obtain ⟨r, j, h⟩ := trouble_eq d k l; rw [h]
@[simp] theorem trouble_job (d : Dev) (k : NoticeKind) (l : List (Nat × Nat)) : (d.trouble k l).job = d.job := by
  obtain ⟨r, j, h⟩ := trouble_eq d k l; rw [h]
@[simp] theorem trouble_dec (d : Dev) (k : NoticeKind) (l : List (Nat × Nat)) : (d.trouble k l).dec = d.dec := by
  obtain ⟨r, j, h⟩ := trouble_eq d k l; rw [h]
@[simp] theorem trouble_ras (d : Dev) (k : NoticeKind) (l : List (Nat × Nat)) : (d.trouble k l).ras = d.ras := by
  obtain ⟨r, j, h⟩ := trouble_eq d k l; rw [h]
@[simp] theorem trouble_lt (d : Dev) (k : NoticeKind) (l : List (Nat × Nat)) : (d.trouble k l).lt = d.lt := by
  obtain ⟨r, j, h⟩ := trouble_eq d k l; rw [h]
@[simp] theorem trouble_hp (d : Dev) (k : NoticeKind) (l : List (Nat × Nat)) : (d.trouble k l).hp = d.hp := by
  obtain ⟨r, j, h⟩ := trouble_eq d k l; rw [h]
@[simp] theorem trouble_dd (d : Dev) (k : NoticeKind) (l : List (Nat × Nat)) : (d.trouble k l).dd = d.dd := by
  obtain ⟨r, j, h⟩ := trouble_eq d k l; rw [h]
@[simp] theorem trouble_mot (d : Dev) (k : NoticeKind) (l : List (Nat × Nat)) : (d.trouble k l).mot = d.mot := by
  obtain ⟨r, j, h⟩ := trouble_eq d k l; rw [h]
@[simp] theorem trouble_pair (d : Dev) (k : NoticeKind) (l : List (Nat × Nat)) : (d.trouble k l).pair = d.pair := by
  obtain ⟨r, j, h⟩ := trouble_eq d k l; rw [h]
@[simp] theorem trouble_pwr (d : Dev) (k : NoticeKind) (l : List (Nat × Nat)) : (d.trouble k l).pwr = d.pwr := by
  obtain ⟨r, j, h⟩ := trouble_eq d k l; rw [h]
@[simp] theorem trouble_boot (d : Dev) (k : NoticeKind) (l : List (Nat × Nat)) : (d.trouble k l).boot = d.boot := by
  obtain ⟨r, j, h⟩ := trouble_eq d k l; rw [h]
@[simp] theorem trouble_memc (d : Dev) (k : NoticeKind) (l : List (Nat × Nat)) : (d.trouble k l).memc = d.memc := by
  obtain ⟨r, j, h⟩ := trouble_eq d k l; rw [h]
@[simp] theorem trouble_lane (d : Dev) (k : NoticeKind) (l : List (Nat × Nat)) : (d.trouble k l).lane = d.lane := by
  obtain ⟨r, j, h⟩ := trouble_eq d k l; rw [h]
@[simp] theorem trouble_time (d : Dev) (k : NoticeKind) (l : List (Nat × Nat)) : (d.trouble k l).time = d.time := by
  obtain ⟨r, j, h⟩ := trouble_eq d k l; rw [h]
@[simp] theorem trouble_dma (d : Dev) (k : NoticeKind) (l : List (Nat × Nat)) : (d.trouble k l).dma = d.dma := by
  obtain ⟨r, j, h⟩ := trouble_eq d k l; rw [h]
@[simp] theorem trouble_fire (d : Dev) (k : NoticeKind) (l : List (Nat × Nat)) : (d.trouble k l).fire = d.fire := by
  obtain ⟨r, j, h⟩ := trouble_eq d k l; rw [h]
@[simp] theorem trouble_free (d : Dev) (k : NoticeKind) (l : List (Nat × Nat)) : (d.trouble k l).free = d.free := by
  obtain ⟨r, j, h⟩ := trouble_eq d k l; rw [h]
@[simp] theorem trouble_win (d : Dev) (k : NoticeKind) (l : List (Nat × Nat)) : (d.trouble k l).win = d.win := by
  obtain ⟨r, j, h⟩ := trouble_eq d k l; rw [h]
@[simp] theorem trouble_ojp (d : Dev) (k : NoticeKind) (l : List (Nat × Nat)) : (d.trouble k l).ojp = d.ojp := by
  obtain ⟨r, j, h⟩ := trouble_eq d k l; rw [h]
@[simp] theorem trouble_out (d : Dev) (k : NoticeKind) (l : List (Nat × Nat)) : (d.trouble k l).out = d.out := by
  obtain ⟨r, j, h⟩ := trouble_eq d k l; rw [h]

@[simp] theorem noticeTrouble_part (d : Dev) (k : NoticeKind) (l : List (Nat × Nat)) : (d.noticeTrouble k l).part = d.part := by
  unfold Dev.noticeTrouble; simp
@[simp] theorem noticeTrouble_devNum (d : Dev) (k : NoticeKind) (l : List (Nat × Nat)) : (d.noticeTrouble k l).devNum = d.devNum := by
  unfold Dev.noticeTrouble; simp
@[simp] theorem noticeTrouble_act (d : Dev) (k : NoticeKind) (l : List (Nat × Nat)) : (d.noticeTrouble k l).act = d.act := by
  unfold Dev.noticeTrouble; simp
@[simp] theorem noticeTrouble_now (d : Dev) (k : NoticeKind) (l : List (Nat × Nat)) : (d.noticeTrouble k l).now = d.now := by
  unfold Dev.noticeTrouble; simp
@[simp] theorem noticeTrouble_job (d : Dev) (k : NoticeKind) (l : List (Nat × Nat)) : (d.noticeTrouble k l).job = d.job := by
  unfold Dev.noticeTrouble; simp
@[simp] theorem noticeTrouble_dec (d : Dev) (k : NoticeKind) (l : List (Nat × Nat)) : (d.noticeTrouble k l).dec = d.dec := by
  unfold Dev.noticeTrouble; simp
@[simp] theorem noticeTrouble_ras (d : Dev) (k : NoticeKind) (l : List (Nat × Nat)) : (d.noticeTrouble k l).ras = d.ras := by
  unfold Dev.noticeTrouble; simp
@[simp] theorem noticeTrouble_lt (d : Dev) (k : NoticeKind) (l : List (Nat × Nat)) : (d.noticeTrouble k l).lt = d.lt := by
  unfold Dev.noticeTrouble; simp
@[simp] theorem noticeTrouble_hp (d : Dev) (k : NoticeKind) (l : List (Nat × Nat)) : (d.noticeTrouble k l).hp = d.hp := by
  unfold Dev.noticeTrouble; simp
@[simp] theorem noticeTrouble_dd (d : Dev) (k : NoticeKind) (l : List (Nat × Nat)) : (d.noticeTrouble k l).dd = d.dd := by
  unfold Dev.noticeTrouble; simp
@[simp] theorem noticeTrouble_mot (d : Dev) (k : NoticeKind) (l : List (Nat × Nat)) : (d.noticeTrouble k l).mot = d.mot := by
  unfold Dev.noticeTrouble; simp
@[simp] theorem noticeTrouble_pair (d : Dev) (k : NoticeKind) (l : List (Nat × Nat)) : (d.noticeTrouble k l).pair = d.pair := by
  unfold Dev.noticeTrouble; simp
@[simp] theorem noticeTrouble_pwr (d : Dev) (k : NoticeKind) (l : List (Nat × Nat)) : (d.noticeTrouble k l).pwr = d.pwr := by
  unfold Dev.noticeTrouble; simp
@[simp] theorem noticeTrouble_boot (d : Dev) (k : NoticeKind) (l : List (Nat × Nat)) : (d.noticeTrouble k l).boot = d.boot := by
  unfold Dev.noticeTrouble; simp
@[simp] theorem noticeTrouble_memc (d : Dev) (k : NoticeKind) (l : List (Nat × Nat)) : (d.noticeTrouble k l).memc = d.memc := by
  unfold Dev.noticeTrouble; simp
@[simp] theorem noticeTrouble_lane (d : Dev) (k : NoticeKind) (l : List (Nat × Nat)) : (d.noticeTrouble k l).lane = d.lane := by
  unfold Dev.noticeTrouble; simp
@[simp] theorem noticeTrouble_time (d : Dev) (k : NoticeKind) (l : List (Nat × Nat)) : (d.noticeTrouble k l).time = d.time := by
  unfold Dev.noticeTrouble; simp
@[simp] theorem noticeTrouble_dma (d : Dev) (k : NoticeKind) (l : List (Nat × Nat)) : (d.noticeTrouble k l).dma = d.dma := by
  unfold Dev.noticeTrouble; simp
@[simp] theorem noticeTrouble_fire (d : Dev) (k : NoticeKind) (l : List (Nat × Nat)) : (d.noticeTrouble k l).fire = d.fire := by
  unfold Dev.noticeTrouble; simp
@[simp] theorem noticeTrouble_free (d : Dev) (k : NoticeKind) (l : List (Nat × Nat)) : (d.noticeTrouble k l).free = d.free := by
  unfold Dev.noticeTrouble; simp

/-! ### The registers that reporting writes -/

/-- The registers that a notice can change: frames sent, notices no session took, and the state of the notice queues. -/
def reportRegs : List Nat :=
  [Adr.NET_TXFRM 0, Adr.NET_TXFRM 1, Adr.NET_TXFRM 2, Adr.NET_TXFRM 3, Adr.NET_OJPNLOST, Adr.TRB_NQSTAT 0, Adr.TRB_NQSTAT 1,
    Adr.TRB_NQSTAT 2, Adr.TRB_NQSTAT 3]

theorem txfrm_mem : ∀ p : Fin 4, Adr.NET_TXFRM p.val ∈ reportRegs := by decide
theorem nqstat_mem : ∀ q : Fin 4, Adr.TRB_NQSTAT q.val ∈ reportRegs := by decide
theorem queueOf_lt (x : Nat) : queueOf x < 4 := by unfold queueOf; split <;> (try split) <;> (try split) <;> omega

section
variable {a : Nat} (h : a ∉ reportRegs)
include h

theorem sendFrame_reg (d : Dev) (p : Fin 4) (o : Out) : (d.sendFrame p o).reg a = d.reg a := by
  unfold Dev.sendFrame; split
  · exact reg_bump_ne d (fun e => h (e ▸ txfrm_mem p))
  · rfl
theorem transmit_reg (d : Dev) (i : Nat) (s : Session) (k n : Nat) (b : Bytes) : (d.transmit i s k n b).reg a = d.reg a := by
  unfold Dev.transmit; split
  · exact (sendFrame_reg h _ _ _).trans rfl
  · rfl
theorem sendSeq_reg (d : Dev) (i k : Nat) (b : Bytes) (p : Option (Nat × Nat)) : (d.sendSeq i k b p).reg a = d.reg a := by
  unfold Dev.sendSeq; split
  · rfl
  · split
    · exact transmit_reg h ..
    · rfl
theorem sendAll_reg (is : List Nat) (k : Nat) (b : Bytes) (p : Option (Nat × Nat)) : ∀ d : Dev, (d.sendAll is k b p).reg a = d.reg a := by
  unfold Dev.sendAll
  induction is with
  | nil => intro d; rfl
  | cons i is ih => intro d; exact (ih _).trans (sendSeq_reg h ..)
theorem pushNotice_reg (d : Dev) (n : Notice) : (d.pushNotice n).reg a = d.reg a := by
  unfold Dev.pushNotice; split
  · exact reg_bump_ne d (fun e => h (e ▸ (by decide : Adr.NET_OJPNLOST ∈ reportRegs)))
  · exact sendAll_reg h ..
theorem pushNotices_reg (l : List Notice) : ∀ d : Dev, (l.foldl Dev.pushNotice d).reg a = d.reg a := by
  induction l with
  | nil => intro d; rfl
  | cons n l ih => intro d; exact (ih _).trans (pushNotice_reg h ..)
theorem enqueue_reg (d : Dev) (n : Notice) : (d.enqueue n).reg a = d.reg a := by
  unfold Dev.enqueue; extract_lets q x d'
  have hq : a ≠ Adr.TRB_NQSTAT q := fun e => h (e ▸ nqstat_mem ⟨q, queueOf_lt _⟩)
  split
  · exact (reg_sticky_ne _ hq).trans (reg_bumpSat_ne _ _ hq)
  · split
    · exact (pushNotices_reg h ..).trans rfl
    · rfl
theorem notice_reg (d : Dev) (k : NoticeKind) (l : List (Nat × Nat)) : (d.notice k l).reg a = d.reg a := enqueue_reg h ..
theorem noticeTrouble_reg (d : Dev) (k : NoticeKind) (l : List (Nat × Nat)) : (d.noticeTrouble k l).reg a = d.reg a :=
  (notice_reg h ..).trans (reg_congr (by simp) (by simp) a)
end

/-- A field of a register that reporting does not write. -/
theorem notice_rd (d : Dev) (k : NoticeKind) (l : List (Nat × Nat)) (f : FieldRef) (h : f.addr ∉ reportRegs) :
    (d.notice k l).rd f = d.rd f := by
  unfold Dev.rd; rw [notice_reg h]
theorem noticeTrouble_rd (d : Dev) (k : NoticeKind) (l : List (Nat × Nat)) (f : FieldRef) (h : f.addr ∉ reportRegs) :
    (d.noticeTrouble k l).rd f = d.rd f := by
  unfold Dev.rd; rw [noticeTrouble_reg h]
theorem sendFrame_rd (d : Dev) (p : Fin 4) (o : Out) (f : FieldRef) (h : f.addr ∉ reportRegs) : (d.sendFrame p o).rd f = d.rd f := by
  unfold Dev.rd; rw [sendFrame_reg h]

end Sys2Proof.Machine
end

