-- ==== Sys2Proof/Laws/Store.lean ====
section
/-!
SUPPORT. Laws of the job store: what one byte reads as after each write, and that every write keeps the canonical form.
-/
namespace Sys2Proof.Machine

/-! ### One byte -/

@[simp] theorem Mem.byte_set_same (m : Mem) (a : Nat) (b : Byte) : (m.set a b).byte a = b :=
  spGet_spPut_same 0#8 b a m.store

theorem Mem.byte_set_ne (m : Mem) {a c : Nat} (b : Byte) (h : c ≠ a) : (m.set a b).byte c = m.byte c :=
  spGet_spPut_ne 0#8 0#8 b h m.store

@[simp] theorem Mem.byte_block (m : Mem) (l a : Nat) : (m.block l).byte a = m.byte a := by
  unfold Mem.block; split <;> rfl

@[simp] theorem Mem.byte_heal (m : Mem) (s l a : Nat) : (m.heal s l).byte a = m.byte a := by
  unfold Mem.heal; split <;> rfl

@[simp] theorem Mem.byte_poisonLine (m : Mem) (l a : Nat) : (m.poisonLine l).byte a = m.byte a := rfl

/-- Bytes written: each reads as written, every other as before. -/
theorem Mem.byte_write (bs : Bytes) : ∀ (m : Mem) (a c : Nat),
    (m.write a bs).byte c = if a ≤ c ∧ c < a + bs.length then bs.getD (c - a) 0#8 else m.byte c := by
  induction bs with
  | nil => intro m a c; simp [Mem.write]
  | cons b bs ih =>
    intro m a c
    rw [Mem.write, ih]
    by_cases h : c = a
    · subst h
      rw [if_neg (by omega), if_pos (by simp)]
      simp
    · rw [Mem.byte_set_ne m b h]
      by_cases h2 : a + 1 ≤ c ∧ c < a + 1 + bs.length
      · rw [if_pos h2, if_pos (by simp only [List.length_cons]; omega)]
        obtain ⟨k, hk⟩ : ∃ k, c - a = k + 1 := ⟨c - a - 1, by omega⟩
        rw [hk, List.getD_cons_succ]
        congr 1; omega
      · rw [if_neg h2, if_neg (by simp only [List.length_cons]; omega)]

/-! ### The canonical form -/

theorem Mem.wf_iff (m : Mem) : m.wf = true ↔ spSorted m.store = true ∧ ∀ e ∈ m.store, e.2 ≠ 0#8 := by
  simp [Mem.wf, List.all_eq_true]

theorem Mem.wf_of_store {m n : Mem} (h : n.store = m.store) (hm : m.wf = true) : n.wf = true := by
  rw [Mem.wf_iff] at *; rw [h]; exact hm

theorem Mem.wf_set {m : Mem} {a : Nat} {b : Byte} (h : m.wf = true) : (m.set a b).wf = true := by
  rw [Mem.wf_iff] at *
  exact ⟨spSorted_spPut h.1, all_spPut h.2⟩

theorem Mem.wf_write (bs : Bytes) : ∀ {m : Mem} {a : Nat}, m.wf = true → (m.write a bs).wf = true := by
  induction bs with
  | nil => intro m a h; exact h
  | cons b bs ih => intro m a h; exact ih (Mem.wf_set h)

theorem Mem.wf_block {m : Mem} {l : Nat} (h : m.wf = true) : (m.block l).wf = true := by
  unfold Mem.block; split
  · exact Mem.wf_of_store rfl h
  · exact h

theorem Mem.wf_heal {m : Mem} {s l : Nat} (h : m.wf = true) : (m.heal s l).wf = true := by
  unfold Mem.heal; split
  · exact Mem.wf_of_store rfl h
  · exact h

theorem Mem.wf_poisonLine {m : Mem} {l : Nat} (h : m.wf = true) : (m.poisonLine l).wf = true := Mem.wf_of_store rfl h

theorem Mem.wf_poisonLines {ls : List Nat} : ∀ {m : Mem}, m.wf = true → (ls.foldl Mem.poisonLine m).wf = true := by
  induction ls with
  | nil => intro m h; exact h
  | cons l ls ih => intro m h; exact ih (Mem.wf_poisonLine h)

theorem Mem.wf_mergeLine {m : Mem} {finds : Finds} {s l a : Nat} {bs : Bytes} (h : m.wf = true) :
    (m.mergeLine finds s l a bs).1.wf = true := by
  have hw : ∀ p b, ((m.block l).write p b).wf = true := fun p b => Mem.wf_write b (Mem.wf_block h)
  unfold Mem.mergeLine
  dsimp only
  split
  · exact Mem.wf_heal (hw _ _)
  · split
    · exact Mem.wf_poisonLine (hw _ _)
    · exact hw _ _

theorem Mem.wf_mergeLines {finds : Finds} {s a : Nat} {bs : Bytes} (ls : List Nat) : ∀ {m : Mem}, m.wf = true →
    (Mem.mergeLines finds s a bs ls m).1.wf = true := by
  induction ls with
  | nil => intro m h; exact h
  | cons l ls ih => intro m h; exact ih (Mem.wf_mergeLine h)

theorem Mem.wf_hostWrite {m : Mem} {finds : Finds} {s a : Nat} {bs : Bytes} (h : m.wf = true) :
    (m.hostWrite finds s a bs).1.wf = true := Mem.wf_mergeLines _ h

theorem Mem.wf_filter {m : Mem} {p : Nat × Byte → Bool} {q : List Nat} (h : m.wf = true) :
    ({ m with store := m.store.filter p, poison := q } : Mem).wf = true := by
  rw [Mem.wf_iff] at *
  refine ⟨?_, fun e he => h.2 e (List.mem_filter.1 he).1⟩
  rw [spSorted_iff] at *
  exact h.1.filter _

/-! ### What a host's write leaves (R395) -/

/-- The part of a write that lies in one line leaves each byte of it in that line as written, and no other byte changed. -/
theorem Mem.byte_mergeLine (m : Mem) (finds : Finds) (s l a : Nat) (bs : Bytes) (c : Nat) :
    (m.mergeLine finds s l a bs).1.byte c =
      if l ≤ c ∧ c < l + 64 ∧ a ≤ c ∧ c < a + bs.length then bs.getD (c - a) 0#8 else m.byte c := by
  have hw : ∀ x : Mem, (∀ c, x.byte c =
      ((m.block l).write (max a l) ((bs.drop (max a l - a)).take (l + 64 - max a l))).byte c) →
      x.byte c = if l ≤ c ∧ c < l + 64 ∧ a ≤ c ∧ c < a + bs.length then bs.getD (c - a) 0#8 else m.byte c := by
    intro x hx
    rw [hx, Mem.byte_write, Mem.byte_block]
    simp only [List.length_take, List.length_drop]
    by_cases h : l ≤ c ∧ c < l + 64 ∧ a ≤ c ∧ c < a + bs.length
    · rw [if_pos h, if_pos (by omega)]
      rw [List.getD_eq_getElem?_getD, List.getD_eq_getElem?_getD, List.getElem?_take_of_lt (by omega), List.getElem?_drop]
      congr 2; omega
    · rw [if_neg h, if_neg (by omega)]
  unfold Mem.mergeLine
  dsimp only
  split
  · exact hw _ (fun c => Mem.byte_heal ..)
  · split
    · exact hw _ (fun c => Mem.byte_poisonLine ..)
    · exact hw _ (fun c => rfl)

theorem Mem.byte_mergeLines (finds : Finds) (s a : Nat) (bs : Bytes) (c : Nat) (ls : List Nat) : ∀ m : Mem,
    (Mem.mergeLines finds s a bs ls m).1.byte c =
      if (∃ l ∈ ls, l ≤ c ∧ c < l + 64) ∧ a ≤ c ∧ c < a + bs.length then bs.getD (c - a) 0#8 else m.byte c := by
  induction ls with
  | nil => intro m; simp [Mem.mergeLines]
  | cons l ls ih =>
    intro m
    show (Mem.mergeLines finds s a bs ls (m.mergeLine finds s l a bs).1).1.byte c = _
    rw [ih, Mem.byte_mergeLine]
    by_cases h1 : a ≤ c ∧ c < a + bs.length
    · by_cases h2 : ∃ l ∈ ls, l ≤ c ∧ c < l + 64
      · have h3 : ∃ k ∈ l :: ls, k ≤ c ∧ c < k + 64 := h2.imp (fun k hk => ⟨List.mem_cons_of_mem _ hk.1, hk.2⟩)
        rw [if_pos ⟨h2, h1⟩, if_pos ⟨h3, h1⟩]
      · rw [if_neg (fun h => h2 h.1)]
        by_cases h4 : l ≤ c ∧ c < l + 64
        · rw [if_pos ⟨h4.1, h4.2, h1.1, h1.2⟩, if_pos ⟨⟨l, List.mem_cons_self .., h4⟩, h1⟩]
        · rw [if_neg (fun h => h4 ⟨h.1, h.2.1⟩), if_neg]
          rintro ⟨⟨k, hk, hc⟩, -⟩
          rcases List.mem_cons.1 hk with rfl | hk
          · exact h4 hc
          · exact h2 ⟨k, hk, hc⟩
    · rw [if_neg (fun h => h1 h.2), if_neg (fun h => h1 h.2.2), if_neg (fun h => h1 h.2)]

/-- Every byte of a written range lies in one of its lines. -/
theorem mem_linesOf {a n c : Nat} (h : a ≤ c ∧ c < a + n) : ∃ l ∈ linesOf a n, l ≤ c ∧ c < l + 64 := by
  refine ⟨c / 64 * 64, ?_, by omega, by omega⟩
  unfold linesOf
  rw [if_neg (by omega)]
  refine List.mem_map.2 ⟨c / 64 - a / 64, List.mem_range.2 ?_, ?_⟩
  · have h1 : c / 64 ≤ (a + n - 1) / 64 := Nat.div_le_div_right (by omega)
    have h2 : a / 64 ≤ c / 64 := Nat.div_le_div_right h.1
    omega
  · have h2 : a / 64 ≤ c / 64 := Nat.div_le_div_right h.1
    rw [show a / 64 + (c / 64 - a / 64) = c / 64 by omega]

/-- R47, R395: a host's write leaves each byte of its range as written, and every other byte as it was. -/
theorem Mem.byte_hostWrite (m : Mem) (finds : Finds) (s a : Nat) (bs : Bytes) (c : Nat) :
    (m.hostWrite finds s a bs).1.byte c = if a ≤ c ∧ c < a + bs.length then bs.getD (c - a) 0#8 else m.byte c := by
  unfold Mem.hostWrite
  rw [Mem.byte_mergeLines]
  by_cases h : a ≤ c ∧ c < a + bs.length
  · rw [if_pos ⟨mem_linesOf h, h⟩, if_pos h]
  · rw [if_neg (fun x => h x.2), if_neg h]

end Sys2Proof.Machine
end

