-- ==== Sys2Proof/Laws/StoreKept.lean ====
section
/-!
SUPPORT. Every operation of the device keeps the job store's canonical form: one lemma for each operation that answers with a
job store, from the bottom upward.
-/
namespace Sys2Proof.Machine

/-! ### Folds -/

/-- A property that every step of a fold keeps holds at its end. -/
theorem foldl_keeps {α β : Type} (P : α → Prop) (f : α → β → α) (h : ∀ a b, P a → P (f a b)) (l : List β) :
    ∀ a, P a → P (l.foldl f a) := by
  induction l with
  | nil => intro a ha; exact ha
  | cons b l ih => intro a ha; exact ih _ (h a b ha)

/-! ### What is said of an answer -/

/-- The job store of a device and its store is in canonical form. -/
def Kept (x : Dev × Mem) : Prop := x.2.wf = true

/-- The same of an answer that also names DMA channels. -/
def Kept3 (x : Dev × Mem × List Nat) : Prop := x.2.1.wf = true

/-- The same of a window write's answer. -/
def KeptW (x : Nat × Dev × Mem) : Prop := x.2.2.wf = true

/-- The same of a DMA movement. -/
def KeptV (v : DmaMove) : Prop := v.mem.wf = true

/-- The same of a RegWrite in progress. -/
def KeptR (v : WriteRun) : Prop := v.mem.wf = true

theorem Kept.of {d : Dev} {m : Mem} (h : m.wf = true) : Kept (d, m) := h

theorem Kept3.of {d : Dev} {m : Mem} {l : List Nat} (h : m.wf = true) : Kept3 (d, m, l) := h

theorem Kept.mem {x : Dev × Mem} (h : Kept x) : x.2.wf = true := h

theorem KeptW.snd {x : Nat × Dev × Mem} (h : KeptW x) : Kept x.2 := h

/-- Either answer's store is in canonical form. -/
theorem ite_wf {c : Prop} [Decidable c] {x y : Dev × Mem} (hx : Kept x) (hy : Kept y) :
    Kept (if c then x else y) := by
  split
  · exact hx
  · exact hy

/-! ### Check units and DMA (R411 to R426) -/

theorem writeRecord_wf {d : Dev} {m : Mem} {c : Nat} {x : DmaDesc} {o : DmaOutcome} (h : m.wf = true) :
    Kept (writeRecord d m c x o) := by
  unfold writeRecord
  extract_lets _ _ _ _ _ _ e m1
  have hm : m1.wf = true := Mem.wf_hostWrite h
  exact ite_wf (Kept.of h) (Kept.of hm)

theorem dmaRecord_wf {d : Dev} {m : Mem} {c : Nat} (h : m.wf = true) : Kept3 (dmaRecord d m c) := by
  unfold dmaRecord
  extract_lets
  split
  · split
    · exact Kept3.of h
    · split
      · exact Kept3.of h
      · exact Kept3.of (writeRecord_wf h)
  · exact Kept3.of h

theorem dmaOutcome_wf {d : Dev} {m : Mem} {c : Nat} {x : DmaDesc} {a b f : Nat} {ls : List Nat} (h : m.wf = true) :
    Kept3 (dmaOutcome d m c x a b f ls) := by
  unfold dmaOutcome
  extract_lets
  generalize (if x.last ∧ a ≤ 1 then d.closeUnit x.unit c x.tag else (d, 0)) = r
  split
  · exact Kept3.of h
  · exact dmaRecord_wf h

theorem dmaStart_wf {d : Dev} {m : Mem} {c : Nat} (h : m.wf = true) : Kept3 (dmaStart d m c) := by
  unfold dmaStart
  extract_lets
  split
  · exact Kept3.of h
  · split
    · exact Kept3.of h
    · split
      · exact Kept3.of h
      · split
        · exact dmaOutcome_wf h
        · exact Kept3.of h

theorem dmaWork_wf (f : Nat) : ∀ {l : List Nat} {s : Dev × Mem}, Kept s → Kept (dmaWork f l s) := by
  induction f with
  | zero => intro l s h; exact h
  | succ f ih =>
    intro l s h
    cases l with
    | nil => exact h
    | cons c cs => exact ih (s := ((dmaStart s.1 s.2 c).1, (dmaStart s.1 s.2 c).2.1)) (dmaStart_wf h)

theorem dmaThen_wf {r : Dev × Mem × List Nat} (h : Kept3 r) : Kept (dmaThen r) := dmaWork_wf _ h

theorem dmaEvent_wf {s : Dev × Mem} {k a : Nat} (h : Kept s) : Kept (dmaEvent s k a) := dmaWork_wf _ h

theorem dmaPrintEvents_wf {d : Dev} {s : Dev × Mem} (h : Kept s) : Kept (dmaPrintEvents d s) := by
  unfold dmaPrintEvents
  refine foldl_keeps Kept _ ?_ _ _ h
  intro s n hs
  extract_lets x y t
  have ht : Kept t := ite_wf hs (dmaEvent_wf hs)
  clear_value t
  split
  · exact dmaEvent_wf ht
  · exact ht

theorem dmaFetch_wf {d : Dev} {m : Mem} {c : Nat} {finds : Finds} (h : m.wf = true) : Kept (dmaFetch d m c finds) := by
  unfold dmaFetch
  extract_lets
  split
  · exact h
  · split
    · exact h
    · split
      · exact dmaThen_wf (dmaStart_wf h)
      · exact h

theorem dmaTrigger_wf {d : Dev} {m : Mem} {c : Nat} (h : m.wf = true) : Kept (dmaTrigger d m c) := by
  unfold dmaTrigger
  extract_lets
  split
  · split
    · exact dmaThen_wf (dmaStart_wf h)
    · exact h
  · exact h

theorem dmaTimer_wf {d : Dev} {m : Mem} {t : Nat} (h : m.wf = true) : Kept (dmaTimer d m t) := by
  unfold dmaTimer
  split
  · exact dmaEvent_wf h
  · exact h

theorem deliverWords_wf (src dst : Nat) (bad : List Nat) (off : Nat) (bs : Bytes) (v : DmaMove) (h : KeptV v) :
    KeptV (deliverWords src dst bad off bs v) := by
  induction off, bs, v using deliverWords.induct src dst bad with
  | case1 off b0 b1 b2 b3 rest v ht ih => rw [deliverWords, if_pos ht]; exact ih h
  | case2 off b0 b1 b2 b3 rest v ht w r ih => rw [deliverWords, if_neg ht]; exact ih h
  | case3 off v bs hne => rw [deliverWords]; exact h; exact hne

theorem deliver_wf {v : DmaMove} {finds : Finds} {x : DmaDesc} {s t : Nat} {bs : Bytes} {bad : List Nat}
    (h : KeptV v) : KeptV (v.deliver finds x s t bs bad) := by
  unfold DmaMove.deliver
  extract_lets u w
  have hu : w.mem.wf = true := by
    show u.mem.wf = true
    unfold u
    split <;> exact h
  clear_value w
  split
  · exact Mem.wf_poisonLines (Mem.wf_hostWrite hu)
  · split
    · exact deliverWords_wf _ _ _ _ _ _ hu
    · exact hu

theorem copy_wf {v : DmaMove} {finds : Finds} {x : DmaDesc} {lo n : Nat} {down : Bool} (h : KeptV v) :
    KeptV (v.copy finds x lo n down) := by
  unfold DmaMove.copy
  extract_lets
  split
  · exact deliver_wf h
  · split
    · exact deliver_wf h
    · exact deliver_wf h

theorem element_wf {v : DmaMove} {finds : Finds} {x : DmaDesc} {i : Nat} (h : KeptV v) :
    KeptV (DmaMove.element x finds v i) := by
  unfold DmaMove.element
  extract_lets
  split
  · exact h
  · split
    · split <;> exact h
    · split
      · exact h
      · split
        · exact h
        · exact deliver_wf h

theorem dmaMove_wf {d : Dev} {m : Mem} {finds : Finds} {x : DmaDesc} {p : Option Nat} (h : m.wf = true) :
    KeptV (dmaMove d m finds x p) := by
  unfold dmaMove
  extract_lets
  split
  · exact foldl_keeps KeptV _ (fun v i hv => element_wf hv) _ _ h
  · split
    · exact copy_wf h
    · exact copy_wf h

theorem dmaMoved_wf {c : Nat} {x : DmaDesc} {v : DmaMove} {st : Nat} (h : KeptV v) :
    Kept3 (dmaMoved c x v st) := dmaOutcome_wf h

theorem dmaComplete_wf {d : Dev} {m : Mem} {c : Nat} {finds : Finds} (h : m.wf = true) :
    Kept (dmaComplete d m c finds) := by
  unfold dmaComplete
  extract_lets
  split
  · split
    · exact h
    · exact dmaThen_wf (dmaMoved_wf (dmaMove_wf h))
  · exact h

theorem dmaRecordWrite_wf {d : Dev} {m : Mem} (h : m.wf = true) : Kept (dmaRecordWrite d m) := by
  unfold dmaRecordWrite
  split
  · exact h
  · dsimp only
    split
    · exact h
    · exact dmaThen_wf (dmaRecord_wf h)

theorem dmaMirrored_wf {d : Dev} {m : Mem} {c : Nat} (h : m.wf = true) : Kept (dmaMirrored d m c) := by
  unfold dmaMirrored
  split
  · exact dmaThen_wf (dmaRecord_wf h)
  · exact h

theorem dmaAbort_wf {d : Dev} {m : Mem} {c : Nat} (h : m.wf = true) : Kept (dmaAbort d m c) := by
  unfold dmaAbort
  extract_lets
  split
  · exact dmaThen_wf (dmaMoved_wf (dmaMove_wf h))
  · exact dmaThen_wf (dmaOutcome_wf h)
  · exact dmaThen_wf (dmaOutcome_wf h)
  · exact h
  · exact h
  · exact h

/-! ### The register window (R11, R12) -/

theorem channelControl_wf {d : Dev} {m : Mem} {c : Fin 4} {p : Path} {b : Nat} (h : m.wf = true) :
    Kept (channelControl d m c p b) := by
  unfold channelControl
  extract_lets
  split
  · exact dmaPrintEvents_wf h
  · exact h

theorem dmaControl_wf {d : Dev} {m : Mem} {c v : Nat} (h : m.wf = true) : Kept (dmaControl d m c v) := by
  unfold dmaControl
  extract_lets
  split
  · exact dmaAbort_wf h
  · exact h

theorem unitReset_wf {d : Dev} {m : Mem} {u : Nat} (h : m.wf = true) : Kept (unitReset d m u) := dmaWork_wf _ h

theorem actStore_wf {d : Dev} {m : Mem} {finds : Finds} {r : RegSpec} {i v : Nat} (h : m.wf = true) :
    Kept (actStore d m finds r i v) := by
  unfold actStore
  split
  · exact h
  · split
    · exact h
    · split
      · exact dmaControl_wf h
      · split
        · split
          · exact unitReset_wf h
          · exact h
        · split
          · exact h
          · split
            · exact h
            · split <;> exact h

theorem actPrint_wf {was d : Dev} {m : Mem} {p : Path} {r : RegSpec} {i v : Nat} (h : m.wf = true) :
    Kept (actPrint was d m p r i v) := by
  unfold actPrint
  split
  · exact h
  · split
    · exact channelControl_wf h
    · split
      · exact h
      · split <;> exact h

theorem actOn_wf {was d : Dev} {m : Mem} {p : Path} {finds : Finds} {r : RegSpec} {i a v : Nat} (h : m.wf = true) :
    Kept (actOn was d m p finds r i a v) := by
  unfold actOn
  split <;> first | exact h | exact actStore_wf h | exact actPrint_wf h

theorem writeReg_wf {d : Dev} {m : Mem} {p : Path} {finds : Finds} {r : RegSpec} {i a : Nat} {v : Word} (h : m.wf = true) :
    Kept (writeReg d m p finds r i a v) := by
  unfold writeReg
  split
  · split
    · exact unitReset_wf h
    · exact h
  · split
    · exact h
    · exact actOn_wf h

theorem windowWrite_wf {d : Dev} {m : Mem} {p : Path} {finds : Finds} {a : Nat} {v : Word} (h : m.wf = true) :
    KeptW (windowWrite d m p finds a v) := by
  unfold windowWrite
  extract_lets
  split
  · exact h
  · split
    · exact h
    · split
      · exact h
      · split
        · exact h
        · split
          · exact h
          · split
            · exact h
            · exact writeReg_wf h

theorem serviceWrite_wf {d : Dev} {m : Mem} {req : Bytes} (h : m.wf = true) : Kept (serviceWrite d m req) := by
  unfold serviceWrite
  extract_lets
  split
  · exact windowWrite_wf h
  · exact h

theorem servicePort_wf {d : Dev} {m : Mem} {req : Bytes} (h : m.wf = true) : Kept (servicePort d m req) := by
  unfold servicePort
  split
  · exact h
  · split
    · exact h
    · split
      · split
        · exact h
        · exact serviceWrite_wf h
      · exact h

theorem writeAccess_wf {p : Path} {finds : Finds} {a : Nat} {v : Word} {d : Dev} {m : Mem} (h : m.wf = true) :
    Kept (writeAccess p finds a v d m) := by
  unfold writeAccess
  split
  · exact h
  · split
    · exact h
    · exact windowWrite_wf h

theorem writeBits_wf {p : Path} {a b : Nat} {d : Dev} {m : Mem} (h : m.wf = true) : Kept (writeBits p a b d m) :=
  writeAccess_wf h

/-! ### The job protocol (R82 to R123) -/

theorem storeFor_wf {d : Dev} {m : Mem} {i : Nat} {finds : Finds} {a : Nat} {bs : Bytes} (h : m.wf = true) :
    Kept (storeFor d m i finds a bs) := by
  unfold storeFor
  extract_lets e w r
  have hw : w.1.wf = true := Mem.wf_hostWrite h
  clear_value r w e
  split
  · exact Kept.of hw
  · cases r with
    | none => exact Kept.of hw
    | some r => exact Kept.of hw

theorem performJobWrite_wf {d : Dev} {m : Mem} {i : Nat} {g : OjpMsg} (h : m.wf = true) :
    Kept (performJobWrite d m i g) := by
  unfold performJobWrite
  extract_lets
  split
  · exact h
  · split
    · exact h
    · exact storeFor_wf h

theorem performLinkWrite_wf {d : Dev} {m : Mem} {i : Nat} {g : OjpMsg} (h : m.wf = true) :
    Kept (performLinkWrite d m i g) := by
  unfold performLinkWrite
  extract_lets
  split
  · exact h
  · exact storeFor_wf h

theorem writeEntry_wf {g : OjpMsg} {v : WriteRun} {k : Nat} (h : KeptR v) : KeptR (writeEntry g v k) := by
  unfold writeEntry
  extract_lets
  split <;> exact windowWrite_wf h

theorem performRegWrite_wf {d : Dev} {m : Mem} {i : Nat} {g : OjpMsg} (h : m.wf = true) :
    Kept (performRegWrite d m i g) := by
  have hv : ∀ n, KeptR ((List.range n).foldl (writeEntry g) ⟨d, m, 0, none⟩) := fun n =>
    foldl_keeps KeptR _ (fun v k hv => writeEntry_wf hv) _ _ h
  unfold performRegWrite
  extract_lets
  split
  · exact h
  · split
    · exact h
    · split <;> exact hv _

theorem performMsg_wf {d : Dev} {m : Mem} {i : Nat} {s : Session} {h : HeldMsg} (hm : m.wf = true) :
    Kept (performMsg d m i s h) := by
  unfold performMsg
  split
  · exact hm
  · split
    · exact hm
    · split
      · exact performJobWrite_wf hm
      · split
        · exact performLinkWrite_wf hm
        · split
          · exact hm
          · split
            · exact hm
            · split
              · exact performRegWrite_wf hm
              · exact hm

theorem performHeld_wf (i k : Nat) : ∀ {x : Dev × Mem}, Kept x → Kept (performHeld i k x) := by
  induction k with
  | zero => intro x h; exact h
  | succ k ih =>
    intro x h
    unfold performHeld
    split
    · exact h
    · split
      · exact h
      · split
        · exact h
        · split
          · exact h
          · exact ih (performMsg_wf h)

theorem sessionGoesOn_wf {x : Dev × Mem} {i : Nat} (h : Kept x) : Kept (sessionGoesOn x i) := by
  unfold sessionGoesOn
  split
  · exact performHeld_wf _ _ h
  · exact h

theorem sessionsGoOn_wf {x : Dev × Mem} (h : Kept x) : Kept (sessionsGoOn x) :=
  foldl_keeps Kept _ (fun _ _ hx => sessionGoesOn_wf hx) _ _ h

theorem receiveSequenced_wf {d : Dev} {m : Mem} {i : Nat} {s : Session} {k : Nat} {g : OjpMsg} (h : m.wf = true) :
    Kept (receiveSequenced d m i s k g) := by
  unfold receiveSequenced
  extract_lets
  split
  · exact h
  · split
    · exact sessionGoesOn_wf h
    · exact h

theorem receiveIn_wf {d : Dev} {m : Mem} {i : Nat} {s : Session} {k : Nat} {g : OjpMsg} (h : m.wf = true) :
    Kept (receiveIn d m i s k g) := by
  unfold receiveIn
  extract_lets
  split
  · exact h
  · split
    · exact h
    · split
      · split
        · exact receiveSequenced_wf h
        · exact h
      · exact h

theorem deliverMsg_wf {d : Dev} {m : Mem} {k : Nat} {g : OjpMsg} (h : m.wf = true) : Kept (deliverMsg d m k g) := by
  unfold deliverMsg
  split
  · exact h
  · split
    · exact receiveIn_wf h
    · exact h

theorem takeMsg_wf {d : Dev} {m : Mem} {k : Nat} {g : OjpMsg} {i : Instr} (h : m.wf = true) :
    Kept (takeMsg d m k g i) := by
  unfold takeMsg
  split
  · exact h
  · split
    · exact h
    · split
      · exact h
      · exact deliverMsg_wf h

theorem receiveMsg_wf {d : Dev} {m : Mem} {k : Nat} {g : OjpMsg} {i : Instr} (h : m.wf = true) :
    Kept (receiveMsg d m k g i) := by
  unfold receiveMsg
  extract_lets
  split
  · exact h
  · split
    · exact h
    · split
      · exact h
      · exact takeMsg_wf h

/-! ### The Igmal link (R319, R320, R338, R339) -/

theorem putLine_wf {m : Mem} {s l : Nat} {bs : Bytes} {p : Bool} (h : m.wf = true) : (m.putLine s l bs p).wf = true := by
  have hw : (((m.block l).write l (padTo 64 bs)).heal s l).wf = true := Mem.wf_heal (Mem.wf_write _ (Mem.wf_block h))
  unfold Mem.putLine
  extract_lets
  split
  · exact Mem.wf_poisonLine hw
  · exact hw

theorem mirrorLines_wf {d : Dev} {m : Mem} {ls : List (Nat × Bytes × Bool)} (h : m.wf = true) :
    Kept (mirrorLines d m ls) := by
  unfold mirrorLines
  split
  · exact foldl_keeps (fun m : Mem => m.wf = true) _ (fun _ _ hm => putLine_wf hm) _ _ h
  · exact h

theorem mirrorsDone_wf (k : Nat) : ∀ {x : Dev × Mem}, Kept x → Kept (mirrorsDone k x) := by
  induction k with
  | zero => intro x h; exact h
  | succ k ih =>
    intro x h
    unfold mirrorsDone
    split
    · exact h
    · dsimp only
      split
      · exact h
      · split
        · exact ih (sessionGoesOn_wf h)
        · split
          · exact ih (dmaMirrored_wf h)
          · exact ih h

theorem settleMirrors_wf {x : Dev × Mem} (h : Kept x) : Kept (settleMirrors x) := mirrorsDone_wf _ h

theorem mirrorAck_wf {d : Dev} {m : Mem} {n : Nat} (h : m.wf = true) : Kept (mirrorAck d m n) := settleMirrors_wf h

theorem registerMessage_wf {d : Dev} {m : Mem} {a : Nat} {v : Word} (h : m.wf = true) :
    Kept (registerMessage d m a v) := by
  unfold registerMessage
  split
  · exact h
  · split
    · exact windowWrite_wf h
    · split <;> exact h

theorem keeperActs_wf {d : Dev} {m : Mem} {g : SeqMsg} (h : m.wf = true) : Kept (keeperActs d m g) := by
  unfold keeperActs
  split
  · exact Kept.of h
  · exact dmaPrintEvents_wf (Kept.of h)
  · exact Kept.of h
  · exact Kept.of h
  · exact Kept.of h
  · exact Kept.of h

theorem sequenceMessage_wf {d : Dev} {m : Mem} {g : SeqMsg} (h : m.wf = true) : Kept (sequenceMessage d m g) := by
  unfold sequenceMessage
  split
  · exact h
  · split
    · exact h
    · exact keeperActs_wf h

theorem repairAnswer_wf {d : Dev} {m : Mem} {l : Nat} {bs : Option Bytes} (h : m.wf = true) :
    Kept (repairAnswer d m l bs) := by
  unfold repairAnswer
  extract_lets
  split
  · exact h
  · cases bs with
    | none => exact h
    | some bs => exact putLine_wf h

theorem putRegion_wf {m : Mem} {s o : Nat} {ls : List (Nat × Bytes)} (h : m.wf = true) : (m.putRegion s o ls).wf = true :=
  foldl_keeps (fun m : Mem => m.wf = true) _ (fun _ _ hm => putLine_wf hm) _ _ (Mem.wf_filter h)

theorem resyncItem_wf {d : Dev} {m : Mem} {x : ResyncItem} (h : m.wf = true) : Kept (resyncItem d m x) := by
  unfold resyncItem
  split <;> first | exact h | exact putRegion_wf h | exact Mem.wf_poisonLine h | exact keeperActs_wf h

theorem resyncData_wf {d : Dev} {m : Mem} {x : ResyncItem} (h : m.wf = true) : Kept (resyncData d m x) := by
  unfold resyncData
  split
  · exact resyncItem_wf h
  · exact h

/-! ### The memories (R379 to R409) -/

theorem spoil_wf {m : Mem} {l : Nat} {bs : Bytes} (h : m.wf = true) : (m.spoil l bs).wf = true := by
  unfold Mem.spoil
  split
  · exact h
  · exact Mem.wf_write _ h

theorem sweeperFind_wf {d : Dev} {m : Mem} {l : Nat} {e : Bytes} (h : m.wf = true) :
    Kept (d.sweeperFind m l e) := by
  unfold Dev.sweeperFind
  extract_lets
  split
  · exact h
  · rename_i j _
    exact Mem.wf_of_store (m := m.spoil l (residualErrors (some j) e)) rfl (spoil_wf h)
  · exact h
  · exact Mem.wf_poisonLine (spoil_wf h)

theorem sweeperRead_wf {d : Dev} {m : Mem} {e : Bytes} (h : m.wf = true) : Kept (d.sweeperRead m e) := by
  unfold Dev.sweeperRead
  split
  · extract_lets r
    exact Kept.of (sweeperFind_wf h).mem
  · exact h

theorem sweeperReread_wf {d : Dev} {m : Mem} {l : Nat} {e : Bytes} (h : m.wf = true) :
    Kept (d.sweeperReread m l e) := by
  unfold Dev.sweeperReread; dsimp only
  split
  · split
    · exact h
    · exact sweeperFind_wf h
  · exact h

theorem fresh_wf (m : Mem) : m.fresh.wf = true := rfl

theorem trainingDone_wf {d : Dev} {m : Mem} {ok : Nat} (h : m.wf = true) : Kept (d.trainingDone m ok) := by
  unfold Dev.trainingDone
  extract_lets
  split
  · split
    · exact h
    · exact fresh_wf m
  · exact h

theorem kindleDone_wf {d : Dev} {m : Mem} (h : m.wf = true) : Kept (d.kindleDone m) := by
  unfold Dev.kindleDone
  split
  · exact Mem.wf_of_store rfl h
  · exact h

/-! ### Start-up (R446, R447) -/

theorem cfgWrite_wf {s : Dev × Mem} {a : Nat} {v : Word} (h : Kept s) : Kept (cfgWrite s a v) := by
  unfold cfgWrite
  extract_lets
  split
  · exact h
  · exact windowWrite_wf h

theorem cfgRegister_wf {s : Dev × Mem} {f : Nat × Bytes} (h : Kept s) : Kept (cfgRegister s f) := by
  unfold cfgRegister
  split
  · exact cfgWrite_wf h
  · exact h

theorem cfgWords_wf (a : Nat) (bs : Bytes) (s : Dev × Mem) (h : Kept s) : Kept (cfgWords a bs s) := by
  induction a, bs, s using cfgWords.induct with
  | case1 a b0 b1 b2 b3 bs s ih => rw [cfgWords]; exact ih (cfgWrite_wf h)
  | case2 a s bs hne => rw [cfgWords]; exact h; exact hne

theorem applyRecord_wf {s : Dev × Mem} {r : CfgRecord} (h : Kept s) : Kept (applyRecord s r) := by
  unfold applyRecord
  split
  · exact foldl_keeps Kept _ (fun _ _ hs => cfgRegister_wf hs) _ _ h
  · split
    · split
      · exact cfgWords_wf _ _ _ h
      · exact h
    · split <;> exact h

theorem stokerRelease_wf {d : Dev} {m : Mem} (h : m.wf = true) : Kept (stokerRelease d m) := by
  unfold stokerRelease
  split
  · exact h
  · exact foldl_keeps Kept _ (fun _ _ hs => applyRecord_wf hs) _ (_, m) h

/-! ### What every command shares -/

theorem storeMessage_wf {i : Instr} {f : Dev → Mem → Dev × Mem} {d : Dev} {m : Mem}
    (hf : ∀ d m, m.wf = true → Kept (f d m)) (h : m.wf = true) : Kept (storeMessage i f d m) := by
  unfold storeMessage
  split
  · exact hf _ _ h
  · exact h

theorem deskewWrite_wf {p : Path} {a : Bool} {q : Fin 64} {g : Bool} {d : Dev} {m : Mem} (h : m.wf = true) :
    Kept (deskewWrite p a q g d m) := by
  unfold deskewWrite
  exact ite_wf h (ite_wf h (Kept.of (writeAccess_wf h)))

theorem takeUp_wf {x : Dev × Mem} {i : Instr} (h : Kept x) : Kept (takeUp x i) := by
  unfold takeUp
  extract_lets host
  have hh : ∀ f, Kept (host f) := fun f => ite_wf h h
  clear_value host
  split
  iterate 10 exact takeMsg_wf h
  · exact h
  iterate 7 exact hh _
  · exact storeMessage_wf (fun _ _ hm => mirrorLines_wf hm) h
  · exact storeMessage_wf (fun _ _ hm => hm) h
  · exact storeMessage_wf (fun _ _ hm => repairAnswer_wf hm) h
  · exact storeMessage_wf (fun _ _ hm => resyncData_wf hm) h
  · exact sequenceMessage_wf h
  · exact writeAccess_wf h
  · exact writeAccess_wf h
  · exact deskewWrite_wf h
  · exact h

theorem takeUpAll_wf {x : Dev × Mem} (h : Kept x) : Kept (takeUpAll x) :=
  sessionsGoOn_wf (foldl_keeps Kept _ (fun _ _ hx => takeUp_wf hx) _
    ({ x.1 with ojp := { x.1.ojp with arrived := [] } }, x.2) h)

theorem settlePair_wf {d : Dev} {x : Dev × Mem} (h : Kept x) : Kept (settlePair d x) := by
  unfold settlePair
  extract_lets e y z
  have h1 : Kept y := settleMirrors_wf h
  exact ite_wf (sessionsGoOn_wf h1) h1

theorem settle_wf {s : State} {x : Dev × Mem} (h : Kept x) : (settle s x).mem.wf = true := by
  unfold settle
  split
  · exact settlePair_wf h
  · exact h

theorem probeEdge_wf {d : Dev} {m : Mem} {k : Fin 4} {r : Bool} (h : m.wf = true) : Kept (probeEdge d m k r) := by
  unfold probeEdge
  split
  · exact dmaPrintEvents_wf h
  · exact h

theorem exitDone_wf {k : Nat} {d : Dev} {m : Mem} (h : m.wf = true) : Kept (exitDone k d m) := takeUpAll_wf h

end Sys2Proof.Machine
end

