-- ==== Sys2Proof/WellFormed.lean ====
section
/-!
DEFINITION. Well-formed commands: what a command brings from outside lies within the ranges that the spec gives it.  The
machine runs every command, well-formed or not; this says which of them the device's surroundings can send.
-/
namespace Sys2Proof

/-- R11, Table 3: a window address fits 32 bits. -/
def addressOk (a : Nat) : Bool := decide (a < 2 ^ 32)

/-- R46, R103: an offset of a 64-byte line of the job store: a multiple of 64 below 2^40. -/
def lineOk (line : Nat) : Bool := decide (line % 64 = 0 ∧ line < 2 ^ 40)

/-- R392: what a command's reads find is named by lines. -/
def findsOk (fs : Finds) : Bool := fs.all (fun e => lineOk e.1)

/-- R21: a global nozzle number has 18 bits. -/
def nozzleOk (z : Nat) : Bool := decide (z < 2 ^ 18)

/-- R367: 48-bit seconds, nanoseconds below 10^9, a 32-bit fraction. -/
def TimeStamp.wf (t : TimeStamp) : Bool := decide (t.sec < 2 ^ 48 ∧ t.ns < 1000000000 ∧ t.frac < 2 ^ 32)

/-- R85, R89: an IPv4 address has 32 bits, an IPv6 address 128. -/
def Endpoint.wf (e : Endpoint) : Bool := decide (e.ip < 2 ^ (if e.v6 then 128 else 32))

/-- R85: a datagram holds at most 65,535 bytes, and its finds name lines. -/
def OjpMsg.wf (g : OjpMsg) : Bool :=
  g.ep.wf && decide (28 + g.body.length + g.tail.length ≤ 65535) && findsOk g.finds

/-- R310, R311: device numbers 0 and 1, a state code, Prefer's bit and JoinWait's 16 bits. -/
def Hello.wf (h : Hello) : Bool := decide (h.number < 2 ∧ h.state ≤ 8 ∧ h.prefer < 2 ∧ h.joinWait < 2 ^ 16)

/-- R313: a heartbeat's state is one of nine codes. -/
def Heartbeat.wf (h : Heartbeat) : Bool := decide (h.state ≤ 8)

/-- R320: offsets and time stamps of a sequence message. -/
def SeqMsg.wf (m : SeqMsg) : Bool :=
  match m with
  | .fetch offset _ => decide (offset < 2 ^ 40)
  | .pageStart _ _ time => time.wf
  | .dataLate plane port _ => decide (plane < 256 ∧ port < 256)
  | .stop | .abort | .abandon _ _ => true

/-- R325: a rally record names at most 64 ports' values. -/
def RallyRec.wf (r : RallyRec) : Bool := decide (r.lcvs.length ≤ 64)

/-- R353, Table 73: the two blocks of a training frame that carry fields are 16 bytes. -/
def TrainFrame.wf (f : TrainFrame) : Bool := decide (f.bytes.length = 16)

/-- R364, R371: transports 0 to 2, an 8-bit domain, a 16-bit sequence number, whole time stamps. -/
def PtpMsg.wf (m : PtpMsg) : Bool :=
  decide (m.transport < 4 ∧ m.domain < 256 ∧ m.seqId < 2 ^ 16) && m.arrival.wf && m.stamp.wf

/-- R365: the fields of an Announce as IEEE 1588 sizes them in the rule's data set. -/
def PtpAnnounce.wf (a : PtpAnnounce) : Bool :=
  decide (a.transport < 4 ∧ a.domain < 256 ∧ a.priority1 < 256 ∧ a.clockClass < 256 ∧ a.accuracy < 256 ∧
    a.variance < 2 ^ 16 ∧ a.priority2 < 256 ∧ a.identity < 2 ^ 64 ∧ a.steps < 2 ^ 16)

/-- R319: a mirrored line is 64 bytes at a line's offset. -/
def mirrorOk (ls : List (Nat × Bytes × Bool)) : Bool := ls.all (fun l => lineOk l.1 && decide (l.2.1.length = 64))

/-- R133: a stream's saved state: a window of at most 32 KiB, the rest of a match, and at most 32 unread bytes. -/
def StreamSt.wf (s : StreamSt) : Bool :=
  lineOk s.last && decide (s.number < 256 ∧ s.window.length ≤ 32768 ∧ s.matchLeft ≤ 258 ∧ s.matchDist ≤ 32768 ∧
    s.carry.length ≤ 263)

/-- R339, Table 69: whole lines, window addresses and nozzle numbers. -/
def ResyncItem.wf (r : ResyncItem) : Bool :=
  match r with
  | .storeRegion offset lines =>
    decide (offset % 2 ^ 20 = 0 ∧ offset < 2 ^ 40) && lines.all (fun l => lineOk l.1 && decide (l.2.length = 64))
  | .storePoison line => lineOk line
  | .register addr _ _ => addressOk addr
  | .nozzle z _ _ => nozzleOk z
  | .sequence msg => msg.wf
  | .stream s => s.wf
  | .results _ _ | .channel _ _ _ _ | .position _ _ | .finish => true

/-- R396, R397: the nozzles that share a byte are local numbers of one port. -/
def SramPlace.wf (p : SramPlace) : Bool :=
  match p with
  | .stagger _ _ _ ns | .queue _ _ ns => ns.all (fun j => decide (j < 4096))
  | .activeCopy addr => addressOk addr
  | .shadowCopy addr byte => addressOk addr && decide (byte < 4)
  | .rowError _ _ z => decide (z < 4096)
  | .decode _ | .stoker => true
  | .other q => decide (q < 71)

/-- R389: what a sweeper's read of a line gives: nothing but the stored bytes, or the 80 bytes of its errors (ten symbols
for each of eight beats). -/
def errorsOk (e : Bytes) : Bool := decide (e.length = 0 ∨ e.length = 80)

/-- R284: a sample of a 12-bit converter, signed. -/
def sampleOk (x : Int) : Bool := decide (-2048 ≤ x ∧ x ≤ 2047)

/-- The operands of a command lie in their ranges. -/
def Instr.wf (i : Instr) : Bool :=
  match i with
  | .registerWrite _ a _ => addressOk a
  | .jobStart _ | .jobStop _ | .jobAbort _ | .pageRetire | .decPlanperWrite _ _ => true
  | .doorbellRing _ fs | .descriptorFetch fs | .linkPoll fs => findsOk fs
  | .openSession g | .close g | .ack g | .keepalive g | .jobWrite g | .linkWrite g | .doorbell g | .jobRead g
  | .regWrite g | .regRead g => g.wf
  | .ackDelayExpiry _ | .idleTimeout _ | .telemetryPeriod _ => true
  | .retransmitTimeout _ seq => decide (seq < 2 ^ 32)
  | .wakeFrame _ payload => decide (payload.length ≤ 9000)
  | .decodeUseStart _ fs => findsOk fs
  | .decodeResume _ | .decodeUseEnd _ | .preExpansionDone _ | .printRecordChunk _ | .rasterLine _ | .corrCopyDone _
  | .htCopyDone _ => true
  | .repairWaitEnd line => lineOk line
  | .nztWrite _ z _ => nozzleOk z
  | .quadratureEdge _ _ _ _ | .stepEdge _ _ _ _ _ | .ssiFrameStart _ _ | .ssiHoldExpiry _ | .indexLatch _ _
  | .probeLatch _ _ _ | .pageStart _ _ | .setPos _ _ | .clearFault _ _ | .ltPosloRead _ | .lineEvent _ | .strobe _
  | .latFall _ | .speedWindowEnd _ | .stillTimeout _ => true
  | .ssiFrame _ raw _ _ _ => decide (raw < 2 ^ 48)
  | .shiftStart _ | .shiftComplete _ | .echoFind _ _ | .findTimeout _ | .deskewStart _ _ _ _ | .deskewPortDone _ _ _
  | .commitGeometry _ | .commitScale _ | .commitCodeWidth _ | .commitPort _ | .commitPrint _ | .clampClear _ => true
  | .echoCompareResult _ bits => decide (bits.length ≤ 4096)
  | .ddStart _ | .ddStop _ | .sweepSchedule | .carriageSettled _ | .pacerTick _ | .gatePulse _ _ | .windowClose _ => true
  | .move _ _ | .motStop _ _ | .home _ _ | .disable _ _ | .enable _ _ | .goPrint _ _ | .goService _ _
  | .energiseDelay _ | .moveComplete _ | .limitInput _ _ | .standstill _ | .adcCalStart _ _ | .adcCalDone _ _ => true
  | .pwmPeriod _ ia ib va vb => sampleOk ia && sampleOk ib && sampleOk va && sampleOk vb
  | .hello h => h.wf
  | .joinWaitExpiry | .soloResample _ | .strkInChange _ | .heartbeatSend | .heartbeatLoss | .strkInWaitExpiry
  | .fatalMessage | .pairGuard | .mirrorAck _ | .handoff _ | .selfTest _ | .selfTestDone _
  | .rallyWaitExpiry _ _ | .latMonitorEdge _ _ | .handoffMessage _ => true
  | .verdictMessage z _ => nozzleOk z
  | .heartbeat h => h.wf
  | .fatalFault kind => decide (kind.val < 6)
  | .mirror ls => mirrorOk ls
  | .registerMessage a _ => addressOk a
  | .sequenceMessage m => m.wf
  | .sessionMessage _ c => (match c with | some x => x.ep.wf | none => true)
  | .timeMessage t => t.wf
  | .repairRequest line fs => lineOk line && findsOk fs
  | .repairAnswer line data => lineOk line && (match data with | some b => decide (b.length = 64) | none => true)
  | .rallyRecord r => r.wf
  | .resyncData item => item.wf
  | .laneSignal _ | .trainingRequestTimeout _ | .trainRetry _ | .speedAutoSwitch _ | .netPctrlWrite _ _ _
  | .laneRetrain _ _ | .refclkLoss | .pauseFrame _ => true
  | .trainingFrame f => f.wf
  | .flit bytes => decide (bytes.length = 64)
  | .linkLoss reason => decide (reason < 3)
  | .hostAdaptTimeout _ fom => decide (fom < 256)
  | .linkDrop _ reason => decide (reason < 2)
  | .arpRequest _ _ sender target => decide (sender < 2 ^ 32 ∧ target < 2 ^ 32)
  | .neighbourSolicitation _ _ sender target => decide (sender < 2 ^ 128 ∧ target < 2 ^ 128)
  | .echoRequest _ ep target data => ep.wf && decide (target < 2 ^ 128 ∧ data.length ≤ 9000)
  | .announce a => a.wf
  | .sync m | .followUp m | .delayResp m => m.wf
  | .delayReqSend | .announceTimeout _ | .holdover | .timeTick | .timeIncrWrite _ _ | .timeStep _ _ | .timeSecloRead
  | .timeExseqRead | .toutArm _ _ | .toutDisarm _ _ | .toutEdge _ => true
  | .dramTrainingDone _ | .alertN _ _ | .refresh _ | .zqCalibration | .remapRequest _ _ | .remapDone | .remapClearAll _
  | .kindleDone | .reservedKindled => true
  | .tempPoll _ range => decide (range.toNat < 3)
  | .sweeperRead errors => errorsOk errors
  | .sramSweepRead _ place _ => place.wf
  | .sweeperReread line errors => lineOk line && errorsOk errors
  | .liveLineAction line => lineOk line
  | .dmaProdWrite _ _ _ | .dmaResume _ _ | .dmaAbort _ _ | .dmaTrigger _ | .dmaTimerExpiry _ | .dmaRecordWrite
  | .dmaCqconsWrite _ _ | .crcReset _ _ | .noticeQueueTimeout _ | .trbNqdataRead _ | .telQdataRead
  | .telemetrySample => true
  | .dmaDescFetch _ fs | .dmaComplete _ fs => findsOk fs
  | .queueReset q => decide (q < 71)
  | .resetAssert | .stokerRelease | .deviceReady | .watchdogExpiry _ | .journalWrite _ | .firingCountCheckpoint
  | .clearStates _ | .clearCounts _ | .clearTrouble _ | .clearCal _ | .checkpoint _ | .jnlRddataRead => true
  | .resetRelease _ imageA imageB => decide (imageA.length ≤ 2 ^ 23 ∧ imageB.length ≤ 2 ^ 23)
  | .stokerLoadWindow load => decide (load ≤ 100)
  | .pwrReqOn _ _ | .pwrReqEmber _ _ | .pwrReqCold _ _ | .domainEntryDone _ | .domainExitDone _ | .pgFall => true
  | .stickyClear _ _ | .trbRecackWrite _ _ | .trbRecdataRead | .telFcloRead | .firingCountFold _ | .tjUpdate _ => true
  | .serviceRead r => decide (r.length = 6)
  | .serviceWrite r => decide (r.length = 10)
  | .badCommand r => decide (1 ≤ r.length)
  | .serviceIncomplete r => decide (r.length < 10)
  | .blockLock _ fom _ => decide (fom < 256)
  | .budgetScanDone | .frameDiscard _ _ | .clk25Loss | .refclkReturn => true
  | .ssiCountAdvance _ _ => true
  | .axisCommandForward _ _ | .axisStatusReport _ _ _ _ _ | .deskewGrantRequest _ => true

end Sys2Proof
end

