-- ==== Sys2Proof/Tests/Slice0.lean ====
section
/-!
SUPPORT. The model's own tests: commands whose operands the spec rules out, check values of the spec, and for each statement
with hypotheses states and operands that meet them, clause by clause and at the boundaries.
-/
namespace Sys2Proof.Tests
set_option Elab.async false
open Sys2Proof Sys2Proof.Machine

/-! ### Small states -/

/-- A single device that is ready, its memory trained and kindled, JOB_LIMIT at 1 MiB. -/
def up : Dev :=
  let d : Dev := { heldInReset .sn262 0 [] freshJournal with
    boot := { resetBoot [] with inReset := false, phase := .ready, stokerUp := true, readied := true } }
  ((d.setReg Adr.MEM_CFG 1#32).setReg Adr.MEM_STATUS 0x13#32).setReg Adr.JOB_LIMITLO 0x100000#32

/-- The state of a device, with nothing stored and nothing waiting. -/
def dev (d : Dev) : State := ⟨d, emptyStore, []⟩

/-- A job store that holds bytes from offset 0, all of it kindled. -/
def holding (bs : Bytes) : Mem := { emptyStore.write 0 bs with watermark := 0x100000 }

/-- A register write of the service port reaches its register on a device that runs and is no keeper. -/
theorem reaches_service {s : State} {a : Nat} {v : Word}
    (h : (!s.dev.boot.inReset && s.dev.serviceReaches a && !s.dev.isKeeper) = true) : Reaches s .service a v := by
  simp only [Bool.and_eq_true, Bool.not_eq_true'] at h
  exact ⟨h.1.1, h.1.2, rfl, by simp [Dev.keeperBars, h.2]⟩

/-- A store with nothing poisoned is sound to a read that finds nothing. -/
theorem sound_of {m : Mem} (h : m.poison = []) : m.sound [] := by
  constructor <;> intro l <;> simp [Mem.bad, foundAs, h]

/-- The same for every device of a list and every value. -/
theorem reaches_all {l : List Dev} {a : Nat}
    (h : ∀ d ∈ l, (!(dev d).dev.boot.inReset && (dev d).dev.serviceReaches a && !(dev d).dev.isKeeper) = true) :
    ∀ d ∈ l, ∀ v, Reaches (dev d) .service a v := fun d hd _ => reaches_service (h d hd)

/-! ### Witnesses: the machine and the page sequencer -/

theorem test_witness_step : ({ dev up with pending := [.timeTick] } : State).pending = .timeTick :: [] ∧
    (dev up).pending = [] := by decide

theorem test_witness_reset_holds : State.reset.dev.boot.inReset = true ∧ Instr.timeTick ≠ .resetAssert ∧
    Instr.timeTick ≠ .clk25Loss ∧ ∀ v a b, Instr.timeTick ≠ .resetRelease v a b := by simp [State.reset]; rfl

theorem test_witness_step_keeps :
    ({ dev up with mem := holding [1#8], pending := [.refclkReturn] } : State).Inv ∧
    step { dev up with mem := holding [1#8], pending := [.refclkReturn] } = .next { dev up with mem := holding [1#8] } :=
  ⟨by unfold State.Inv; decide, rfl⟩

/-- A device of a pair as `pair` says. -/
def paired (f : PairSt → PairSt) : Dev := up.setPair (fun p => f { p with mode := true, role := .striker, state := .paired })

theorem test_witness_settle : (dev up).dev.pair.mode = false ∧ (paired id).pair.mode = true ∧
    (paired id).pair.role = (dev (paired id)).dev.pair.role ∧ (paired id).pair.mirrors = [] ∧
    (paired id).out = (dev (paired id)).dev.out ∧ (paired id).ojp = (dev (paired id)).dev.ojp ∧
    (paired id).pair.partnerState = (dev (paired id)).dev.pair.partnerState := by decide

theorem test_witness_job_start :
    let d := fun (e : Dev) (v : Word) => e.met .service Adr.JOB_CTRL v
    let low := up.setReg Adr.JOB_HEADLO 0xFFF80#32
    let high := up.setReg Adr.JOB_HEADLO 0x100000#32
    let busy := up.setJob (fun j => { j with seq := .parkedEnd })
    (Reaches (dev low) .service Adr.JOB_CTRL 1#32 ∧ (d low 1).job.seq = .idle ∧ (d low 1).jobHead < (d low 1).jobLimit) ∧
    (Reaches (dev high) .service Adr.JOB_CTRL 1#32 ∧ (d high 1).job.seq = .idle ∧ (d high 1).jobLimit ≤ (d high 1).jobHead) ∧
    (Reaches (dev busy) .service Adr.JOB_CTRL 1#32 ∧ (d busy 1).job.seq ≠ .idle) :=
  ⟨⟨reaches_service (by decide), by decide⟩, ⟨reaches_service (by decide), by decide⟩, reaches_service (by decide), by decide⟩

/-- A page of two lines on plane 0, its key `k`. -/
def page (k : Nat) : Page :=
  { pageOf k 0 [] with planeMask := 1#8, length := 2, budget := ⟨false, [], false, 0⟩ }

theorem test_witness_job_stop_abort :
    let d := fun (e : Dev) (v : Word) => e.met .service Adr.JOB_CTRL v
    let empty := up.setJob (fun j => { j with seq := .following })
    let printing := up.setJob (fun j => { j with seq := .following, pages := [{ page 1 with started := Vector.replicate 4 true }, page 2] })
    (Reaches (dev up) .service Adr.JOB_CTRL 2#32 ∧ (d up 2).job.seq = .idle) ∧
    (Reaches (dev empty) .service Adr.JOB_CTRL 2#32 ∧ (d empty 2).job.seq ≠ .idle ∧ (d empty 2).job.pages = []) ∧
    (Reaches (dev printing) .service Adr.JOB_CTRL 2#32 ∧ (d printing 2).job.seq ≠ .idle ∧
      ∃ p rest, (d printing 2).job.pages = p :: rest ∧ p.begun = true ∧ p.cancelled = false) ∧
    Reaches (dev printing) .service Adr.JOB_CTRL 4#32 :=
  ⟨⟨reaches_service (by decide), by decide⟩, ⟨reaches_service (by decide), by decide⟩,
    ⟨reaches_service (by decide), by decide, _, _, rfl, by decide⟩, reaches_service (by decide)⟩

/-- A descriptor of Table 15 in 128 bytes: PlaneMask 1, no flag, Length 2, an empty index table, an end mark for its link,
and the DescCrc of R58. -/
def goodDesc : Bytes :=
  let bs := natLE 4 0x47505053 ++ [1#8, 1#8, 0#8, 0#8] ++ natLE 4 7 ++ natLE 4 2 ++ natLE 4 9 ++ List.replicate 100 0#8 ++ natLE 8 1
  patchB bs 0x14 (natLE 4 (crc32c (bs.take 0x78)))

theorem test_witness_descriptor_fetch :
    let d := (up.setJob (fun j => { j with seq := .following, target := .head })).setReg Adr.JOB_LOOKAHEAD 1#32
    let s : State := ⟨d, holding goodDesc, []⟩
    s.runs ∧ d.isKeeper = false ∧ d.mayFetch = true ∧ d.memRuns = true ∧ d.job.target = .head ∧ 0 = d.jobHead ∧
    0 < d.jobLimit ∧ s.mem.sound [] ∧ descFail d.jobLimit (s.mem.read 0 128) = none ∧
    leAt (s.mem.read 0 128) 0x0C 4 ≠ 0 ∧ d.leadBusy = false :=
  ⟨rfl, by decide +kernel, by decide +kernel, by decide +kernel, by decide +kernel, by decide +kernel, by decide +kernel, sound_of (by decide +kernel), by decide +kernel, by decide +kernel, by decide +kernel⟩

theorem test_witness_link_poll :
    let d := up.setJob (fun j => { j with seq := .parkedEnd, target := .link 0 false })
    let w := fun (m : Mem) => leNat (m.read (0 + 0x78) 8)
    let odd := holding goodDesc
    let crooked := holding (patchB goodDesc 0x78 [0x40#8])
    let beyond := holding (patchB goodDesc 0x78 (natLE 8 (2 ^ 40)))
    let limit := holding (patchB goodDesc 0x78 (natLE 8 0x100000))
    (dev d).runs ∧ d.isKeeper = false ∧ d.memRuns = true ∧ (d.job.seq = .parkedEnd ∨ d.job.seq = .parkedFault) ∧
    d.job.target = .link 0 false ∧ odd.sound [] ∧ w odd % 2 = 1 ∧
    (crooked.sound [] ∧ w crooked % 2 = 0 ∧ w crooked % 128 ≠ 0) ∧ (beyond.sound [] ∧ w beyond % 2 = 0 ∧ 2 ^ 40 ≤ w beyond) ∧
    limit.sound [] ∧ w limit % 2 = 0 ∧ d.jobLimit ≤ w limit :=
  ⟨rfl, by decide +kernel, by decide +kernel, by decide +kernel, by decide +kernel, sound_of (by decide +kernel), by decide +kernel, ⟨sound_of (by decide +kernel), by decide +kernel⟩,
    ⟨sound_of (by decide +kernel), by decide +kernel⟩, sound_of (by decide +kernel), by decide +kernel⟩

theorem no_hold {t : SeqTarget} (h : t = .link 0 false) : ∀ off, t ≠ .link off true := by
  intro off; rw [h]; simp

theorem test_witness_doorbell :
    let d := fun (e : Dev) => e.met .service Adr.JOB_DOORBELL 1#32
    let free := up.setJob (fun j => { j with seq := .following, target := .link 0 false })
    let held := up.setJob (fun j => { j with seq := .following, target := .link 0 true })
    Reaches (dev free) .service Adr.JOB_DOORBELL 1#32 ∧ free.isKeeper = false ∧ (d free).job.seq ≠ .parkedEnd ∧
    (d free).job.seq ≠ .parkedFault ∧ (∀ off, (d free).job.target ≠ .link off true) ∧
    Reaches (dev held) .service Adr.JOB_DOORBELL 1#32 ∧ held.isKeeper = false ∧ (d held).job.seq ≠ .parkedHold ∧
    (d held).job.target = .link 0 true :=
  ⟨reaches_service (by decide), by decide, by decide, by decide,
    no_hold (by decide),
    reaches_service (by decide), by decide, by decide, by decide⟩

theorem test_witness_page_retire :
    let p : Page := { page 1 with started := Vector.replicate 4 true, status := 0x80#16 }
    let d := up.setJob (fun j => { j with seq := .following, pages := [p, page 2] })
    (dev d).runs ∧ d.job.pages = p :: [page 2] ∧ p.cancelled = false ∧
    (∀ q ∈ [page 2], q.cancelled = false ∧ q.key ≠ p.key) ∧ d.mayRetire p = true ∧ d.job.seq ≠ .stopping :=
  ⟨rfl, by decide, by decide, by decide, by decide, by decide⟩

theorem test_witness_planper : Reaches (dev up) .service Adr.DEC_PLANPER 0xFFFFF#32 ∧ (0xFFFFF#32).toNat < 2 ^ 20 ∧
    Reaches (dev up) .service Adr.DEC_PLANPER 0#32 :=
  ⟨reaches_service (by decide), by decide, reaches_service (by decide)⟩

theorem test_witness_shadow_write :
    let a := Adr.RAS_MASK 0 0
    Reaches (dev up) .service a 1#32 ∧ a % 4 = 0 ∧ holdsRegister up.part a = true ∧ silentRegister up.part a = false ∧
    ((regSpecAt a).map (fun x => decide (x.1.set ≠ .none))) = some true ∧
    BitVec.ofNat 32 ((1#32).toNat &&& definedBits a) = 1#32 ∧ (up.met .service a 1#32).barPending a = none :=
  ⟨reaches_service (by decide), by decide, by decide, by decide, by decide, by decide, by decide⟩

/-! ### Witnesses: the Oaxia job protocol -/

/-- A host at 10.0.0.2. -/
def host : Endpoint := ⟨false, 0x0A000002, 5000#16⟩

/-- An open session without a key that expects sequence number 1. -/
def sess : Session := ⟨host, 0x020000000001#48, 0, false, [], [], 4, 4, 2#4, 0, 1000, 1400, [], 1, [], false, 1, [], [], false⟩

/-- The ready device with that session as number 0. -/
def open0 (x : Session) : Dev := up.setSession 0 (some x)

/-- A message of session 0 to the device's own address, its MsgCrc computed by R86. -/
def msg (kind : Nat) (session : BitVec 8) (seq : BitVec 32) (body : Bytes) : OjpMsg :=
  let g : OjpMsg := ⟨host, 0x020000000001#48, 0, false, 0x4F4A#16, 1#8, 0#8, session, BitVec.ofNat 16 body.length, seq, 0#32,
    0#64, 0#32, body, [], []⟩
  { g with msgCrc := BitVec.ofNat 32 (crc32c (msgFrame kind 0 g)) }

theorem taken {s : State} {kind : Nat} {g : OjpMsg} {i : Nat} {x : Session} (hp : g.atPair = false)
    (h : (!s.dev.boot.inReset && decide (msgFrameSize g ≤ s.dev.frameLimit g.port) && (s.dev.frameIn g.port.val).isReady &&
      decide (msgSize g ≤ pathMax g.ep.v6 (decide ((s.dev.frameIn g.port.val).rd (Fld.NET_PCTRL.Jumbo g.port.val) = 1))) &&
      msgSound kind g && (s.dev.frameIn g.port.val).domOn 3 &&
      decide ((s.dev.frameIn g.port.val).namedSession g = some (i, x)) && decide (msgSize g ≤ x.maxMessage) &&
      (s.dev.frameIn g.port.val).authentic x kind g) = true) : Taken s kind g i x := by
  simp only [Bool.and_eq_true, decide_eq_true_eq, Bool.not_eq_true'] at h
  obtain ⟨⟨⟨⟨⟨⟨⟨⟨h1, h2⟩, h3⟩, h4⟩, h5⟩, h6⟩, h7⟩, h8⟩, h9⟩ := h
  exact ⟨h1, h2, fun h => by simp [hp] at h, h3, h4, h5, h6, h7, h8, h9⟩

theorem inTurn {d : Dev} {kind : Nat} {g : OjpMsg} {i : Nat} {y : Session} (hm : d.pair.mirrors = [])
    (h : (decide (d.session i = some y) && decide (y.ackSeq = g.seq.toNat) && decide (y.held = []) && d.stokerRuns &&
      d.domOn 1 && d.memRuns && d.authentic y kind g) = true) : InTurn d kind g i y := by
  simp only [Bool.and_eq_true, decide_eq_true_eq] at h
  obtain ⟨⟨⟨⟨⟨⟨h1, h2⟩, h3⟩, h4⟩, h5⟩, h6⟩, h7⟩ := h
  exact ⟨h1, h2, h3, by simp [hm], ⟨h4, h5⟩, h6, h7⟩

/-- What every statement about a message performed in its turn asks of the state and the session. -/
def Performable (kind : Nat) (body : Bytes) : Prop :=
  Taken (dev (open0 sess)) kind (msg kind 0 1 body) 0 sess ∧
    InTurn ((open0 sess).heard 0 sess (msg kind 0 1 body)) kind (msg kind 0 1 body) 0 sess

/-- The device as it performs such a message. -/
def doing (kind : Nat) (body : Bytes) : Dev := ((open0 sess).heard 0 sess (msg kind 0 1 body)).performing 0 sess kind (msg kind 0 1 body)

theorem test_witness_ojp_writes :
    let line := natBE 8 0xFFFFC ++ natBE 4 4 ++ natBE 4 0 ++ [1#8, 2#8, 3#8, 4#8]
    let link := natBE 8 0xFFFF8 ++ natBE 8 1
    (Performable 0x10 line ∧ emptyStore.sound [] ∧ ((open0 sess).heard 0 sess (msg 0x10 0 1 line)).mirrors = false ∧
      (doing 0x10 line).jobWriteFail (msg 0x10 0 1 line) = 0 ∧ line.length ≠ 16) ∧
    (Performable 0x11 link ∧ ((open0 sess).heard 0 sess (msg 0x11 0 1 link)).mirrors = false ∧
      (doing 0x11 link).linkWriteFail (msg 0x11 0 1 link) = 0) :=
  ⟨⟨⟨taken rfl (by decide +kernel), inTurn rfl (by decide +kernel)⟩, sound_of rfl, by decide +kernel⟩,
    ⟨taken rfl (by decide +kernel), inTurn rfl (by decide +kernel)⟩, by decide +kernel⟩

theorem test_witness_ojp_control :
    let one := natBE 2 1 ++ natBE 2 0 ++ natBE 4 Adr.JOB_LIMITLO ++ natBE 4 0x80
    let none_ := natBE 2 0 ++ natBE 2 0
    let gap := natBE 2 1 ++ natBE 2 0 ++ natBE 4 0x0FFFFFFC ++ natBE 4 0
    let long := natBE 2 1 ++ natBE 2 1 ++ natBE 4 0 ++ natBE 4 0
    let run := fun (b : Bytes) => ((List.range (beAt b 0 2)).foldl (writeEntry (msg 0x20 0 1 b)) ⟨doing 0x20 b, emptyStore, 0, none⟩).first
    Performable 0x03 [] ∧ Performable 0x03 [0#8] ∧ Performable 0x12 [] ∧ (doing 0x12 []).isKeeper = false ∧ Performable 0x12 [0#8] ∧
    (Performable 0x20 one ∧ one.length = 4 + 8 * beAt one 0 2 ∧ beAt one 2 2 = 0 ∧ beAt one 0 2 ≤ 1024 ∧ run one = none) ∧
    (Performable 0x20 none_ ∧ none_.length = 4 + 8 * beAt none_ 0 2 ∧ beAt none_ 2 2 = 0 ∧ run none_ = none) ∧
    (Performable 0x20 gap ∧ gap.length = 4 + 8 * beAt gap 0 2 ∧ beAt gap 2 2 = 0 ∧ run gap = some (0, stNoRegister)) ∧
    Performable 0x20 long ∧ beAt long 2 2 ≠ 0 ∧ Performable 0x20 [0#8] ∧ [0#8].length ≠ 4 + 8 * beAt [0#8] 0 2 :=
  ⟨⟨taken rfl (by decide +kernel), inTurn rfl (by decide +kernel)⟩, ⟨taken rfl (by decide +kernel), inTurn rfl (by decide +kernel)⟩,
    ⟨taken rfl (by decide +kernel), inTurn rfl (by decide +kernel)⟩, by decide +kernel,
    ⟨taken rfl (by decide +kernel), inTurn rfl (by decide +kernel)⟩,
    ⟨⟨taken rfl (by decide +kernel), inTurn rfl (by decide +kernel)⟩, by decide +kernel⟩,
    ⟨⟨taken rfl (by decide +kernel), inTurn rfl (by decide +kernel)⟩, by decide +kernel⟩,
    ⟨⟨taken rfl (by decide +kernel), inTurn rfl (by decide +kernel)⟩, by decide +kernel⟩,
    ⟨taken rfl (by decide +kernel), inTurn rfl (by decide +kernel)⟩, by decide +kernel,
    ⟨taken rfl (by decide +kernel), inTurn rfl (by decide +kernel)⟩, by decide +kernel⟩

theorem test_witness_ojp_reads :
    let read := natBE 8 0xFFFC0 ++ natBE 4 64 ++ natBE 4 0
    let zero := natBE 8 0 ++ natBE 4 0 ++ natBE 4 0
    let reg := natBE 2 1 ++ natBE 2 0 ++ natBE 4 0
    let few := natBE 2 0 ++ natBE 2 0
    let bad := natBE 2 1 ++ natBE 2 1 ++ natBE 4 0
    let holds := fun (b : Bytes) => b.length = 4 + 4 * beAt b 0 2 ∧ beAt b 2 2 = 0 ∧ beAt b 0 2 ≤ 1024 ∧
      32 + 12 * beAt b 0 2 + (if sess.keyId = 0 then 0 else 16) ≤ sess.maxMessage
    (Performable 0x13 read ∧ emptyStore.sound [] ∧
      (doing 0x13 read).jobReadFail (sess.holding 0x13 (msg 0x13 0 1 read)) (msg 0x13 0 1 read) = 0) ∧
    (Performable 0x13 zero ∧ (doing 0x13 zero).jobReadFail (sess.holding 0x13 (msg 0x13 0 1 zero)) (msg 0x13 0 1 zero) = 0) ∧
    (Performable 0x13 [] ∧ ([] : Bytes).length ≠ 16) ∧ (Performable 0x21 reg ∧ holds reg) ∧ (Performable 0x21 few ∧ holds few) ∧
    (Performable 0x21 bad ∧ beAt bad 2 2 ≠ 0) ∧ Performable 0x21 [0#8] ∧ [0#8].length ≠ 4 + 4 * beAt [0#8] 0 2 :=
  ⟨⟨⟨taken rfl (by decide +kernel), inTurn rfl (by decide +kernel)⟩, sound_of rfl, by decide +kernel⟩,
    ⟨⟨taken rfl (by decide +kernel), inTurn rfl (by decide +kernel)⟩, by decide +kernel⟩,
    ⟨⟨taken rfl (by decide +kernel), inTurn rfl (by decide +kernel)⟩, by decide +kernel⟩,
    ⟨⟨taken rfl (by decide +kernel), inTurn rfl (by decide +kernel)⟩, by decide +kernel⟩,
    ⟨⟨taken rfl (by decide +kernel), inTurn rfl (by decide +kernel)⟩, by decide +kernel⟩,
    ⟨⟨taken rfl (by decide +kernel), inTurn rfl (by decide +kernel)⟩, by decide +kernel⟩,
    ⟨taken rfl (by decide +kernel), inTurn rfl (by decide +kernel)⟩, by decide +kernel⟩

theorem test_witness_ojp_duplicates :
    let g := fun (seq : BitVec 32) => msg 0x10 0 seq []
    let d := fun (x : Session) (seq : BitVec 32) => (open0 x).heard 0 x (g seq)
    let kept : Session := { sess with held := [⟨0x10, g 3⟩] }
    (Taken (dev (open0 sess)) 0x10 (g 0) 0 sess ∧ (d sess 0).session 0 = some sess ∧ seqBefore (g 0).seq.toNat sess.ackSeq = true) ∧
    (Taken (dev (open0 kept)) 0x10 (g 3) 0 kept ∧ (d kept 3).session 0 = some kept ∧ ∃ h ∈ kept.held, h.msg.seq = (g 3).seq) ∧
    (Taken (dev (open0 sess)) 0x10 (g 5) 0 sess ∧ (d sess 5).session 0 = some sess ∧
      seqBefore (g 5).seq.toNat sess.ackSeq = false ∧ (∀ h ∈ sess.held, h.msg.seq ≠ (g 5).seq) ∧
      (g 5).seq.toNat ≠ sess.ackSeq ∧ seqBefore (g 5).seq.toNat (seqAdd sess.ackSeq sess.devWindow) = false) :=
  ⟨⟨taken rfl (by decide +kernel), by decide +kernel⟩, ⟨taken rfl (by decide +kernel), by decide +kernel⟩,
    taken rfl (by decide +kernel), by decide +kernel⟩

theorem test_witness_ojp_open :
    let g := msg 0x01 0xFF 0 (natBE 8 7 ++ natBE 2 0 ++ natBE 2 0xFFFF ++ List.replicate 20 0#8)
    let full : Dev := { up with ojp := { up.ojp with sessions := Vector.replicate 16 (some { sess with ep := { host with udp := 1#16 } }) } }
    let asked := fun (d : Dev) =>
      let e := d.frameIn g.port.val
      let top := pathMax g.ep.v6 (decide (e.rd (Fld.NET_PCTRL.Jumbo g.port.val) = 1))
      d.boot.inReset = false ∧ msgFrameSize g ≤ d.frameLimit g.port ∧ g.atPair = false ∧ e.isReady = true ∧ msgSize g ≤ top ∧
      msgSound 0x01 g = true ∧ e.domOn 3 = true ∧ e.stokerRuns = true ∧ e.domOn 1 = true ∧ g.session = 0xFF#8 ∧ g.seq = 0#32 ∧
      g.body.length = 32 ∧ e.openedBy g (openAsk g.body).nonce = none ∧ (openAsk g.body).keyId = 0 ∧
      e.rd Fld.NET_OJPCTRL.AuthRequired = 0 ∧ g.flags.toNat.testBit 0 = false
    (asked up ∧ (up.frameIn g.port.val).freeSessions ≠ []) ∧ asked full ∧ (full.frameIn g.port.val).freeSessions = [] := by
  decide +kernel

theorem test_witness_ojp_timers :
    let owing : Session := { sess with ackPending := true }
    let old : DevMsg := ⟨0x30, 1, [], 12, 1, false, false, none⟩
    let unanswered := fun (tries : Nat) => ({ sess with unacked := [{ old with tries := tries }] } : Session)
    let tries := fun (n : Nat) => (dev (open0 (unanswered n))).dev.rd Fld.NET_OJPRTO.MaxTries
    Taken (dev (open0 sess)) 0x05 (msg 0x05 0 0 []) 0 sess ∧ Taken (dev (open0 sess)) 0x06 (msg 0x06 0 0 []) 0 sess ∧
    (dev (open0 owing)).runs ∧ (open0 owing).session 0 = some owing ∧ owing.ackPending = true ∧
    (dev (open0 sess)).runs ∧ (open0 sess).session 0 = some sess ∧ sess.ackPending = false ∧
    (unanswered 12).unacked.find? (fun w => w.seq == 1) = some old ∧ old.hostHeld = false ∧ old.parked = false ∧
    (open0 (unanswered 255)).session 0 = some (unanswered 255) ∧ tries 255 ≤ 255 ∧
    (open0 (unanswered 0)).session 0 = some (unanswered 0) ∧ 0 < tries 0 ∧
    ((open0 (unanswered 0)).wr (Fld.NET_PSTAT.LinkUp 0) 1).carries 0 (unanswered 0) old.kind old.seq old.body = true :=
  ⟨taken rfl (by decide +kernel), taken rfl (by decide +kernel), rfl, by decide +kernel, rfl, rfl, by decide +kernel⟩

theorem test_witness_telemetry_and_wake :
    let deaf : Session := { sess with subscribe := 0#4 }
    let frame := natBE 2 0x574B ++ [1#8, 0xFF#8] ++ natBE 4 0x3FFF ++ List.replicate 38 0#8
    let own := natBE 2 0x574B ++ [1#8, 0#8] ++ natBE 4 1 ++ List.replicate 38 0#8
    let valid := fun (f : Bytes) => 46 ≤ f.length ∧ beAt f 0 2 = 0x574B ∧ beAt f 2 1 = 1 ∧
      (beAt f 3 1 = 0xFF ∨ beAt f 3 1 = (up.frameIn 0).devNum % 2) ∧ beAt f 4 4 < 2 ^ 14 ∧ ∀ b ∈ f.drop 8, b = 0#8
    up.boot.inReset = false ∧ (open0 sess).stokerRuns = true ∧ (open0 sess).domOn 1 = true ∧
    (open0 sess).session 0 = some sess ∧ sess.subscribe.toNat.testBit 1 = true ∧
    (open0 deaf).session 0 = some deaf ∧ deaf.subscribe.toNat.testBit 1 = false ∧ valid frame ∧ valid own ∧
    beAt [] 0 2 ≠ 0x574B := by decide +kernel

/-! ### Witnesses: decoding, the budget, the print record, the raster pipeline, the nozzle tables -/

/-- The ready device with plane 0 on port 0: one head of one chip and four rows. -/
def plane0 : Dev := { up with act := [(Adr.HP_PLANE 0, 0x01400100#32)] }

/-- The header of a strip of plane 0, one line of two pixels (Table 12), and its data. -/
def strip (enc flags comp : Nat) (data : Bytes) (symbols : Nat := 0) : Bytes :=
  let h := natLE 4 0x53505453 ++ [1#8, 0#8] ++ natLE 2 1 ++ natLE 4 2 ++ natLE 1 enc ++ [7#8] ++ natLE 1 flags ++ [0#8] ++
    natLE 4 comp ++ natLE 4 2 ++ natLE 4 symbols ++ natLE 4 (crc32c [5#8, 6#8]) ++ natLE 8 1 ++ natLE 4 0x51 ++ List.replicate 16 0#8
  h ++ natLE 4 (crc32c h) ++ data

/-- A Deflate stream of one stored block that decodes to the bytes 5 and 6. -/
def stored56 : Bytes := [1#8, 2#8, 0#8, 0xFD#8, 0xFF#8, 5#8, 6#8]

/-- The ready device about to read a strip at offset 0 for page 1 on plane 0. -/
def reading (left : Nat) : Dev :=
  let d := (plane0.setJob (fun j => { j with pages := [page 1] }))
  d.setDecode 0 { d.decode 0 with cursor := some ⟨1, 0, 0, 0, 2, left, 0⟩ }

theorem test_witness_decode_start :
    let c := fun (l : Nat) => (⟨1, 0, 0, 0, 2, l, 0⟩ : DecodeCursor)
    let ready := fun (m : Mem) (l : Nat) => (reading l).boot.inReset = false ∧ (reading l).domOn 6 = true ∧
      (reading l).memRuns = true ∧ m.poison = [] ∧ ((reading l).decode 0).cursor = some (c l) ∧
      (∀ u ∈ ((reading l).decode 0).uses, u.lines = []) ∧ (reading l).page 1 = some (page 1) ∧
      (page 1).cancelled = false ∧ (c l).lines < (reading l).needLines 0 (page 1) ∧ 0 < (c l).left
    let raw := fun (m : Mem) => m.read 0 64
    let good := fun (m : Mem) (l enc : Nat) => stripFail (reading l).jobLimit 0 0 (raw m) = none ∧
      (c l).lines + (stripHdr (raw m)).lineCount * (c l).rep ≤ (reading l).needLines 0 (page 1) ∧
      (stripHdr (raw m)).enc = enc
    let fill := holding (strip 2 0 0 [])
    let plain := holding (strip 0 0 2 [5#8, 6#8])
    let packed := holding (strip 1 0 7 stored56)
    let wrong := holding (strip 3 0 0 [])
    (ready fill 2 ∧ good fill 2 2) ∧ (ready plain 1 ∧ good plain 1 0) ∧
    (ready packed 2 ∧ good packed 2 1 ∧ (stripHdr (raw packed)).continued = false ∧
      (reading 2).poolCopy 0 (stripHdr (raw packed)) = none ∧ (reading 2).ordinaryEngine = some 0) ∧
    (ready wrong 2 ∧ stripFail (reading 2).jobLimit 0 0 (raw wrong) = some 0x0C ∧
      ((readableLines (raw wrong)).getD 0) * 2 ≤ (reading 2).needLines 0 (page 1)) ∧
    ready emptyStore 2 ∧ stripFail (reading 2).jobLimit 0 0 (raw emptyStore) = some 0 :=
  ⟨by decide +kernel, by decide +kernel, by decide +kernel, by decide +kernel, by decide +kernel⟩

theorem test_witness_decode_goes_on :
    let with_ := fun (u : Use) => up.setDecode 0 { up.decode 0 with uses := [u] }
    let line : SrcLine := ⟨1, 0, [0#8], true, false⟩
    let u := fun (ls : List SrcLine) (f : UseEnd) => (⟨some 0, none, 1, ls, f⟩ : Use)
    let holds := fun (u : Use) => ((with_ u).decode 0).uses = u :: []
    up.boot.inReset = false ∧ holds (u [line] quietEnd) ∧ (u [line] quietEnd).lines ≠ [] ∧ holds (u [] quietEnd) ∧
    (u [] quietEnd).lines = [] ∧ (u [] quietEnd).finish = quietEnd ∧
    (let x := u [] { quietEnd with stripId := 3, error := some (1, -1) }
     holds x ∧ x.lines = [] ∧ x.finish = { quietEnd with stripId := x.finish.stripId, error := some (1, -1) }) := by decide +kernel

theorem test_witness_pre_expansion :
    let m := holding (strip 1 0 7 stored56)
    let h := stripHdr (m.read 0 64)
    let x : PoolCopy := ⟨0, h.headerCrc, h.dataCrc, 2, false, [], 0⟩
    let d : Dev := { up with dec := { up.dec with pool := [x] } }
    let o := inflate Inf.fresh (m.read (x.offset + 64) h.comp) h.decoded false false
    (d.boot.inReset = false ∧ d.dec.pool.find? (fun y => !y.done) = some x ∧ x.fits x.offset h = true ∧
      stripFail d.jobLimit h.plane x.offset (m.read x.offset 64) = none ∧ h.enc = 1 ∧ h.continued = false) ∧
    m.sound [] ∧ o.error = none ∧ crc32c o.data = h.dataCrc :=
  ⟨by decide +kernel, sound_of (by decide +kernel), by decide +kernel⟩

theorem test_witness_budget :
    let asks := fun (len : Nat) => ({ page 1 with length := len, budget := ⟨true, [], false, 0⟩ } : Page)
    let d := fun (len : Nat) => plane0.setJob (fun j => { j with pages := [asks len] })
    let ws := fun (len : Nat) => (d len).planesOn.map (fun n => (n, windowsOf len ((d len).pageCharges emptyStore (asks len) n)))
    (d 2).boot.inReset = false ∧ (d 2).job.pages.find? (fun q => q.budget.scanPending) = some (asks 2) ∧
    (d 2).rd Fld.DEC_POOL.SizeGiB = 0 ∧
    (∀ e ∈ ws 2, (d 2).planeTime e.1 e.2 ≤ ((d 2).planPeriod e.1 : Rat)) := by decide +kernel

theorem test_witness_budget_short :
    let m := holding ((strip 1 0 7 stored56 0xFFFFFFFF) ++ List.replicate 57 0#8 ++ natLE 8 (2 ^ 40))
    let p : Page := { page 1 with tables := (page 1).tables.set 0 (0x80, 1), budget := ⟨true, [], false, 0⟩ }
    let d := plane0.setJob (fun j => { j with pages := [p] })
    let ws := d.planesOn.map (fun n => (n, windowsOf p.length (d.pageCharges m p n)))
    d.boot.inReset = false ∧ d.job.pages.find? (fun q => q.budget.scanPending) = some p ∧
    d.rd Fld.DEC_POOL.SizeGiB = 0 ∧ ((d.overPlanes ws).map (·.1)) = [0] := by decide +kernel

theorem test_witness_record_chunk :
    let r : RecordSt := ⟨0, 1, [[1#8]], 0, false, true, false, []⟩
    let p : Page := { page 1 with printRecord := true, records := [r] }
    let d := up.setJob (fun j => { j with pages := [p] })
    let due := fun (n : Nat) (p : Page) => p.records.any (fun r =>
      r.plane == n && !r.ended && (decide (64 ≤ r.lines.length) || r.finished))
    d.boot.inReset = false ∧ (∀ q ∈ d.job.pages, due 1 q = false) ∧ d.job.pages.find? (due 0) = some p ∧
    p.records.find? (fun r => r.plane == 0) = some r := by decide +kernel

theorem test_witness_raster :
    let run : Run := ⟨1, 0, 2, 0, 0, none, none⟩
    let p : Page := { page 1 with planeMask := 0#8 }
    let d := (plane0.setJob (fun j => { j with pages := [p] })).setPlane 0 { plane0.plane 0 with state := .running, runs := [run] }
    let full := d.setPort 0 { d.port 0 with queue := List.replicate 4 ⟨0, [], 0, [], 0, none⟩ }
    let staged : Dev := { d with ras := { d.ras with planes := d.ras.planes.set 0 { d.raster 0 with stag := [⟨1, 0, [], false⟩] } } }
    let there := fun (e : Dev) => (e.raster 0).stag.any (fun l => l.page == 1 && l.line == 0 - e.planeOffset 0)
    d.boot.inReset = false ∧ d.domOn 7 = true ∧ d.pair.mode = false ∧ d.pair.state ≠ .isolated ∧
    (∃ p ∈ full.portsOf 0, 4 ≤ (full.port p).queue.length) ∧ plane0.nextForm 0 = none ∧
    ((∀ p ∈ d.portsOf 0, (d.port p).queue.length < 4) ∧ d.nextForm 0 = some (0, [(1, 0)]) ∧ d.page 1 = some p) ∧
    (there staged = true ∧ staged.nextForm 0 = some (0, [(1, 0)])) ∧
    (0 - d.planeOffset 0 < p.length ∧ there d = false ∧ (d.computeLine 0 p 0).isSome = true) := by decide +kernel

theorem test_witness_set_copies :
    let d : Dev := { plane0 with ras := { plane0.ras with corrCopy := 1#8, htCopy := 0x80#8 } }
    d.boot.inReset = false ∧ d.ras.corrCopy.toNat.testBit 0 = true ∧ d.ras.htCopy.toNat.testBit 7 = true := by decide +kernel

theorem test_witness_nozzle_word :
    let a := fun (z : Nat) => 0x01000000 + 4 * z
    let t := fun (d : Dev) (z : Nat) (v : Word) => (d.met .service (a z) v).touchTables.nztState z v (stateSource .service)
    let busy : Dev := { plane0 with ras := { plane0.ras with corrWait := 1#8 } }
    (262143 ≤ plane0.part.maxNozzle ∧ (0x3FFFF#32).toNat < 2 ^ 18 ∧ (t plane0 262143 0x3FFFF#32).corrBusy (262143 / 4096) = false) ∧
    Reaches (dev plane0) .service (a 262143) 0x3FFFF#32 ∧ (0 ≤ busy.part.maxNozzle ∧ (t busy 0 0#32).corrBusy (0 / 4096) = true) ∧
    Reaches (dev busy) .service (a 0) 0#32 :=
  ⟨by decide +kernel, reaches_service (by decide +kernel), by decide +kernel, reaches_service (by decide +kernel)⟩

/-! ### Witnesses: position channels, line timing and the head ports -/

theorem test_witness_channels :
    let quad := up.wr (Fld.LT_CHCFG.Mode 3) 1
    let step := up.wr (Fld.LT_CHCFG.Mode 3) 2
    let high := step.setChan 3 { step.chan 3 with still := false }
    up.boot.inReset = false ∧ quad.counting = true ∧ quad.mode 3 = 1 ∧ (quad.chan 3).a = false ∧ (quad.chan 3).b = false ∧
    xor (decide (true = (quad.chan 3).a)) (decide (false = (quad.chan 3).b)) = true ∧ step.counting = true ∧ step.mode 3 = 2 ∧
    (false != decide (step.rd (Fld.LT_CHCFG.StepEdge 3) = 1)) = false ∧
    (true != decide (step.rd (Fld.LT_CHCFG.StepEdge 3) = 1)) = true ∧ up.domOn 13 = true ∧ (step.chan 3).still = true ∧
    (high.chan 3).still = false := by decide +kernel

theorem test_witness_ssi :
    let d := up.wr (Fld.LT_CHCFG.Mode 0) 3
    let loaded := d.setSsi 0 (fun q => { q with loaded := true })
    let moving := (d.setSsi 0 (fun q => { q with step := some (-3, 7), advancing := true, latchNs := 5 })).wr (Fld.LT_SSIPOLL.Period 0) 100
    let kept := { d with pair := { d.pair with mode := true, role := .keeper } }
    d.clocksSsi = true ∧ kept.clocksSsi = false ∧ kept.mode 0 = 3 ∧ (d.chan 0).ssi.dropped = false ∧
    (d.dropFrames.chan 0).ssi.dropped = true ∧ d.dropFrames.mode 0 = 3 ∧ (loaded.chan 0).ssi.dropped = false ∧
    d.boot.inReset = false ∧ d.domOn 13 = true ∧ d.mode 0 = 3 ∧ (d.chan 0).ssi.loaded = false ∧ (loaded.chan 0).ssi.loaded = true ∧
    loaded.mode 0 = 3 ∧ (moving.chan 0).ssi.step = some (-3, 7) ∧ (moving.chan 0).ssi.advancing = true ∧ (7 : Nat) ≠ 0 ∧
    1005 - (moving.chan 0).ssi.latchNs ≤ moving.rd (Fld.LT_SSIPOLL.Period 0) * 10 ∧ moving.mode 0 = 3 ∧ (d.chan 0).ssi.step = none := by
  decide +kernel

theorem test_witness_latches :
    let d := up.wr (Fld.LT_CHCFG.Mode 0) 2
    let seen := d.setChan 0 { d.chan 0 with idxSeen := true }
    let probe := up.wr (Fld.LT_PRBCFG.Edge 3) 3
    let busy := plane0.setPlane 0 { plane0.plane 0 with runs := [⟨1, 0, 2, 0, 0, none, none⟩] }
    let at_ := fun (e : Dev) (v : Word) => e.met .service (Adr.LT_CHCTRL 0) v
    (d.boot.inReset = false ∧ d.counting = true ∧ d.mode 0 = 2 ∧ false = decide (d.rd (Fld.LT_CHCFG.ZPol 0) = 1) ∧
      true = !decide (d.rd (Fld.LT_CHCFG.ZPol 0) = 1) ∧ (d.chan 0).idxSeen = false ∧ (seen.chan 0).idxSeen = true ∧
      seen.mode 0 = 2 ∧ (seen.chan 0).idxReversed = false ∧ (seen.chan 0).idxDir = (seen.chan 0).reverse ∧
      seen.rd (Fld.LT_CPR.Cpr 0) = 0) ∧
    (up.domOn 13 = true ∧ probeTakes (up.rd (Fld.LT_PRBCFG.Edge 3)) true = false ∧
      probeTakes (probe.rd (Fld.LT_PRBCFG.Edge 3)) false = true ∧ probe.rd (Fld.LT_PRBCFG.PageStart 3) = 0 ∧
      up.serviceReaches (Adr.LT_POSLO 3) = true ∧ (at_ busy 2).channelBusy 0 = true ∧ (at_ plane0 2).channelBusy 0 = false) ∧
    Reaches (dev busy) .service (Adr.LT_CHCTRL 0) 2#32 ∧ Reaches (dev plane0) .service (Adr.LT_CHCTRL 0) 2#32 ∧
    Reaches (dev plane0) .service (Adr.LT_CHCTRL 3) 1#32 ∧ Reaches (dev plane0) .service (Adr.LT_CHCTRL 3) 4#32 ∧
    Path.service ≠ .partner ∧ plane0.isKeeper = false :=
  ⟨by decide +kernel, by decide +kernel, reaches_service (by decide +kernel), reaches_service (by decide +kernel),
    reaches_service (by decide +kernel), reaches_service (by decide +kernel), by decide, by decide +kernel⟩

theorem test_witness_line_events :
    let ev : LineEv := ⟨[(1, 0)], 0, 1000, none, false⟩
    let run : Run := ⟨1, 0, 2, 0, 0, none, none⟩
    let d := plane0.setPlane 0 { plane0.plane 0 with state := .running, runs := [run], due := [ev] }
    let placed := d.setPort 0 { d.port 0 with strobes := [⟨[(1, 0)], 256000⟩] }
    let live : Dev := { placed with hp := { placed.hp with configured := true }, pair := { placed.pair with driving := true } }
    let entry : Entry := ⟨0, [(1, 0)], 0, [], 0, none⟩
    let ready := live.setPort 0 { live.port 0 with shift := .done, queue := [entry] }
    (d.boot.inReset = false ∧ d.pair.mode = false ∧ (d.plane 0).due = ev :: [] ∧ (d.plane 0).state = .running ∧
      (placed.plane 0).lastFire = none ∧ (∀ p ∈ placed.portsOf 0, ∀ t ∈ (placed.port p).strobes, t.at256 ≤ 1000 * 256)) ∧
    (plane0.plane 0).due = [] ∧
    ((ready.port 0).strobes = ⟨[(1, 0)], 256000⟩ :: [] ∧ ready.planeOf 0 = some 0 ∧ ready.roleDrives 0 = true ∧
      ready.latePort 256000 = none) ∧
    ((live.port 0).strobes = ⟨[(1, 0)], 256000⟩ :: [] ∧ live.planeOf 0 = some 0 ∧ live.roleDrives 0 = true ∧
      live.latePort 256000 = some (0, ⟨[(1, 0)], 256000⟩)) ∧ (live.latFall 0).portPasses 0 = false := by decide +kernel

/-- The ready device with plane 0, code width 1, its ports configured and driven. -/
def driving0 : Dev := { plane0 with act := [(Adr.HT_CODE 0, 1#32), (Adr.HP_PLANE 0, 0x01400100#32)], hp := { plane0.hp with configured := true }, pair := { plane0.pair with driving := true } }

theorem test_witness_shift :
    let entry : Entry := ⟨0, [(1, 0)], 0, [], 0, none⟩
    let d := driving0.setPort 0 { driving0.port 0 with queue := [entry] }
    let x := fun (s : ShiftState) (e : Option Entry) (w : Bool) => d.setPort 0 { d.port 0 with shift := s, prev := e, whole := w }
    (d.boot.inReset = false ∧ d.domOn (8 + 0 / 16) = true ∧ (d.port 0).shift = .none ∧ (d.port 0).latHigh = false ∧
      d.mayShift 0 = true) ∧ driving0.mayShift 0 = false ∧ up.domOn (8 + 63 / 16) = true ∧
    ((x .busy (some entry) true).port 0).shift = .busy ∧ ((x .busy (some entry) true).port 0).prev = some entry ∧
    ((x .busy (some entry) true).port 0).whole = true ∧ ((x .busy none true).port 0).prev = none ∧
    ((x .busy (some entry) false).port 0).whole = false ∧ ((x .orphan none false).port 0).shift = .orphan := by decide +kernel

/-- A line of one chip whose lower half prints. -/
def halfLine : Entry := ⟨0, [(1, 0)], 0, (List.range 512).map (fun i => if i < 256 then 1 else 0), 0, none⟩

/-- Its lane 0 (R236, R240): the later half of the bits are ones. -/
theorem halfLine_lane : driving0.laneBits halfLine 0 = List.replicate 64 false ++ List.replicate 64 true := by decide +kernel

theorem test_witness_echo :
    let blank : Entry := ⟨0, [(1, 0)], 0, [], 0, none⟩
    let d := fun (e : Entry) (f : EchoFind) => driving0.setPort 0 { driving0.port 0 with compare := some (0, e), find := f }
    let sent := driving0.laneBits halfLine 0
    let good := (List.replicate 64 false ++ List.replicate 64 true).toArray
    (up.boot.inReset = false ∧ (up.port 0).compare = none ∧ ((d halfLine ⟨false, none⟩).port 0).compare = some (0, halfLine) ∧
      ((d halfLine ⟨false, none⟩).port 0).find.active = false ∧ 0 % driving0.laneCount 0 = 0 ∧ driving0.inPair = false ∧
      ((d blank ⟨true, none⟩).port 0).find.active = true ∧ lanQualifies (driving0.laneBits blank 0) = false ∧
      ((d halfLine ⟨true, some 0⟩).port 0).find.last = some 0 ∧ ((d halfLine ⟨true, some 255⟩).port 0).find.last = some 255) ∧
    firstDiff sent good (driving0.rd (Fld.HP_ECHO.Latency 0)) = none ∧
    (firstDiff sent #[] (driving0.rd (Fld.HP_ECHO.Latency 0))).isSome = true ∧ lanQualifies sent = true ∧
    matchLatency sent #[] = none ∧ matchLatency sent good = some 0 := by
  refine ⟨by decide +kernel, ?_⟩
  rw [halfLine_lane]
  decide +kernel

theorem test_witness_echo_find :
    let a := Adr.HP_ECHO 63
    let v := fun (d : Dev) => d.reg a ||| 0x400#32
    let on := up.wr (Fld.HP_ECHO.Enable 63) 1
    let off := up.wr (Fld.HP_ECHO.Enable 63) 0
    (holdsRegister up.part a = true ∧ BitVec.ofNat 32 ((v on).toNat &&& definedBits a) = v on ∧
      (on.met .service a (v on)).rd (Fld.HP_ECHO.Enable 63) = 1 ∧ BitVec.ofNat 32 ((v off).toNat &&& definedBits a) = v off ∧
      (off.met .service a (v off)).rd (Fld.HP_ECHO.Enable 63) = 0) ∧
    Reaches (dev on) .service a (v on) ∧ Reaches (dev off) .service a (v off) :=
  ⟨by decide +kernel, reaches_service (by decide +kernel), reaches_service (by decide +kernel)⟩

theorem test_witness_deskew :
    let v : Word := BitVec.ofNat 32 (63 + 64)
    let busy := plane0.setPlane 0 { plane0.plane 0 with runs := [⟨1, 0, 2, 0, 0, none, none⟩] }
    let d := fun (e : Dev) => (e.met .service Adr.HP_DSKCTRL v).keepReg Adr.HP_DSKCTRL
      (setBits (setBits ((e.met .service Adr.HP_DSKCTRL v).reg Adr.HP_DSKCTRL) 6 6 1) 5 0 63)
    let run : Dev := { up with hp := { up.hp with deskew := ⟨true, [63], 0⟩ } }
    (up.inPair = false ∧ 63 < up.part.portCount ∧ (d busy).hp.deskew.running = false ∧ (d busy).pageInFlight = true ∧
      (d plane0).hp.deskew.running = false ∧ (d plane0).pageInFlight = false ∧ up.hp.deskew.running = false ∧
      run.hp.deskew.running = true ∧ run.hp.deskew.ports = [(63 : Fin 64).val] ∧ (paired id).boot.inReset = false ∧
      (paired id).pair.mode = true ∧ (paired id).pageInFlight = false ∧
      ((paired id).setPlane 0 (busy.plane 0)).pageInFlight = true) ∧
    Reaches (dev busy) .service Adr.HP_DSKCTRL v ∧ Reaches (dev plane0) .service Adr.HP_DSKCTRL v :=
  ⟨by decide +kernel, reaches_service (by decide +kernel), reaches_service (by decide +kernel)⟩

theorem test_witness_commit : (∀ v ∈ [1#32, 2#32, 4#32, 8#32, 16#32], Reaches (dev up) .service Adr.CFG_COMMIT v) ∧
    Reaches (dev up) .service Adr.CFG_CLAMPCTRL 1#32 :=
  ⟨fun v _ => reaches_service (by decide +kernel : (!(dev up).dev.boot.inReset && (dev up).dev.serviceReaches Adr.CFG_COMMIT &&
    !(dev up).dev.isKeeper) = true), reaches_service (by decide +kernel)⟩

/-! ### Witnesses: drop detection and the axes -/

theorem test_witness_sweep_start_stop :
    let v := fun (d : Dev) (b : Word) => d.reg Adr.DD_CTRL ||| b
    let busy := plane0.setPlane 0 { plane0.plane 0 with runs := [⟨1, 0, 2, 0, 0, none, none⟩] }
    let shed : Dev := { up with boot := { up.boot with level := 3 } }
    let swept : Dev := { up with dd := { up.dd with running := true } }
    let fits := fun (d : Dev) (b : Word) => BitVec.ofNat 32 ((v d b).toNat &&& definedBits Adr.DD_CTRL) = v d b
    let d := fun (e : Dev) (b : Word) => e.met .service Adr.DD_CTRL (v e b)
    (fits busy 1 ∧ (v busy 1).toNat.testBit 1 = false ∧ (d busy 1).sweepRefused = true ∧ fits shed 1 ∧
      (d shed 1).sweepRefused = false ∧ 3 ≤ (d shed 1).boot.level ∧ fits up 1 ∧ (d up 1).sweepRefused = false ∧
      (d up 1).boot.level < 3) ∧ (fits up 2 ∧ (v up 2).toNat.testBit 0 = false ∧ (d up 2).dd.running = false ∧
      (d swept 2).dd.running = true ∧ (∀ g, ((d swept 2).gate g).active = false)) ∧
    Reaches (dev busy) .service Adr.DD_CTRL (v busy 1) ∧ Reaches (dev shed) .service Adr.DD_CTRL (v shed 1) ∧
    Reaches (dev up) .service Adr.DD_CTRL (v up 1) ∧ Reaches (dev up) .service Adr.DD_CTRL (v up 2) ∧
    Reaches (dev swept) .service Adr.DD_CTRL (v swept 2) :=
  ⟨by decide +kernel, by decide +kernel, reaches_service (by decide +kernel), reaches_service (by decide +kernel),
    reaches_service (by decide +kernel), reaches_service (by decide +kernel), reaches_service (by decide +kernel)⟩

theorem test_witness_sweep_schedule :
    let off := up.setReg Adr.DD_SCHED 0#32
    let on := up.setReg Adr.DD_SCHED 1#32
    up.boot.inReset = false ∧ off.rd Fld.DD_SCHED.Interval = 0 ∧ on.rd Fld.DD_SCHED.Interval ≠ 0 ∧ on.boot.level < 3 ∧
    on.job.seq = .idle ∧ on.sweepRefused = false := by decide +kernel

theorem test_witness_gates :
    let gate := fun (p : GatePhase) (todo : List Nat) (shots : List TestShot) =>
      driving0.setGate 3 { driving0.gate 3 with phase := p, todo := todo, shots := shots }
    let line : Entry := ⟨0, [], 0, [], 0, some 4⟩
    let ready := fun (d : Dev) => d.setPort 0 { d.port 0 with shift := .done, queue := [line] }
    let shot : TestShot := ⟨1000, none⟩
    let once := gate .firing [4, 5] [shot]
    let win := fun (d : Dev) => (d.rd (Fld.DD_WIN.WinStart 3), d.rd (Fld.DD_WIN.WinEnd 3))
    (up.boot.inReset = false ∧ (up.gate 3).phase ≠ .settling ∧ ((gate .settling [4] []).gate 3).phase = .settling ∧
      ((gate .settling [4] []).gate 3).todo = 4 :: [] ∧ (∀ h, (up.gate h).phase ≠ .firing)) ∧
    ((∀ h, h ≠ 3 → (once.gate h).phase ≠ .firing) ∧ (once.gate 3).phase = .firing ∧ (once.gate 3).todo = 4 :: [5] ∧
      once.testReady (once.gate 3).plane 4 = false ∧ (ready once).testReady ((ready once).gate 3).plane 4 = true ∧
      ((ready once).gate 3).shots ≠ [] ∧ ((ready once).gate 3).shots.length + 1 < (ready once).rd Fld.DD_PACER.Shots) ∧
    ((hitShot (win once).1 (win once).2 (1000 + (win once).1 * 1000) (once.gate 3).shots).isSome = true ∧
      hitShot (win once).1 (win once).2 (1000 + (win once).2 * 1000) (once.gate 3).shots = none ∧
      hitShot (win up).1 (win up).2 0 (up.gate 3).shots = none ∧ (up.gate 3).phase ≠ .firing ∧ (once.gate 3).strays < 16) ∧
    (let done := gate .firing [4, 5] (List.replicate (up.rd Fld.DD_PACER.Shots) shot)
     (done.gate 3).phase = .firing ∧ (done.gate 3).todo = 4 :: 5 :: [] ∧
      done.rd Fld.DD_PACER.Shots ≤ (done.gate 3).shots.length ∧ done.dd.stopping = false) :=
  ⟨by decide +kernel, by decide +kernel, by decide +kernel, by decide +kernel⟩

/-- The ready device with axis 7 as `f` says. -/
def axis7 (f : AxisSt → AxisSt) : Dev := up.setAxis 7 (f (up.axis 7))

theorem test_witness_axis_commands :
    let a : Fin 8 := 7
    let rest := axis7 (fun x => { x with state := .rest })
    let moving := axis7 (fun x => { x with state := .moving })
    let homed := axis7 (fun x => { x with state := .rest, homed := true })
    let met := fun (d : Dev) (v : Word) => d.met .service (Adr.MOT_CMD 7) v
    let dist := fun (d : Dev) => (met d 1).toTarget a (signedOf 32 ((met d 1).rd (Fld.MOT_TGT.Target 7)))
    let busy : Dev := { (rest.setPlane 0 { rest.plane 0 with runs := [⟨1, 0, 2, 0, 0, none, none⟩] }) with
      win := (rest.setReg (Adr.MOT_AXCFG 7) 0x00441F1F#32).win }
    let away := rest.setReg (Adr.MOT_TGT 7) 1#32
    let wall := (rest.setReg (Adr.MOT_AXCFG 7) 0x0000#32).setReg Adr.MOT_LIMPOL 0#32
    let blind := (rest.setReg (Adr.MOT_HOME 7) 0#32).setReg (Adr.MOT_STALL 7) 0#32
    (up.single ∧ rest.single) ∧ (∀ d ∈ [up, rest, moving, homed, busy, away, wall, blind], ∀ v, Reaches (dev d) .service (Adr.MOT_CMD 7) v) ∧
    ((up.axis a).state = .disabled ∧ (rest.axis a).state = .rest ∧ (met busy 1).interlocked a = true ∧ (busy.axis a).state = .rest ∧
      (met rest 1).interlocked a = false ∧ (met rest 1).bothLimits a = false ∧ dist rest = 0) ∧
    ((met wall 1).bothLimits a = true ∧ (met wall 1).interlocked a = false ∧ (moving.axis a).state = .moving ∧ dist moving = 0 ∧
      (met moving 1).bothLimits a = false ∧ (met away 1).bothLimits a = false ∧ dist away = 1 ∧
      (met away 1).limitRefuses a (decide (0 < dist away)) = false) ∧
    ((met rest 3).interlocked a = false ∧ (met rest 3).bothLimits a = false ∧
      (met blind 3).rd (Fld.MOT_HOME.HomeMode 7) = 0 ∧ (met blind 3).rd (Fld.MOT_STALL.StallAngle 7) = 0 ∧
      (rest.axis a).homed = false ∧ (homed.axis a).homed = true) ∧
    (let one := (rest.setReg (Adr.MOT_AXCFG 7) 0x001F00#32).setReg (Adr.MOT_HOME 7) 1#32
     (one.axis a).state = .rest ∧ (met one 3).interlocked a = false ∧ (met one 3).bothLimits a = false ∧
      (met one 3).rd (Fld.MOT_HOME.HomeMode 7) = 1 ∧
      (met one 3).limitRefuses a (decide ((met one 3).rd (Fld.MOT_HOME.HomeDir 7) = 1)) = true) :=
  ⟨⟨⟨by decide +kernel, by decide +kernel⟩, by decide +kernel, by decide +kernel⟩, reaches_all (by decide +kernel), by decide +kernel, by decide +kernel,
    by decide +kernel, by decide +kernel⟩

theorem test_witness_axes_move :
    let plan : Plan := ⟨0, 0, true, [], some 5, 0, none⟩
    let rest := axis7 (fun x => { x with state := .rest })
    let waiting := axis7 (fun x => { x with waiting := true })
    let ended := axis7 (fun x => { x with state := .moving, plan := some plan })
    let limited := (ended.setReg (Adr.MOT_AXCFG 7) 0x0F00#32).setReg Adr.MOT_LIMPOL 0x8000#32
    let asleep := up.setDomain 12 ⟨.ember, false, 0⟩
    let after : Dev := { limited with mot := { limited.mot with limits := 0x8000#16 } }
    (up.boot.inReset = false ∧ (waiting.axis 7).waiting = true ∧ (up.axis 7).waiting = false ∧ (rest.axis 7).state = .rest ∧
      (up.axis 7).state ≠ .rest ∧ asleep.domOn 12 = false ∧ rest.domOn 12 = true ∧ (rest.axis 7).plan = none) ∧
    ((ended.axis 7).plan = some plan ∧ plan.ended = true ∧ plan.reach = some 5 ∧ plan.next = none ∧
      (ended.axis 7).waiting = false ∧ (ended.axis 7).backing = false ∧ (∀ g, (ended.gate g).phase = .idle)) ∧
    ((∀ a, (up.axis a).plan = none) ∧ (∀ b, b ≠ 7 → (limited.axis b).plan = none) ∧ (limited.axis 7).plan = some plan ∧
      (limited.axis 7).state = .moving ∧ limited.limitInputOf 7 plan.up = 15 ∧
      limited.limitActive 15 = false ∧ after.limitActive 15 = true) := ⟨by decide +kernel, by decide +kernel, by decide +kernel⟩

theorem test_witness_adc :
    let v : Word := BitVec.ofNat 32 (256 + (0x81#8).toNat)
    let busy : Dev := { up with mot := { up.mot with calRun := some 1#8 } }
    let rest := axis7 (fun x => { x with state := .rest })
    let set := fun (d : Dev) =>
      let e := d.met .service Adr.CAL_ADCCTRL v
      e.keepReg Adr.CAL_ADCCTRL (setBits (e.reg Adr.CAL_ADCCTRL) 7 0 (0x81#8).toNat)
    (∀ d ∈ [up, busy, rest], ∀ v, Reaches (dev d) .service Adr.CAL_ADCCTRL v) ∧
    ((set busy).mot.calRun ≠ none ∧ (set rest).mot.calRun = none ∧
      (∃ a : Fin 8, (0x81#8).toNat.testBit a.val = true ∧ (set rest).coilsOff a = false) ∧ (set up).mot.calRun = none ∧
      (∀ a : Fin 8, (0x81#8).toNat.testBit a.val = true → (set up).coilsOff a = true)) ∧
    up.mot.calRun = none ∧ busy.mot.calRun = some 1#8 :=
  ⟨reaches_all (by decide +kernel), by decide +kernel, by decide +kernel⟩

theorem test_witness_axis_owner :
    let other := (paired id).setReg (Adr.MOT_AXCFG 7) 0x00800000#32
    (paired id).boot.inReset = false ∧ (paired id).pair.mode = true ∧ (paired id).ownsAxis 7 = true ∧
    other.pair.mode = true ∧ other.ownsAxis 7 = false := by decide +kernel

/-! ### Witnesses: start-up -/

/-- A record of an image (R441): its type, its body, and its CRC. -/
def record (type : Nat) (body : Bytes) : Bytes :=
  let bs := natLE 2 type ++ [0#8, 0#8] ++ natLE 4 body.length ++ body
  bs ++ natLE 4 (crc32c bs)

/-- A public key, and a signature with it over a header that names four bytes of firmware, and those four bytes. -/
def imageKey : Bytes :=
  natBE 32 0xFC975F376E99866F6A73AC6D9CABCAF2E0D157E285F9B7551A7FF45A8EDFB328 ++
    natBE 32 0xE7DC7D5773E75FABB105ED88F844B9AFF8DB375698F5DC079CAA074A1450CDCA
def imageSignature : Bytes :=
  natBE 32 0x758BD9B2F14E6CD260D42BF4A19A24E98B2A56C45EF570DC2BF694E942B7F32D ++
    natBE 32 0x758BD9B2F14E6CD260D42BF4A19A24E98B2A56C45EF570DC2BF694E942B7F32D

/-- The least image that R440 to R444 take, for both parts: header, firmware, signature, End. -/
def image : Bytes :=
  record 1 ([1#8, 0#8, 1#8, 0#8] ++ natLE 4 1 ++ [2#8, 0#8, 1#8, 0#8] ++ natLE 4 3 ++ [3#8, 0#8, 4#8, 0#8] ++ natLE 4 4) ++
  record 2 ([1#8, 0#8, 4#8, 0#8] ++ natLE 4 0 ++ [2#8, 0#8, 4#8, 0#8] ++ natLE 4 2) ++
  record 3 ([1#8, 0#8, 64#8, 0#8] ++ imageKey ++ [2#8, 0#8, 64#8, 0#8] ++ imageSignature) ++ record 0x7FFF []

theorem test_image : imageFail .sn262 (sha256 imageKey) image = 0 := by decide +kernel

theorem test_image_header : imageFail .sn131 (sha256 imageKey) (record 1 []) = 1 := by decide +kernel

theorem test_witness_images :
    let d : Dev := { heldInReset .sn262 0 (sha256 imageKey) freshJournal with now := ⟨0, 0, 0⟩ }
    (dev up).runs ∧ d.boot.inReset = true ∧ imageFail d.part d.boot.fuseHash image = 0 ∧
    imageFail d.part d.boot.fuseHash [] ≠ 0 :=
  ⟨rfl, rfl, test_image, by decide +kernel⟩

theorem test_witness_stoker :
    let booting : Dev := { up with boot := { up.boot with phase := .readingB, stokerUp := false, readied := false } }
    let soon : Dev := { up with boot := { up.boot with phase := .roles, rolesSettled := true } }
    let halted : Dev := { up with boot := { up.boot with stokerHalted := true } }
    let hot : Dev := { up with boot := { up.boot with highRun := 2, level := 2 } }
    let often : Dev := { up with boot := { up.boot with restartSecs := [0, 1, 2, 3] }, now := ⟨600, 0, 0⟩ }
    (up.boot.inReset = false ∧ up.boot.phase ≠ .readingA ∧ up.boot.phase ≠ .readingB ∧ booting.boot.phase = .readingB ∧
      booting.boot.inReset = false ∧ up.mayBeReady = false ∧ soon.mayBeReady = true) ∧
    (halted.stokerRuns = false ∧ up.stokerRuns = true ∧ (60 < 61 ∧ 89 < 90) ∧ hot.stokerRuns = true ∧ hot.boot.highRun = 2 ∧
      hot.boot.level < 3 ∧ up.domOn 1 = true ∧ often.stokerRuns = true ∧ often.domOn 1 = true ∧ often.fifthRestart = true ∧
      up.fifthRestart = false) := by decide +kernel

theorem test_witness_domains :
    let v := fun (c k : Nat) => BitVec.ofNat 32 (c * 4 ^ k)
    let dom := fun (k : Nat) (x : DomState) => up.setDomain k ⟨x, false, 0⟩
    let met := fun (d : Dev) (c k : Nat) => d.met .service Adr.PWR_REQ (v c k)
    let busy := up.setJob (fun j => { j with seq := .parkedEnd })
    (∀ d ∈ [up, busy, dom 13 .ember], ∀ v, Reaches (dev d) .service Adr.PWR_REQ v) ∧
    (up.wakeable 13 = true ∧ ((met up 1 13).domain 13).state = .on ∧ ((met (dom 13 .ember) 1 13).domain 13).state = .ember ∧
      ((met busy 2 13).domain 13).state = .on ∧ (met busy 2 13).pwrRefused 13 = true ∧ (met up 2 13).pwrRefused 13 = false ∧
      ((met up 2 13).domain 13).state = .on ∧ (met busy 3 13).pwrRefused 13 = true ∧ ((met busy 3 13).domain 13).state = .on ∧
      (met up 3 13).pwrRefused 13 = false) ∧
    (up.boot.inReset = false ∧ (up.domain 13).state ≠ .toEmber ∧ (up.domain 13).state ≠ .toCold ∧
      ((dom 13 .toEmber).domain 13).state = .toEmber ∧ ((dom 13 .toEmber).domain 13).woken = false ∧
      ((dom 13 .toEmber).domain 13).pend = 0 ∧ ((dom 13 .fromEmber).domain 13).state = .fromEmber ∧ losesInCold 13 = true ∧
      ((dom 13 .fromCold).domain 13).state = .fromCold ∧ ((dom 13 .fromCold).domain 13).pend = 0) :=
  ⟨reaches_all (by decide +kernel), by decide +kernel, by decide +kernel⟩

theorem test_witness_journal :
    let waits : Dev := { up with jnl := { up.jnl with queue := [.remap] } }
    let down : Dev := { up with boot := { up.boot with stokerUp := false } }
    let asleep := waits.setDomain 1 ⟨.ember, false, 0⟩
    let busy := up.setJob (fun j => { j with seq := .parkedEnd })
    (∀ d ∈ [up, busy], ∀ v, Reaches (dev d) .service Adr.JNL_CTRL v) ∧
    (up.boot.inReset = false ∧ up.jnl.queue = [] ∧ down.stokerRuns = false ∧ waits.jnl.queue = .remap :: [] ∧
      waits.stokerRuns = true ∧ waits.domOn 1 = true ∧ asleep.jnl.queue = .remap :: [] ∧ asleep.stokerRuns = true ∧
      asleep.domOn 1 = false ∧ up.stokerRuns = true ∧ up.domOn 1 = true ∧ up.serviceReaches Adr.JNL_RDDATA = true ∧
      busy.job.seq ≠ .idle ∧ up.job.seq = .idle ∧ (up.met .service Adr.JNL_CTRL 16#32).domOn 1 = true) :=
  ⟨reaches_all (by decide +kernel), by decide +kernel⟩

theorem test_witness_queues :
    let n : Notice := ⟨0, 0, 0, 0, 0, []⟩
    let q := fun (p : Nat) => (up.setQueue 3 ⟨[n], []⟩).wr (Fld.TRB_NQCFG.PushEn 3) p
    let tel : Dev := { up with rep := { up.rep with telQueue := [[1#8]] } }
    up.boot.inReset = false ∧ (up.queue 3).entries = [] ∧ ((q 0).queue 3).entries = n :: [] ∧
    (q 0).rd (Fld.TRB_NQCFG.PushEn 3) = 0 ∧ ((q 1).queue 3).entries = n :: [] ∧ (q 1).rd (Fld.TRB_NQCFG.PushEn 3) = 1 ∧
    (0 : Fin 4) ≠ 3 ∧ up.boot.stokerUp = true ∧ up.rep.telQueue = [] ∧ tel.rep.telQueue = [1#8] :: [] ∧
    (up.wr Fld.TEL_QCFG.Period 0).rd Fld.TEL_QCFG.Period = 0 ∧ (up.wr Fld.TEL_QCFG.Period 1).rd Fld.TEL_QCFG.Period ≠ 0 ∧
    70 < 71 := by decide +kernel

theorem test_witness_sticky_and_record :
    let none_ := up.setReg Adr.TRB_CLRADDR 0xFFFFFFC#32
    let some_ := up.wr Fld.TRB_CLRADDR.Addr (Adr.JOB_ERR / 4)
    let a := fun (d : Dev) => (d.met .service Adr.TRB_CLRMASK 1#32).rd Fld.TRB_CLRADDR.Addr * 4
    let entry : TroubleEntry := ⟨0, 0, 0, 0, 0, 0, [], 1⟩
    let rec_ : Dev := { up with rep := { up.rep with ring := [entry], lastSeq := 1 } }
    (∀ d ∈ [none_, some_], ∀ v, Reaches (dev d) .service Adr.TRB_CLRMASK v) ∧
    (∀ d ∈ [up], ∀ v, Reaches (dev d) .service Adr.TRB_RECACK v) ∧
    (holdsRegister up.part (a none_) = false ∧ holdsRegister up.part (a some_) = true ∧ silentRegister up.part (a some_) = false ∧
      (1#32).toNat = rec_.rep.lastSeq ∧ (rec_.troubleSlot (rec_.rd Fld.TRB_RECSEL.Slot)).isSome = true) :=
  ⟨reaches_all (by decide +kernel), reaches_all (by decide +kernel), by decide +kernel⟩

theorem test_witness_service :
    let good := fun (bs : Bytes) => bs ++ natLE 1 (crc8 bs)
    let read := good ([1#8] ++ natBE 4 0)
    let odd := good ([1#8] ++ natBE 4 1)
    let table := good ([1#8] ++ natBE 4 0x01000000)
    let write := good ([2#8] ++ natBE 4 Adr.JOB_LIMITLO ++ natBE 4 0x80)
    let d := up.wake 1 6
    let asleep := (up.setDomain 7 ⟨.ember, false, 0⟩)
    let ok := fun (r : Bytes) (n : Nat) => crc8 (r.take n) = beAt r n 1
    (up.boot.inReset = false ∧ beAt [7#8] 0 1 ≠ 1 ∧ beAt [7#8] 0 1 ≠ 2 ∧ [7#8] ≠ []) ∧
    (beAt [1#8, 0#8, 0#8, 0#8, 0#8, 0#8] 0 1 = 1 ∧ [1#8, 0#8, 0#8, 0#8, 0#8, 0#8].length = 6 ∧
      ¬ ok [1#8, 0#8, 0#8, 0#8, 0#8, 0#8] 5 ∧ beAt odd 0 1 = 1 ∧ odd.length = 6 ∧ ok odd 5 ∧ beAt odd 1 4 % 4 ≠ 0 ∧
      beAt table 0 1 = 1 ∧ table.length = 6 ∧ ok table 5 ∧ beAt table 1 4 % 4 = 0 ∧
      (asleep.wake 1 6).serviceReaches (beAt table 1 4) = true ∧ (asleep.wake 1 6).serviceWakes (beAt table 1 4) = true) ∧
    (beAt read 0 1 = 1 ∧ read.length = 6 ∧ ok read 5 ∧ beAt read 1 4 % 4 = 0 ∧ d.serviceReaches (beAt read 1 4) = true ∧
      d.serviceWakes (beAt read 1 4) = false ∧ beAt write 0 1 = 2 ∧ write.length = 10 ∧ ok write 9 ∧ beAt write 1 4 % 4 = 0 ∧
      d.serviceReaches (beAt write 1 4) = true ∧ d.serviceWakes (beAt write 1 4) = false ∧
      ¬ ok (2#8 :: List.replicate 9 0#8) 9) ∧
    (up.boot.stokerUp = true ∧ ∀ z, (up.fire.acc.filter (fun x => x.1 == z)).length ≤ 1) :=
  ⟨by decide +kernel, by decide +kernel, by decide +kernel, by decide +kernel, fun _ => Nat.zero_le _⟩

/-! ### Witnesses: network time, the serial lanes and the host ports -/

theorem test_witness_time :
    let asleep := up.setDomain 2 ⟨.ember, false, 0⟩
    let steps : Dev := { up with time := { up.time with steps := [5, -3] } }
    let d := fun (e : Dev) (w : Word) => e.met .service Adr.TIME_INCRHI w
    (up.boot.inReset = false ∧ asleep.domOn 2 = false ∧ up.domOn 2 = true ∧ up.time.steps = [] ∧ steps.time.steps ≠ [] ∧
      steps.domOn 2 = true ∧ up.boot.stokerUp = true ∧
      clampIncr (4 * 2 ^ 32 + (d up 4#32).rd Fld.TIME_INCRLO.Frac) = 4 * 2 ^ 32 + (d up 4#32).rd Fld.TIME_INCRLO.Frac ∧
      clampIncr (7 * 2 ^ 32 + (d up 7#32).rd Fld.TIME_INCRLO.Frac) ≠ 7 * 2 ^ 32 + (d up 7#32).rd Fld.TIME_INCRLO.Frac) ∧
    (∀ d ∈ [up], ∀ v, Reaches (dev d) .service Adr.TIME_INCRHI v) ∧ (∀ d ∈ [up], ∀ v, Reaches (dev d) .service Adr.TIME_STEPSEC v) :=
  ⟨by decide +kernel, reaches_all (by decide +kernel), reaches_all (by decide +kernel)⟩

theorem test_witness_timed_outputs :
    let a := Adr.TIME_TOCTRL 7
    let v := fun (d : Dev) (c : Nat) => d.reg a ||| BitVec.ofNat 32 c
    let e := fun (d : Dev) (c : Nat) => d.met .service a (v d c)
    let periodic := ((up.wr (Fld.TIME_TOCTRL.Periodic 7) 1).wr (Fld.TIME_TOPER.Period 7) 1000).wr (Fld.TIME_TOWID.Width 7) 1000
    let later := up.wr (Fld.TIME_TONS.Ns 7) 1
    let t := fun (d : Dev) => (((d.rd (Fld.TIME_TOSECHI.SecHi 7) * 2 ^ 32 + d.rd (Fld.TIME_TOSECLO.SecLo 7)) * 1000000000 +
      d.rd (Fld.TIME_TONS.Ns 7) : Nat) : Int)
    let fits := fun (d : Dev) (c : Nat) => BitVec.ofNat 32 ((v d c).toNat &&& definedBits a) = v d c
    let tout := fun (next active : Option Int) => up.setTout 7 { up.tout 7 with next := next, active := active }
    (∀ d ∈ [up, periodic, later], ∀ v, Reaches (dev d) .service a v) ∧
    (fits periodic 1 ∧ (v periodic 1).toNat.testBit 1 = false ∧ (e periodic 1).rd (Fld.TIME_TOCTRL.Periodic 7) = 1 ∧
      fits later 1 ∧ (v later 1).toNat.testBit 1 = false ∧ (e later 1).rd (Fld.TIME_TOCTRL.Periodic 7) = 0 ∧
      TimeStamp.total (e later 1).now < t (e later 1) ∧ fits up 1 ∧ (e up 1).rd (Fld.TIME_TOCTRL.Periodic 7) = 0 ∧
      t (e up 1) ≤ TimeStamp.total (e up 1).now ∧ fits up 2 ∧ (v up 2).toNat.testBit 0 = false) ∧
    (up.boot.inReset = false ∧ (up.tout 7).active = none ∧ (up.tout 7).next = none ∧ ((tout none (some 1)).tout 7).active = some 1 ∧
      TimeStamp.total up.now < 1 ∧ ((tout none (some 0)).tout 7).active = some 0 ∧ (0 : Int) ≤ TimeStamp.total up.now ∧
      ((tout (some 1) none).tout 7).active = none ∧ ((tout (some 1) none).tout 7).next = some 1 ∧
      ((tout (some 0) none).tout 7).next = some 0) :=
  ⟨reaches_all (by decide +kernel), by decide +kernel, by decide +kernel⟩

/-- The ready device with host port 0 up and PTP on it. -/
def ptpUp : Dev :=
  ((up.wr (Fld.NET_PSTAT.LinkUp 0) 1).wr Fld.TIME_PTPCTRL.Enable 1).wr Fld.TIME_PTPCTRL.PortMask 1

theorem test_witness_ptp :
    let a : PtpAnnounce := ⟨0, 1, 0, 9, 0, 0, 0, 0, 0, 0, 0⟩
    let m : PtpMsg := ⟨0, 1, 0, 5, 9, 0, ⟨1, 0, 0⟩, ⟨2, 0, 0⟩, true⟩
    let asleep := ptpUp.setDomain 3 ⟨.cold, false, 0⟩
    let follows := fun (e : Option Exchange) => ptpUp.setPtp { ptpUp.time.ptp with masters := [a], chosen := some (9, 0), exch := e }
    let d := fun (e : Dev) => e.frameIn 0
    let fresh : Exchange := ⟨5, none, 0, 0, none, 0, none⟩
    let asked : Exchange := ⟨4, some 0, 0, 0, some 5, 0, none⟩
    let far : Exchange := ⟨4, some 0, 0, 0, some 5, 0, none⟩
    (up.boot.inReset = false ∧ (asleep.setDomain 3 ⟨.toCold, true, 0⟩).domOn 3 = false ∧
      (d (asleep.setDomain 3 ⟨.toCold, true, 0⟩)).domOn 3 = false ∧ (d up).domOn 3 = true ∧ (d up).ptpHears 0 1 0 = false ∧
      (d ptpUp).domOn 3 = true ∧ (d ptpUp).ptpHears 0 1 0 = true ∧ (d ptpUp).time.ptp.chosen = none ∧
      (d ptpUp).time.ptp.masters = []) ∧
    ((d up).ptpTakes m = false ∧ (d (follows none)).ptpTakes m = true ∧ (d (follows none)).domOn 3 = true ∧
      (d (follows (some fresh))).ptpTakes m = true ∧ (d (follows (some fresh))).time.ptp.exch = some fresh ∧ fresh.syncSeq = m.seqId ∧
      fresh.t1 = none ∧ fresh.t4 = none ∧ (d (follows (some asked))).ptpTakes m = true ∧
      (d (follows (some asked))).time.ptp.exch = some asked ∧ asked.reqSeq = some m.seqId ∧ asked.t1 = some 0) ∧
    ((d (follows (some asked))).rd Fld.TIME_PTPCTRL.HostServo = 0 ∧
      1000000 * 65536 < (Int.fdiv ((far.t2 - 0) - (TimeStamp.coarse m.stamp - m.correction - far.t3)) 2).natAbs ∧
      ((d (follows (some asked))).wr Fld.TIME_PTPCTRL.HostServo 1).rd Fld.TIME_PTPCTRL.HostServo = 1) ∧
    (up.time.ptp.exch = none ∧ (follows (some fresh)).time.ptp.exch = some fresh ∧
      (follows (some fresh)).time.ptp.chosen = some (9, 0) ∧ fresh.reqSeq = none ∧
      (follows (some fresh)).ptpHears 0 (follows (some fresh)).time.ptp.transport
        ((follows (some fresh)).rd Fld.TIME_PTPCTRL.Domain) = true ∧ (follows none).time.ptp.masters = [a] ∧
      (follows none).time.ptp.chosen = some (a.source, a.port) ∧ ptpUp.rd Fld.TIME_PTPCTRL.Enable = 1 ∧ ptpUp.isKeeper = false ∧
      ptpUp.rd Fld.TIME_PTPCTRL.HostServo = 0 ∧ ((paired id).setPair (fun p => { p with role := .keeper })).isKeeper = true) :=
  ⟨by decide +kernel, by decide +kernel, by decide +kernel, by decide +kernel⟩

/-- A training frame whose marker and CRC hold, with a request (R353, Table 73). -/
def frame (request : Nat) : Bytes :=
  let f := natLE 2 request ++ [0#8, 1#8, 0#8, 0#8]
  natLE 8 0x4B5AC3E10F967D28 ++ f ++ natLE 2 (crc16 f)

/-- A flit whose CRC holds: its sequence number. -/
def flit (type seq : Nat) : Bytes :=
  let f := natLE 2 type ++ natLE 2 seq ++ List.replicate 56 0#8
  f ++ natLE 4 (crc32c f)

theorem test_witness_lanes :
    let t : Taps := presetTaps
    let lane := fun (k st : Nat) => up.wr (Fld.LANE_STAT.State k) st
    let on := up.wr (Fld.LANE_CTRL.Enable 11) 1
    let asked := (lane 11 1).setTrain 7 { (lane 11 1).train 7 with request := some 0 }
    let linked : Dev := { up with lane := { up.lane with link := ⟨true, 1, 1, []⟩ } }
    (t.swingOk = true ∧ t.pre ≤ 15 ∧ 32 ≤ t.main ∧ t.main ≤ 63 ∧ t.post ≤ 31) ∧
    (up.boot.inReset = false ∧ (lane 11 1).rd (Fld.LANE_STAT.State 11) ≠ 0 ∧ up.rd (Fld.LANE_STAT.State 3) = 0 ∧
      on.rd (Fld.LANE_STAT.State 11) = 0 ∧ on.part = .sn262 ∧ on.lane.refclk = true ∧ on.rd (Fld.LANE_CTRL.Enable 11) = 1 ∧
      up.rd (Fld.LANE_STAT.State 11) ≠ 4 ∧ (lane 11 4).rd (Fld.LANE_STAT.State 11) = 4 ∧
      up.rd (Fld.LANE_STAT.State 11) ≠ 1 ∧ asked.rd (Fld.LANE_STAT.State 11) = 1 ∧ (asked.train 7).request ≠ none ∧
      (asked.train 7).own = 0 ∧ asked.rd (Fld.LANE_STAT.Steps 11) < asked.rd Fld.LANE_BUDGET.Steps) ∧
    (frameOk (List.replicate 16 0#8) = false ∧ frameOk (frame 0) = true ∧ (lane 11 1).rd (Fld.LANE_STAT.State 11) = 1 ∧
      bitsOf (leAt (frame 0) 8 2) 5 0 = 0 ∧ frameOk (frame 1) = true ∧ bitsOf (leAt (frame 1) 8 2) 5 0 ≠ 0) ∧
    (up.lane.link.up = false ∧ linked.lane.link.up = true ∧ ([] : Bytes).length ≠ 64 ∧ (flit 2 1).length = 64 ∧
      crc32c ((flit 2 1).take 60) = leAt (flit 2 1) 60 4 ∧ (leAt (flit 2 1) 6 2).testBit 0 = false ∧ leAt (flit 2 1) 0 1 ≠ 0 ∧
      leAt (flit 2 1) 0 1 ≠ 9 ∧ leAt (flit 2 1) 0 1 ≠ 11 ∧ leAt (flit 2 1) 2 2 = linked.lane.link.rxNext ∧
      leAt (flit 2 2) 2 2 ≠ linked.lane.link.rxNext ∧ crc32c ((flit 2 2).take 60) = leAt (flit 2 2) 60 4) ∧
    ((heldInReset .sn131 0 [] freshJournal).part = .sn131 ∧ (lane 11 1).lane.refclk = true) :=
  ⟨by decide +kernel, by decide +kernel, by decide +kernel, by decide +kernel, by decide +kernel⟩

theorem test_witness_lane_retrain :
    let v := fun (l : Nat) => up.reg (Adr.LANE_CTRL l) ||| 2#32
    (∀ l ∈ [3, 11], holdsRegister up.part (Adr.LANE_CTRL l) = true ∧
      BitVec.ofNat 32 ((v l).toNat &&& definedBits (Adr.LANE_CTRL l)) = v l ∧ (v l).toNat.testBit 0 = true) ∧
    (∀ d ∈ [up], ∀ v, Reaches (dev d) .service (Adr.LANE_CTRL 3) v) ∧
    (∀ d ∈ [up], ∀ v, Reaches (dev d) .service (Adr.LANE_CTRL 11) v) :=
  ⟨by decide +kernel, reaches_all (by decide +kernel), reaches_all (by decide +kernel)⟩

theorem test_witness_host_ports :
    let lane := fun (st lock : Nat) => (up.wr (Fld.LANE_STAT.State 3) st).wr (Fld.NET_PSTAT.BlockLock 3) lock
    let floor := up.rd Fld.LANE_FOM.Floor
    let auto := (lane 2 0).wr (Fld.NET_PCTRL.Speed 3) 2
    let fixed := up.wr (Fld.NET_PCTRL.Speed 3) 0
    let cfg : TypedCfg := { defaultCfg with ip4 := some 5, ip6 := some 6, baseMac := some 0 }
    let named : Dev := { up with boot := { up.boot with cfg := cfg } }
    let asleep := up.setDomain 3 ⟨.toCold, true, 0⟩
    let dark : Dev := { named with lane := { named.lane with refclk := false } }
    let d := fun (e : Dev) => e.frameIn 3
    (up.boot.inReset = false ∧ up.rd (Fld.LANE_STAT.State 3) ≠ 2 ∧ (lane 2 1).rd (Fld.LANE_STAT.State 3) = 2 ∧
      (lane 2 0).rd (Fld.NET_PSTAT.BlockLock 3) = 0 ∧ (lane 2 1).rd (Fld.NET_PSTAT.BlockLock 3) = 1 ∧
      (lane 2 1).rd (Fld.NET_PSTAT.HiBer 3) = 0 ∧ floor ≤ min 255 floor ∧ 0 < floor ∧ (lane 3 1).rd (Fld.LANE_STAT.State 3) = 3 ∧
      2 ≤ auto.rd (Fld.NET_PCTRL.Speed 3) ∧ auto.rd (Fld.NET_PSTAT.BlockLock 3) = 0 ∧ auto.rd (Fld.LANE_STAT.State 3) = 2 ∧
      fixed.rd (Fld.NET_PCTRL.Speed 3) < 2) ∧
    (BitVec.ofNat 32 ((3#32).toNat &&& definedBits (Adr.NET_PCTRL 3)) = 3#32) ∧
    (∀ d ∈ [up], ∀ v, Reaches (dev d) .service (Adr.NET_PCTRL 3) v) ∧
    ((d asleep).domOn 3 = false ∧ (d up).domOn 3 = true ∧ (d up).owns4 3 5 = none ∧ ((d named).owns4 3 5).isSome = true ∧
      (d named).domOn 3 = true ∧ (d up).owns6 3 0 = none ∧ ((d named).owns6 3 6).isSome = true ∧
      1472 < (List.replicate 1473 0#8).length ∧ (List.replicate 1472 0#8).length ≤ 1472 ∧ up.lane.refclk = true ∧
      dark.lane.refclk = false ∧ dark.rd (Fld.LANE_CTRL.Enable 3) = 1 ∧ dark.boot.cfg.baseMac.isSome = true) :=
  ⟨by decide +kernel, by decide +kernel, reaches_all (by decide +kernel), by decide +kernel⟩

/-! ### Witnesses: the memories -/

theorem test_witness_memory :
    let bare := up.setReg Adr.MEM_CFG 0#32
    let raw := up.setReg Adr.MEM_STATUS 0#32
    let kindling := up.setReg Adr.MEM_STATUS 0x12#32
    let hot := up.wr Fld.MEM_STATUS.Hot 8
    let four := (up.setReg Adr.MEM_CFG 0xF#32).setReg Adr.MEM_STATUS 0xF3#32
    let replayed := four.setMemc (fun x => { x with replays := x.replays.set 3 3 })
    let cooled := (four.wr Fld.MEM_STATUS.Hot 8).setMemc (fun x => { x with cool := x.cool.set 3 1 })
    (up.boot.inReset = false ∧ bare.populated = 0 ∧ ((0#4).toNat &&& up.populated) ≠ up.populated ∧ raw.populated ≠ 0 ∧
      ((1#4).toNat &&& raw.populated) = raw.populated ∧ raw.memTrained = false) ∧
    (kindling.memTrained = true ∧ kindling.rd Fld.MEM_STATUS.ReservedKindled = 1 ∧ kindling.rd Fld.MEM_STATUS.Kindled = 0 ∧
      kindling.memc.emberHeld = false ∧ up.memTrained = true ∧ up.memRuns = true ∧ raw.memRuns = false) ∧
    (up.populated.testBit 3 = false ∧ four.memRuns = true ∧ four.populated.testBit 3 = true ∧ four.memc.replays[(3 : Fin 4)] < 3 ∧
      replayed.memRuns = true ∧ replayed.populated.testBit 3 = true ∧ 3 ≤ replayed.memc.replays[(3 : Fin 4)] ∧ 2 ≤ (2#2).toNat ∧
      (1#2).toNat < 2 ∧ four.memc.cool[(3 : Fin 4)] = 0 ∧ 1 ≤ cooled.memc.cool[(3 : Fin 4)] ∧ cooled.memRuns = true ∧
      cooled.populated.testBit 3 = true ∧ (cooled.rd Fld.MEM_STATUS.Hot).testBit 3 = true ∧ hot.memRuns = true) :=
  ⟨by decide +kernel, by decide +kernel, by decide +kernel⟩

/-- A line's errors: one component wrong in one beat, and two components wrong in one beat. -/
def oneWrong : Bytes := List.replicate 3 0#8 ++ [0x55#8] ++ List.replicate 76 0#8
def twoWrong : Bytes := [0x55#8, 0x01#8] ++ List.replicate 78 0#8

/-- R389, R390: nothing wrong reads good, the poison mark reads poisoned, and a component wrong is corrected; two wrong
components of one beat are found. -/
theorem test_code : decodeLine false [] = .good ∧ decodeLine false oneWrong = .corrected 3 ∧
    decodeLine false twoWrong = .uncorrectable := by decide +kernel

theorem test_witness_sweeper :
    let sweeping := (up.wr Fld.MEM_SIZE.GiB 8).wr Fld.MEM_CTRL.SweepEn 1
    let still := (up.wr Fld.MEM_SIZE.GiB 8).wr Fld.MEM_CTRL.SweepEn 0
    let poisoned : Mem := { emptyStore with poison := [0], watermark := 0x100000 }
    (∃ b : Fin 8, (fun _ : Fin 8 => (0#8 : Byte)) b = 0#8) ∧
    (up.boot.inReset = false ∧ still.sweeps emptyStore = false ∧ sweeping.sweeps emptyStore = true ∧
      decodeLine (emptyStore.poison.contains sweeping.memc.sweepNext) [] = .good ∧
      decodeLine (emptyStore.poison.contains sweeping.memc.sweepNext) oneWrong = .corrected 3 ∧
      decodeLine (emptyStore.poison.contains sweeping.memc.sweepNext) twoWrong = .uncorrectable ∧ sweeping.sweeps poisoned = true ∧
      (match decodeLine (poisoned.poison.contains sweeping.memc.sweepNext) [] with | .poisoned _ => true | _ => false) = true ∧
      sweeping.pair.repairs.contains 0 = false ∧ still.rd Fld.MEM_CTRL.SweepEn = 0 ∧ sweeping.rd Fld.MEM_CTRL.SweepEn = 1) :=
  ⟨⟨0, rfl⟩, by decide +kernel⟩

theorem test_witness_reread_and_live :
    let waits := up.setMemc (fun c => { c with reread := [64] })
    let live := up.setMemc (fun c => { c with live := [(64, true)] })
    let poisoned : Mem := { holding (strip 1 0 7 stored56 ++ List.replicate 57 0#8 ++ natLE 8 (2 ^ 40)) with poison := [64] }
    let p : Page := { page 1 with tables := (page 1).tables.set 0 (0x80, 1) }
    let held : Dev := { live.setJob (fun j => { j with pages := [p] }) with act := [(Adr.HP_PLANE 0, 0x01400100#32)] }
    let e := held.setMemc (fun c => { c with live := c.live.filter (fun y => y.1 != 64) })
    (up.boot.inReset = false ∧ up.memc.reread.contains 64 = false ∧ waits.memc.reread.contains 64 = true ∧
      decodeLine (emptyStore.poison.contains 64) [] = .good ∧ decodeLine (emptyStore.poison.contains 64) twoWrong ≠ .good ∧
      up.memc.live.find? (fun e => e.1 == 64) = none ∧ live.memc.live.find? (fun e => e.1 == 64) = some (64, true) ∧
      emptyStore.poison.contains 64 = false) ∧
    (held.memc.live.find? (fun e => e.1 == 64) = some (64, true) ∧ 64 < held.jobLimit ∧ poisoned.poison.contains 64 = true ∧
      held.pair.mode = false ∧ (e.stripOfLine poisoned 64).isSome = true ∧ held.memc.resent.contains 64 = false) :=
  ⟨by decide +kernel, by decide +kernel⟩

theorem test_witness_remap :
    let ask := fun (d : Dev) (v : Word) => d.met .service Adr.MEM_RMREQ v
    let go : Word := 0x80000005#32
    let away : Word := 0xB0000005#32
    let row : Nat := 5
    let waits := up.setMemc (fun c => { c with remaps := [row] })
    let busy := up.setJob (fun j => { j with seq := .parkedEnd })
    (∀ d ∈ [up, waits], ∀ v, Reaches (dev d) .service Adr.MEM_RMREQ v) ∧
    (∀ d ∈ [up, busy], ∀ v, Reaches (dev d) .service Adr.MEM_RMCTRL v) ∧
    (BitVec.ofNat 32 (go.toNat &&& definedBits Adr.MEM_RMREQ) = go ∧ BitVec.ofNat 32 (away.toNat &&& definedBits Adr.MEM_RMREQ) = away ∧
      (5#32).toNat.testBit 31 = false ∧ go.toNat.testBit 31 = true ∧ rowOfWord go.toNat = row ∧
      (ask up go).remapWords.any (fun w => rowOfWord w == row) = false ∧ (ask up go).memc.remaps.contains row = false ∧
      (ask up go).rowExists row = true ∧ (ask up go).sparesUsed row < (ask up go).spareRows ∧
      (ask up go).remapWords.length + (ask up go).memc.remaps.length < 16 ∧ (ask up away).rowExists (rowOfWord away.toNat) = false) ∧
    (up.memc.remaps = [] ∧ waits.memc.remaps = row :: [] ∧ rowOfWord row = row ∧
      (waits.reg (Adr.MEM_REMAP 0)).toNat.testBit 31 = false ∧ (∀ j : Fin 16, j < 0 → (waits.reg (Adr.MEM_REMAP j.val)).toNat.testBit 31 = true) ∧
      up.job.seq = .idle ∧ busy.job.seq ≠ .idle) :=
  ⟨reaches_all (by decide +kernel), reaches_all (by decide +kernel), by decide +kernel, by decide +kernel⟩

/-! ### Witnesses: the pair -/

/-- A keeper whose partner is there. -/
def keeper (f : PairSt → PairSt) : Dev := paired (fun p => f { p with role := .keeper })

/-- A device of a pair in a state. -/
def pairIn (st : PairState) : Dev := paired (fun p => { p with state := st, role := .keeper })

theorem test_witness_hello :
    let h : Hello := ⟨1, 0, false, 1, 0⟩
    let s := fun (st : PairState) (own : Bool) => paired (fun p => { p with state := st, validStore := own })
    let d := fun (st : PairState) (own : Bool) (h : Hello) => (s st own).setPair (fun p => { p with partnerState := h.state })
    (∀ st ∈ [PairState.negotiating, .isolated, .solo, .paired], (s st true).boot.inReset = false ∧ (s st true).pair.mode = true ∧
      (s st true).failed = false ∧ (s st true).pair.locked = false) ∧
    (0 % 2 = (d .paired true h).devNum % 2 ∧ h.number % 2 ≠ (d .paired true h).devNum % 2 ∧
      (s .paired true).rd Fld.PAIR_CFG.Prefer ≠ h.prefer ∧ (d .negotiating true h).pair.state = .negotiating ∧
      helloStarting h = true ∧ helloStarting { h with state := 1 } = false ∧ helloStarting { h with state := 4 } = true ∧
      (d .isolated true h).pair.state = .isolated ∧ (d .isolated true h).pair.validStore = true ∧
      (d .isolated false h).pair.validStore = false ∧ helloStarting { h with state := 8 } = false ∧
      (d .solo true h).pair.state = .solo ∧ (d .paired true h).pair.state ≠ .negotiating ∧ (d .paired true h).pair.state ≠ .isolated ∧
      (d .paired true h).pair.state ≠ .solo) := ⟨by decide +kernel, by decide +kernel⟩

theorem test_witness_alone :
    let high := paired (fun p => { p with state := .negotiating, strkIn := true })
    let low := paired (fun p => { p with state := .negotiating })
    let solo := fun (n : Nat) => paired (fun p => { p with state := .solo, soloChecks := n })
    let take := fun (r : Role) => paired (fun p => { p with role := r, takePending := true })
    (high.boot.inReset = false ∧ high.pair.mode = true ∧ high.pair.state = .negotiating ∧ high.pair.strkIn = true ∧
      low.pair.strkIn = false ∧ low.pair.state = .negotiating ∧ (solo 1).pair.state = .solo ∧ 1 ≤ (solo 1).pair.soloChecks ∧
      2 ≤ (solo 2).pair.soloChecks ∧ (solo 1).pair.soloChecks = 1 ∧ (solo 0).pair.soloChecks = 0 ∧ low.pair.state ≠ .solo) ∧
    ((paired id).pair.role = .striker ∧ (keeper id).pair.role ≠ .striker ∧ (paired id).pair.takePending = false ∧
      (take .keeper).pair.takePending = true ∧ (take .keeper).isKeeper = true ∧ (take .striker).isKeeper = false ∧
      (take .striker).pair.takePending = true ∧ (keeper id).pair.takePending = false) := by decide +kernel

theorem test_witness_heartbeat :
    let l := fun (d : Dev) => d.wr Fld.PAIR_HBMISS.Count (d.rd Fld.PAIR_HBMISS.Count + 3)
    let r := fun (d : Dev) => (l d).reportLost
    let k := fun (st : PairState) (ready strk : Bool) =>
      ({ keeper id with act := plane0.act } : Dev).setPair (fun _ => (keeper (fun p => { p with state := st, strkIn := strk, begun := if ready then 1#8 else 0#8, resynced := true })).pair) |>.setPlane 0
        { up.plane 0 with runs := [⟨1, 0, 2, 0, 0, none, none⟩] }
    (up.boot.inReset = false ∧ up.pair.mode = false ∧ (paired id).pair.mode = true ∧ (paired id).failed = false ∧
      (paired id).pair.role = .striker ∧ (keeper id).pair.role ≠ .striker ∧ (pairIn .isolated).pair.state = .isolated ∧
      (pairIn .isolated).pair.locked = false ∧ (pairIn .solo).pair.state = .solo ∧ (pairIn .syncing).pair.state = .syncing ∧
      (pairIn .suspect).pair.state = .suspect ∧ (pairIn .selfTest).pair.state = .selfTest) ∧
    let gives := paired (fun p => { p with state := .yielding, handedPorts := [0] })
    ((paired id).pair.state = .paired ∧ (r (paired id)).pair.role = .striker ∧ (r (paired id)).pair.handedPorts = [] ∧
      gives.pair.state = .yielding ∧ (r gives).pair.role = .striker ∧ (r gives).pair.handedPorts ≠ [] ∧ (k .paired false false).pair.state = .paired ∧
      (r (k .paired false false)).pair.role ≠ .striker ∧ (r (k .paired false false)).readyBusy = false ∧
      (r (k .paired false false)).pair.state ≠ .yielding ∧ (r (keeper id)).readyBusy = true ∧
      (r (k .yielding false true)).pair.state = .yielding ∧ (r (k .yielding false true)).pair.strkIn = true ∧
      (r (k .yielding false false)).pair.strkIn = false ∧ (r (k .yielding false true)).pair.role ≠ .striker) :=
  ⟨by decide +kernel, by decide +kernel⟩

theorem test_witness_fatal_and_handoff :
    let failed := paired (fun p => { p with state := .failed })
    let ready := paired (fun p => { p with partnerState := 1 })
    let readyK := keeper (fun p => { p with partnerState := 1 })
    let met := fun (d : Dev) (v : Word) => d.met .service Adr.PAIR_CTRL v
    (up.boot.inReset = false ∧ up.failed = false ∧ (5 : Fin 16).val < 6 ∧ failed.failed = true ∧ driving0.failed = false ∧
      (∃ p < 64, driving0.portDriven p = true) ∧ (∀ p < 64, up.portDriven p = false) ∧ (paired id).pair.mode = true ∧
      up.pair.mode = false ∧ up.part = .sn262) ∧
    (∀ d ∈ [paired id, ready], ∀ v, Reaches (dev d) .service Adr.PAIR_CTRL v) ∧
    (Reaches (dev readyK) .ojpOwn Adr.PAIR_CTRL 1#32 ∧ Reaches (dev readyK) .ojpOwn Adr.PAIR_CTRL 2#32) ∧
    ((met (paired id) 1).pair.partnerState ≠ 1 ∧ (met ready 1).pair.state = .paired ∧ (met ready 1).pair.partnerState = 1 ∧
      (met ready 1).readyBusy = true ∧ (met ready 1).pair.role = .striker ∧
      (readyK.met .ojpOwn Adr.PAIR_CTRL 1#32).pair.role ≠ .striker ∧ (readyK.met .ojpOwn Adr.PAIR_CTRL 1#32).readyBusy = true ∧
      (readyK.met .ojpOwn Adr.PAIR_CTRL 1#32).pair.state = .paired ∧ (readyK.met .ojpOwn Adr.PAIR_CTRL 1#32).pair.partnerState = 1) ∧
    ((paired id).isKeeper = false ∧ (keeper id).isKeeper = true ∧ (keeper id).pair.state = .paired ∧
      (pairIn .syncing).pair.state ≠ .paired ∧ (readyK.met .ojpOwn Adr.PAIR_CTRL 2#32).isKeeper = true ∧
      (readyK.met .ojpOwn Adr.PAIR_CTRL 2#32).pair.state = .paired ∧ (met ready 2).isKeeper = false ∧ up.pair.state ≠ .selfTest ∧
      (pairIn .selfTest).pair.state = .selfTest ∧ (keeper id).roleDrives 63 = false ∧ ((keeper id).port 63).queue = [] ∧
      driving0.roleDrives 0 = true) :=
  ⟨by decide +kernel, reaches_all (by decide +kernel), ⟨⟨rfl, by decide +kernel⟩, rfl, by decide +kernel⟩, by decide +kernel, by decide +kernel⟩

theorem test_witness_rally :
    let rec_ : RallyRec := ⟨7, 5, 1#32, [3#32], true⟩
    let other : RallyRec := { rec_ with lcvs := [4#32] }
    let arb := fun (mine : Option Bool) => (⟨7, 5, 1, 1#32, mine, none⟩ : ArbLine)
    let on := (paired (fun p => { p with partnerReady := 0x81#8 })).wr Fld.PAIR_RALLY.Enable 1
    let ours := ({ on with act := [(Adr.HP_PLANE 7, 0x01400100#32)] } : Dev)
    let own := ours.setPair (fun p => { p with own := [rec_] })
    let arbs := fun (mine : Option Bool) => own.setPair (fun p => { p with arb := [arb mine] })
    (own.boot.inReset = false ∧ own.pair.arb.any (fun a => a.isLine 7 5) = false ∧ up.pair.arb.any (fun a => a.isLine 7 5) = false ∧
      up.rallies 7 = false ∧ ours.rallies 7 = true ∧ (∀ o ∈ ours.pair.own, ¬ (o.plane = rec_.plane ∧ o.event = rec_.event)) ∧
      own.rallies 7 = true ∧
      own.pair.own.find? (fun o => decide (o.plane = rec_.plane) && decide (o.event = rec_.event)) = some rec_) ∧
    ((arbs (some true)).pair.arb.find? (fun a => a.isLine 7 5) = some (arb (some true)) ∧ (arb (some true)).mine = some true ∧
      (arbs none).pair.arb.find? (fun a => a.isLine 7 5) = some (arb none) ∧ (arb none).mine = none ∧ rec_.lcvs = rec_.lcvs ∧
      (∃ p < 64, p ∈ own.portsOf 7 ∧ rec_.lcvs.getD (p - (own.range 7).1) 0#32 ≠ other.lcvs.getD (p - (own.range 7).1) 0#32) ∧
      (ours.pair.own.any (fun r => decide (r.plane = 7) && decide (r.event = 5))) = false ∧
      (own.pair.own.any (fun r => decide (r.plane = 7) && decide (r.event = 5))) = true) := ⟨by decide +kernel, by decide +kernel⟩

theorem test_witness_arbitration :
    let z := fun (d : Dev) =>
      let y := d.setPair (fun p => { p with
        arb := p.arb.filter (fun x => !x.isLine 7 5), evidence := p.evidence.filter (fun x => x != (7, 5)) })
      y.joinRange 7 5 1 (y.pagesAt 7 5 1#32)
    let busy := ({ paired id with act := plane0.act } : Dev).setPlane 0 { up.plane 0 with runs := [⟨1, 0, 2, 0, 0, none, none⟩] }
    (z (paired id)).readyBusy = true ∧ (z (paired id)).pair.state = .paired ∧ (z (paired id)).isKeeper = false ∧
    (z busy).readyBusy = false := by decide +kernel

theorem test_witness_pair_messages :
    let raw := (paired id).setReg Adr.MEM_STATUS 0#32
    let poisoned : Mem := { emptyStore with poison := [64], watermark := 0x100000 }
    let held := keeper (fun p => { p with heldFetch := [(0, 0#32)] })
    let saved : StreamSt := ⟨255, 64, true, false, [], .header, false, 0, 0, []⟩
    let gap := (keeper (fun p => { p with gap := true, resynced := true, begun := 0xFF#8 })).setPlane 7
      { up.plane 7 with runs := [⟨1, 0, 2, 0, 0, none, none⟩] }
    ((keeper id).stream 255 = none ∧ ((keeper id).setStream saved).isKeeper = true ∧
      (((keeper id).setStream saved).stream 255).isSome = true ∧ (∀ x, ResyncItem.finish ≠ .stream x) ∧ gap.isKeeper = true ∧
      gap.pair.gap = true ∧ gap.stream 255 = none ∧ gap.readyMask.toNat.testBit 7 = true ∧
      (7, 1, 255) ∈ (gap.lackStream 7 1 255).pair.lacking ∧ (∃ r ∈ ((gap.lackStream 7 1 255).plane 7).runs, r.page = 1) ∧
      (gap.lackStream 7 1 255).readyMask.toNat.testBit 7 = false ∧
      ((gap.lackStream 7 1 255).haveStream 255).readyMask.toNat.testBit 7 = true) ∧
    (up.boot.inReset = false ∧ raw.memRuns = false ∧ up.memRuns = true ∧ (keeper id).memRuns = true ∧ (keeper id).pair.mode = true ∧
      (keeper id).isKeeper = true ∧ up.pair.mode = false ∧ (paired id).isKeeper = false ∧ (pairIn .syncing).pair.state = .syncing ∧
      (pairIn .syncing).memRuns = true ∧ (paired id).pair.state ≠ .syncing ∧ (paired id).pair.mode = true ∧
      (paired id).memRuns = true) ∧
    (emptyStore.bad [] 64 = false ∧ foundAs [] .corrected 64 = false ∧ 64 < poisoned.watermark ∧ poisoned.poison.contains 64 = true ∧
      (paired id).pair.heldFetch = [] ∧ (0 < 64 ∨ 64 + 64 ≤ 0) ∧ 64 ≤ 127 ∧ 127 < 64 + 64 ∧ Adr.PAIR_CTRL = Adr.PAIR_CTRL ∧
      (1#32).toNat.testBit 0 = true ∧ Adr.JOB_CTRL ≠ Adr.PAIR_CTRL ∧ held.pair.heldFetch ≠ [] ∧ held.isKeeper = true ∧
      (keeper id).pair.heldFetch = [] ∧ 262143 ≤ (keeper id).part.maxNozzle) :=
  ⟨⟨by decide +kernel, by decide +kernel, by decide +kernel, (fun _ h => ResyncItem.noConfusion h), by decide +kernel⟩,
    by decide +kernel, by decide +kernel⟩

/-! ### Witnesses: DMA and the check units -/

theorem test_witness_dma_registers :
    let ring := up.wr (Fld.DMA_CHSIZE.Entries 15) 2
    let met := fun (v : Word) => ring.met .service (Adr.DMA_CHPROD 15) v
    let v := fun (k : Nat) => up.reg (Adr.DMA_CHCTRL 15) ||| BitVec.ofNat 32 k
    let c := up.reg (Adr.CRC_CTRL 3) ||| BitVec.ofNat 32 8
    let desc := dmaDescOf 0 (natLE 4 0 ++ natLE 4 1) false
    let waits := up.modDma 15 (fun z => { z with phase := .trigger, desc := some desc })
    (∀ d ∈ [ring], ∀ v, Reaches (dev d) .service (Adr.DMA_CHPROD 15) v) ∧ (∀ d ∈ [up], ∀ v, Reaches (dev d) .service Adr.DMA_CQCONS v) ∧
    (∀ d ∈ [up, waits], ∀ v, Reaches (dev d) .service (Adr.DMA_CHCTRL 15) v) ∧
    (∀ d ∈ [up], ∀ v, Reaches (dev d) .service (Adr.CRC_CTRL 3) v) ∧
    (BitVec.ofNat 32 ((2#32).toNat &&& definedBits (Adr.DMA_CHPROD 15)) = 2#32 ∧
      max 1 ((met 2#32).rd (Fld.DMA_CHSIZE.Entries 15)) ≤ (2#32).toNat ∧
      BitVec.ofNat 32 ((1#32).toNat &&& definedBits (Adr.DMA_CHPROD 15)) = 1#32 ∧
      (1#32).toNat < max 1 ((met 1#32).rd (Fld.DMA_CHSIZE.Entries 15)) ∧
      BitVec.ofNat 32 ((0xFFFF#32).toNat &&& definedBits Adr.DMA_CQCONS) = 0xFFFF#32) ∧
    (BitVec.ofNat 32 ((v 2).toNat &&& definedBits (Adr.DMA_CHCTRL 15)) = v 2 ∧ (v 2).toNat.testBit 2 = false ∧
      BitVec.ofNat 32 ((v 4).toNat &&& definedBits (Adr.DMA_CHCTRL 15)) = v 4 ∧ (v 4).toNat.testBit 1 = false ∧
      ((up.met .service (Adr.DMA_CHCTRL 15) (v 4)).dmaChan 15).phase = .none ∧
      ((waits.met .service (Adr.DMA_CHCTRL 15) (v 4)).dmaChan 15).phase = .trigger ∧
      ((waits.met .service (Adr.DMA_CHCTRL 15) (v 4)).dmaChan 15).desc = some desc ∧ waits.reg (Adr.DMA_CHCTRL 15) ||| 4#32 = v 4 ∧
      BitVec.ofNat 32 (c.toNat &&& definedBits (Adr.CRC_CTRL 3)) = c) :=
  ⟨reaches_all (by decide +kernel), reaches_all (by decide +kernel), reaches_all (by decide +kernel), reaches_all (by decide +kernel),
    by decide +kernel, by decide +kernel⟩

theorem test_witness_dma :
    let ring := ((up.wr (Fld.DMA_CHSIZE.Entries 15) 2).wr (Fld.DMA_CHCTRL.Enable 15) 1).wr (Fld.DMA_CHPROD.Prod 15) 1
    let asleep := ring.setDomain 5 ⟨.ember, false, 0⟩
    let m := holding (natLE 4 0 ++ natLE 4 4 ++ natLE 8 0x40 ++ natLE 8 0x42 ++ List.replicate 8 0#8)
    let x := dmaDescOf 0 (m.read 0 32) false
    let zero : DmaDesc := { x with count := 0 }
    let event : DmaDesc := { x with control := 0x100 }
    let with_ := fun (p : DmaPhase) (x : DmaDesc) (d : Dev) => d.modDma 15 (fun z => { z with phase := p, desc := some x })
    let done := (with_ .record x up).modDma 15 (fun z => { z with outcome := some ⟨0, 4, 0⟩ })
    let due := fun (d : Dev) => ({ d with dma := { d.dma with waiting := [15] } } : Dev)
    let room := (due done).wr Fld.DMA_CQSIZE.Entries 2
    (up.boot.inReset = false ∧ up.dmaWorks 15 = false ∧ ring.dmaWorks 15 = true ∧ (ring.dmaChan 15).phase = .none ∧
      ring.domOn 5 = true ∧ asleep.dmaWorks 15 = true ∧ asleep.domOn 5 = false ∧ ring.rd (Fld.DMA_CHCONS.Cons 15) = 0 ∧
      32 * max 1 (ring.rd (Fld.DMA_CHSIZE.Entries 15)) ≤ ring.jobLimit ∧ m.bad [] 0 = false ∧ x.bad = false) ∧
    ((up.dmaChan 15).desc = none ∧ ((with_ .trigger x up).dmaChan 15).desc = some x ∧ x.trigger = 0 ∧ x.namesUnit = false ∧
      up.dmaCheck x = none ∧ zero.trigger = 0 ∧ zero.namesUnit = false ∧ up.dmaCheck zero = some 1 ∧
      (up.wr (Fld.DMA_TIMER.Enable 7) 0).rd (Fld.DMA_TIMER.Enable 7) = 0 ∧ (up.wr (Fld.DMA_TIMER.Enable 7) 1).rd (Fld.DMA_TIMER.Enable 7) = 1 ∧
      (up.dmaChan 15).phase ≠ .moving ∧ ((with_ .moving x ring).dmaChan 15).phase = .moving ∧
      (with_ .moving x ring).rd (Fld.DMA_CHCTRL.Enable 15) = 1) ∧
    (x.gather = false ∧ x.srcSpace = 0 ∧ x.dstSpace = 0 ∧ x.feeds = false ∧ m.badLines [] x.src x.count = [] ∧ x.count = 4 ∧
      x.src = 0x40 ∧ x.dst = 0x42 ∧ event.trigger ≠ 0 ∧ ¬ (event.trigger = 2 ∧ event.trigArg = 15)) ∧
    (up.dma.waiting = [] ∧ room.dma.waiting = 15 :: [] ∧ room.cqFull = false ∧ (room.dmaChan 15).desc = some x ∧
      (room.dmaChan 15).outcome = some ⟨0, 4, 0⟩ ∧ x.noRecord = false ∧
      up.rd Fld.DMA_CQBASELO.BaseLo * 64 + up.rd Fld.DMA_CQBASEHI.BaseHi * 2 ^ 32 + 16 * up.rd Fld.DMA_CQPROD.Prod + 16 ≤ up.jobLimit) :=
  ⟨by decide +kernel, by decide +kernel, by decide +kernel, by decide +kernel⟩

/-! ### Well-formed commands: for each check a command that it refuses -/

/-- A header with nothing wrong and no body, from an endpoint. -/
def plain (ep : Endpoint) (finds : Finds) : OjpMsg :=
  ⟨ep, 0#48, 0, false, 0x4F4A#16, 1#8, 0#8, 0#8, 0#16, 0#32, 0#32, 0#64, 0#32, [], [], finds⟩

theorem test_wellformed_refuses : ∀ i ∈ ([
    .registerWrite .service (2 ^ 32) 0#32, .doorbellRing .service [(32, .corrected)], .linkPoll [(2 ^ 40, .uncorrectable)],
    .ack (plain ⟨false, 2 ^ 32, 0#16⟩ []), .close (plain host [(1, .corrected)]),
    .jobWrite { plain host [] with body := List.replicate 65508 0#8 },
    .retransmitTimeout 0 (2 ^ 32), .repairWaitEnd 65, .nztWrite .service (2 ^ 18) 0#32, .ssiFrame 0 (2 ^ 48) true true 0,
    .pwmPeriod 0 2048 0 0 0, .pwmPeriod 0 0 0 0 (-2049), .hello ⟨2, 0, false, 0, 0⟩, .hello ⟨0, 9, false, 0, 0⟩,
    .verdictMessage (2 ^ 18) 0#2, .heartbeat ⟨9, 0#8, 0#32⟩, .fatalFault 6, .mirror [(0, [], false)], .mirror [(1, [], false)],
    .registerMessage (2 ^ 32) 0#32, .sequenceMessage (.fetch (2 ^ 40) 0#32), .sequenceMessage (.dataLate 256 0 []),
    .sequenceMessage (.pageStart 0 0#48 ⟨0, 1000000000, 0⟩), .timeMessage ⟨2 ^ 48, 0, 0⟩, .timeMessage ⟨0, 0, 2 ^ 32⟩,
    .repairRequest 1 [], .repairAnswer 0 (some []), .rallyRecord ⟨0, 0, 0#32, List.replicate 65 0#32, false⟩,
    .resyncData (.storeRegion 64 []), .resyncData (.register (2 ^ 32) 0#32 0#32), .trainingFrame ⟨0, [], 0#8⟩, .flit [],
    .linkLoss 3, .hostAdaptTimeout 0 256, .arpRequest 0 0#48 (2 ^ 32) 0, .neighbourSolicitation 0 0#48 0 (2 ^ 128),
    .echoRequest 0 host (2 ^ 128) [], .sync ⟨0, 4, 0, 0, 0, 0, ⟨0, 0, 0⟩, ⟨0, 0, 0⟩, false⟩,
    .announce ⟨0, 0, 256, 0, 0, 0, 0, 0, 0, 0, 0⟩, .tempPoll 0 3#2, .sweeperRead [0#8], .sramSweepRead 0 (.other 71) none,
    .queueReset 71, .stokerLoadWindow 101, .serviceRead [], .serviceWrite [], .badCommand [],
    .serviceIncomplete (List.replicate 10 0#8), .blockLock 0 256 false] : List Instr), i.wf = false := by decide +kernel

theorem test_wellformed_takes : ∀ i ∈ ([
    .registerWrite .service (2 ^ 32 - 1) 0#32, .doorbellRing .service [(64, .corrected)], .ack (plain host []),
    .nztWrite .service (2 ^ 18 - 1) 0#32, .pwmPeriod 0 2047 (-2048) 0 0, .hello ⟨1, 8, false, 1, 1000⟩, .heartbeat ⟨8, 0#8, 0#32⟩,
    .fatalFault 5, .timeMessage ⟨2 ^ 48 - 1, 999999999, 2 ^ 32 - 1⟩, .repairAnswer 64 (some (List.replicate 64 0#8)),
    .sweeperRead (List.replicate 80 0#8), .queueReset 70, .serviceRead (List.replicate 6 0#8)] : List Instr), i.wf = true := by
  decide +kernel

/-! ### Values that the spec works out -/

/-- Table 97: the check values over "123456789" and the results of nothing. -/
theorem test_crc_units :
    let digits : Bytes := [0x31#8, 0x32#8, 0x33#8, 0x34#8, 0x35#8, 0x36#8, 0x37#8, 0x38#8, 0x39#8]
    let run := fun (algo : Nat) (bs : Bytes) => crcResult algo (crcTake algo (crcInit algo) bs)
    (List.range 4).map (fun a => run a digits) = [0xCBF43926, 0xE3069283, 0x29B1, 0x6C40DF5F0B497347] ∧
    (List.range 4).map (fun a => run a []) = [0, 0, 0xFFFF, 0] := by decide +kernel

/-- The worked example of chapter 1 (R34): event 36,433 of a page that starts at 2,000,000 counts, pitch 693,589/65,536. -/
theorem test_threshold : threshold 2000000 693589 36433 = 2385583 := by decide +kernel

/-- The example of R460: a firing count, its code, and what that reads back as. -/
theorem test_count_code : countCode 1000000000 = 0x5373 ∧ codeCount 0x5373 = 999817216 := by decide +kernel

/-- The worked example of chapter 4 (Table 32): the charges of a Deflate strip of colour and of one of black. -/
theorem test_charges :
    let h : StripHdr := ⟨0, 256, 0, 1, 0, 0, 0, 0, 0, 0, 0, 1, 0, 0⟩
    let c := chargeOf 0 { h with decoded := 8142848, comp := 1017856, symbols := 2000000 } 0 512 false
    let k := chargeOf 0 { h with decoded := 16285696, comp := 1600000, symbols := 1600000 } 0 256 false
    (c.engine, c.memory) = (2633928, 17303552) ∧ (k.engine, k.memory) = (2717856, 34171392) := by decide +kernel

/-- The worked example of chapter 17: GLB_ID read over the service port, the request's Crc and the six bytes of the answer. -/
theorem test_service_glb_id :
    crc8 [1#8, 0#8, 0#8, 0#8, 0#8] = 0x62 ∧
    (match exec (.serviceRead [1#8, 0#8, 0#8, 0#8, 0#8, 0x62#8]) (dev up) with | .next s => s.dev.out | _ => []) =
      [.service [0#8, 0x53#8, 0x46#8, 0x02#8, 0x62#8, 0x3E#8]] := by decide +kernel

/-- The worked example of chapter 12: t1 to t4 in 1/10 ns give an offset of 98.4 ns and a path delay of 1,112.8 ns, the
registers their whole ns. -/
theorem test_ptp_exchange :
    let ns := fun (t : Int) => t * 65536 / 10
    let e : Exchange := ⟨4, some 0, ns 12112, 0, some 5, ns 5010256, none⟩
    let d := (ptpUp.wr Fld.TIME_PTPCTRL.HostServo 1).setPtp { ptpUp.time.ptp with chosen := some (9, 0), exch := some e }
    (match exec (.delayResp ⟨0, 1, 0, 5, 9, 0, ⟨0, 0, 0⟩, ⟨0, 502040, 0⟩, false⟩) (dev d) with
      | .next s => (s.dev.rd Fld.TIME_OFFSET.Ns, s.dev.rd Fld.TIME_PATHDLY.Ns) | _ => (0, 0)) = (98, 1112) := by decide +kernel

/-- R64, R17: JOB_CTRL.Start from reset's Idle begins the chain, and a second Start is ignored with its sticky bit set. -/
theorem test_start_twice :
    (match step { dev up with pending := [.jobStart .service] } with
      | .next s => (match step { s with pending := [.jobStart .service] } with
        | .next t => (decide (s.dev.job.seq = .following), s.dev.rd Fld.JOB_ERR.StartIgnored, t.dev.rd Fld.JOB_ERR.StartIgnored)
        | _ => (false, 0, 0))
      | _ => (false, 0, 0)) = (true, 0, 1) := by decide +kernel

end Sys2Proof.Tests
end

section
/-!
SUPPORT. The retirement of a page that may retire, with no cancelled page behind it (R69).
-/
namespace Sys2Proof.Machine

@[simp] theorem setJob_job (d : Dev) (f : JobSt → JobSt) : (d.setJob f).job = f d.job := rfl
@[simp] theorem setJob_pair (d : Dev) (f : JobSt → JobSt) : (d.setJob f).pair = d.pair := rfl

/-- R69: the device with the registers and counters that a page's retirement sets; `retirePage_eq` ties it to the model. -/
def Dev.countRetired (d : Dev) (p : Page) : Dev :=
  let e := (((d.wr Fld.JOB_RETPAGE.PageId p.pageId.toNat).wr Fld.JOB_RETGEN.Generation p.generation.toNat).wr
    Fld.JOB_RETSTAT.Status p.status.toNat).bump Fld.JOB_PAGECNT.Count
  if p.status.toNat.testBit 0 then e.bump Fld.JOB_FLAGCNT.Count else e

theorem countRetired_job (d : Dev) (p : Page) : (d.countRetired p).job = d.job := by
  unfold Dev.countRetired; split <;> rfl

theorem countRetired_pair (d : Dev) (p : Page) : (d.countRetired p).pair = d.pair := by
  unfold Dev.countRetired; split <;> rfl

theorem countRetired_isKeeper (d : Dev) (p : Page) : (d.countRetired p).isKeeper = d.isKeeper := by
  simp only [Dev.isKeeper, countRetired_pair]

/-- R115: the items of a page-end notice. -/
def Page.endItems (p : Page) : List (Nat × Nat × Nat) :=
  let t : TimeStamp := p.startTime.getD ⟨0, 0, 0⟩
  [(0, 4, p.pageId.toNat), (4, 4, p.generation.toNat), (8, 2, p.status.toNat), (12, 6, t.sec), (18, 4, t.ns)]

/-- R69, R341: a page leaves the chain by its key, is counted, and a striker gives notice of its end. -/
theorem retirePage_eq (d : Dev) (p : Page) :
    d.retirePage p =
      let e := (d.setJob (fun j => { j with pages := j.pages.filter (fun q => q.key != p.key) })).countRetired p
      if d.isKeeper then e else e.noticeAt Nt.PageEnd p.endItems := by
  have hk := countRetired_isKeeper (d.setJob (fun j => { j with pages := j.pages.filter (fun q => q.key != p.key) })) p
  rw [Dev.isKeeper, Dev.isKeeper, setJob_pair] at hk
  rw [Dev.isKeeper, ← hk]
  rfl

/-- A retirement changes nothing of the sequencer but the chain, which loses the pages of the retired page's key. -/
theorem retirePage_job (d : Dev) (p : Page) :
    (d.retirePage p).job = { d.job with pages := d.job.pages.filter (fun q => q.key != p.key) } := by
  rw [retirePage_eq]
  split
  · rw [countRetired_job, setJob_job]
  · rw [noticeAt_job, countRetired_job, setJob_job]

/-- Where no page behind the oldest one has its key, the chain without that key is the pages behind it. -/
theorem filter_key_of_distinct {p : Page} {rest : List Page} (h : ∀ q ∈ rest, q.key ≠ p.key) :
    (p :: rest).filter (fun q => q.key != p.key) = rest := by
  rw [List.filter_cons_of_neg (by simp), List.filter_eq_self]
  exact fun q hq => bne_iff_ne.2 (h q hq)

/-- R65: a sequencer that is not stopping stays as it is. -/
theorem settleStop_of_ne_stopping {d : Dev} (h : d.job.seq ≠ .stopping) : d.settleStop = d :=
  if_neg fun hs => h hs.1

/-- R69: the oldest page that may retire does so, where it is not cancelled and the sequencer is not stopping. -/
theorem retireOldest_of_mayRetire {d : Dev} {p : Page} {rest : List Page} (hp : d.job.pages = p :: rest)
    (hc : p.cancelled = false) (hm : d.mayRetire p = true) (hs : d.job.seq ≠ .stopping) :
    d.retireOldest = d.retirePage p := by
  have hs' : (d.retirePage p).job.seq ≠ .stopping := by rw [retirePage_job]; exact hs
  simp only [Dev.retireOldest, hp, hm, hc, if_true, Bool.false_eq_true, if_false, settleStop_of_ne_stopping hs']

/-- R69: with no cancelled page at the head of what is left, the command retires the oldest page alone. -/
theorem pageRetire_of_head_kept {d : Dev} (h : ∀ q ∈ d.retireOldest.job.pages.head?, q.cancelled = false) :
    d.pageRetire = d.retireOldest := by
  unfold Dev.pageRetire
  cases hp : d.retireOldest.job.pages with
  | nil => simp only [hp]
  | cons q rest =>
    have hq : q.cancelled = false := h q (by rw [hp]; rfl)
    simp only [hp, hq, Bool.false_eq_true, if_false]

end Sys2Proof.Machine
end

section
open Sys2Proof Sys2Proof.Machine

/-- Settles O13: the page behind the oldest one is not cancelled, so the oldest retires alone, and the key it leaves the
chain by names no other page. -/
theorem pageRetireReports : Obligations.PageRetireReports := by
  intro s p rest hrun hpages hp hrest hmay hseq
  have hfilter := filter_key_of_distinct fun q hq => (hrest q hq).2
  have hone := retireOldest_of_mayRetire hpages hp hmay hseq
  have hhead : ∀ q ∈ s.dev.retireOldest.job.pages.head?, q.cancelled = false := by
    rw [hone, retirePage_job, hpages, hfilter]
    exact fun q hq => (hrest q (List.mem_of_mem_head? hq)).1
  have hset : s.dev.setJob (fun j => { j with pages := j.pages.filter (fun q => q.key != p.key) }) =
      s.dev.setJob (fun j => { j with pages := rest }) := by
    simp only [Dev.setJob, hpages, hfilter]
  refine completes_dev hrun rfl ?_
  rw [pageRetire_of_head_kept hhead, hone, retirePage_eq, hset]
  rfl

end

section
/-!
SUPPORT. A message of the Oaxia job protocol that its session performs as it arrives (R82 to R102).
-/
namespace Sys2Proof.Machine

theorem lt_of_session_eq_some {d : Dev} {i : Nat} {x : Session} (h : d.session i = some x) : i < 16 := by
  by_contra hi
  simp [Dev.session, vgetD, hi] at h

/-- R96: no number is before itself. -/
@[simp] theorem seqBefore_self (n : Nat) : seqBefore n n = false := by simp [seqBefore]

/-- Keepalive is not sequenced (R88). -/
theorem ne_keepalive_of_sequenced {kind : Nat} (hk : sequencedKind kind = true) : kind ≠ 0x06 := by
  rintro rfl; exact absurd hk (by decide)

/-- Open is not sequenced (R88). -/
theorem ne_open_of_sequenced {kind : Nat} (hk : sequencedKind kind = true) : kind ≠ 0x01 := by
  rintro rfl; exact absurd hk (by decide)

/-- R82 to R87, R119: a message that a session takes passes the checks of its header and is delivered. -/
theorem receiveMsg_of_taken {s : State} {kind : Nat} {g : OjpMsg} {i : Nat} {x : Session} (h : Taken s kind g i x)
    (hk : sequencedKind kind = true) (c : Instr) :
    receiveMsg s.dev s.mem kind g c = receiveIn (s.dev.frameIn g.port.val) s.mem i x kind g := by
  have haddr : (g.atPair && !(s.dev.frameIn g.port.val).usesPair) = false := by
    cases hp : g.atPair with
    | false => rfl
    | true => simp [h.address hp]
  simp [receiveMsg, takeMsg, deliverMsg, Nat.not_lt.2 h.frame, haddr, h.ready, h.path, h.sound, h.host, h.named,
    ne_open_of_sequenced hk]

/-- R97, R111: a sequenced message that passes its session's length and authentication meets the order of its session. -/
theorem receiveIn_of_taken {s : State} {kind : Nat} {g : OjpMsg} {i : Nat} {x y : Session} (h : Taken s kind g i x)
    (hk : sequencedKind kind = true) (hy : (s.dev.heard i x g).session i = some y) :
    receiveIn (s.dev.frameIn g.port.val) s.mem i x kind g = receiveSequenced (s.dev.heard i x g) s.mem i y kind g := by
  have hy' : (((s.dev.frameIn g.port.val).followPath i x g).hostAck i g).session i = some y := hy
  simp [receiveIn, Nat.not_lt.2 h.size, h.genuine, hk, hy', ne_keepalive_of_sequenced hk, Dev.heard]

section
variable {d : Dev} {kind : Nat} {g : OjpMsg} {i : Nat} {y : Session}

/-- R97: a message in its turn is held at AckSeq and the session goes on. -/
theorem receiveSequenced_inTurn (h : InTurn d kind g i y) (m : Mem) :
    receiveSequenced d m i y kind g = sessionGoesOn (d.performing i y kind g, m) i := by
  simp [receiveSequenced, h.next, h.alone, Dev.performing, Session.holding]

theorem performing_session (h : InTurn d kind g i y) :
    (d.performing i y kind g).session i = some (y.holding kind g) :=
  session_setSession_same d (lt_of_session_eq_some h.isOpen) _

/-- R97: the message in its turn is the one its session performs next. -/
theorem performing_nextHeld (h : InTurn d kind g i y) :
    (d.performing i y kind g).nextHeld i = some (y.holding kind g, ⟨kind, g⟩) := by
  have hm : (d.performing i y kind g).pair.mirrors.any (fun x => x.session == i) = false := by
    change d.pair.mirrors.any _ = false
    simpa using h.settled
  simp [Dev.nextHeld, performing_session h, hm, Session.holding, h.next]

/-- The session's authentication is the same while it holds the message. -/
theorem performing_authentic (h : InTurn d kind g i y) :
    (d.performing i y kind g).authentic (y.holding kind g) kind g = true := h.genuine

end

/-- R97, R102: a session performs its next message where the stoker and the domains that messages need all run. -/
theorem performHeld_succ {i k : Nat} {x : Dev × Mem} {y : Session} {h : HeldMsg} (hn : x.1.nextHeld i = some (y, h))
    (hs : x.1.stokerRuns = true) (hd : x.1.domOn 1 = true) (hm : x.1.memRuns = true) :
    performHeld i (k + 1) x = performHeld i k (performMsg x.1 x.2 i y h) := by
  simp [performHeld, hn, hs, hd, hm]

/-- R97: the session performs the message in its turn, and then holds none that it could go on with. -/
theorem sessionGoesOn_inTurn {d : Dev} {kind : Nat} {g : OjpMsg} {i : Nat} {y : Session} (h : InTurn d kind g i y) (m : Mem) :
    sessionGoesOn (d.performing i y kind g, m) i =
      performMsg (d.performing i y kind g) m i (y.holding kind g) ⟨kind, g⟩ := by
  rw [sessionGoesOn, performing_session h]
  exact performHeld_succ (performing_nextHeld h) h.stoker.1 h.stoker.2 h.memory

/-- R97, R98: the command of a sequenced message in its turn comes to what performing the message comes to. -/
theorem completes_inTurn {c : Instr} {s : State} {kind : Nat} {g : OjpMsg} {i : Nat} {x y : Session} {e : Dev} {m : Mem}
    (hc : exec c s = live s (fun d m => receiveMsg d m kind g c)) (hk : sequencedKind kind = true)
    (ht : Taken s kind g i x) (hi : InTurn (s.dev.heard i x g) kind g i y)
    (hp : performMsg ((s.dev.heard i x g).performing i y kind g) s.mem i (y.holding kind g) ⟨kind, g⟩ = (e, m)) :
    Completes c s e m := by
  refine completes_live ht.runs hc ?_
  calc receiveMsg s.dev s.mem kind g c
      = receiveIn (s.dev.frameIn g.port.val) s.mem i x kind g := receiveMsg_of_taken ht hk c
    _ = receiveSequenced (s.dev.heard i x g) s.mem i y kind g := receiveIn_of_taken ht hk hi.isOpen
    _ = sessionGoesOn ((s.dev.heard i x g).performing i y kind g, s.mem) i := receiveSequenced_inTurn hi s.mem
    _ = performMsg ((s.dev.heard i x g).performing i y kind g) s.mem i (y.holding kind g) ⟨kind, g⟩ :=
      sessionGoesOn_inTurn hi s.mem
    _ = (e, m) := hp

end Sys2Proof.Machine
end

section
/-!
SUPPORT. What performing a Close, a Doorbell and a RegWrite comes to (R93, R106, R108).
-/
namespace Sys2Proof.Machine

section
variable {d : Dev} {m : Mem} {i : Nat} {y : Session} {g : OjpMsg}

/-! ### Which message is performed -/

theorem performMsg_close (h : d.authentic y 0x03 g = true) : performMsg d m i y ⟨0x03, g⟩ = (d.performClose i y g, m) := by
  simp [performMsg, h]

theorem performMsg_doorbell (h : d.authentic y 0x12 g = true) :
    performMsg d m i y ⟨0x12, g⟩ = (d.performDoorbell m i g, m) := by
  simp [performMsg, h]

theorem performMsg_regWrite (h : d.authentic y 0x20 g = true) : performMsg d m i y ⟨0x20, g⟩ = performRegWrite d m i g := by
  simp [performMsg, h]

/-! ### Close (R93) -/

theorem performClose_of_empty (h : g.body = []) :
    d.performClose i y g = ((d.consume i).transmit i y.consumed 0x05 0 []).freeSession i :=
  if_neg (not_not.2 h)

theorem performClose_of_body (h : g.body ≠ []) : d.performClose i y g = (d.consume i).result i g.seq.toNat 9 0 0 :=
  if_pos h

/-! ### Doorbell (R106) -/

theorem performDoorbell_of_empty (h : g.body = []) (hk : d.isKeeper = false) :
    d.performDoorbell m i g = (d.ring m g.finds).consume i := by
  simp [Dev.performDoorbell, Dev.doorbellFail, Dev.notStriker, h, hk]

theorem performDoorbell_of_body (h : g.body ≠ []) : d.performDoorbell m i g = (d.consume i).result i g.seq.toNat 9 0 0 := by
  simp [Dev.performDoorbell, Dev.doorbellFail, h]

/-! ### RegWrite (R108) -/

theorem performRegWrite_of_malformed (h : g.body.length ≠ 4 + 8 * beAt g.body 0 2 ∨ beAt g.body 2 2 ≠ 0) :
    performRegWrite d m i g = ((d.consume i).result i g.seq.toNat 9 0 0, m) :=
  if_pos h

/-- R108: a RegWrite's run over its entries, from the device and the store it finds. -/
def writeEntries (d : Dev) (m : Mem) (g : OjpMsg) : WriteRun :=
  (List.range (beAt g.body 0 2)).foldl (writeEntry g) ⟨d, m, 0, none⟩

/-- A RegWrite with a sound body of at most 1024 entries. -/
structure SoundRegWrite (g : OjpMsg) : Prop where
  length : g.body.length = 4 + 8 * beAt g.body 0 2
  reserved : beAt g.body 2 2 = 0
  count : beAt g.body 0 2 ≤ 1024

theorem SoundRegWrite.not_malformed (h : SoundRegWrite g) :
    ¬ (g.body.length ≠ 4 + 8 * beAt g.body 0 2 ∨ beAt g.body 2 2 ≠ 0) :=
  not_or.2 ⟨not_not.2 h.length, not_not.2 h.reserved⟩

/-- R108: with every entry written, the message consumes its number and has no Result. -/
theorem performRegWrite_of_all_written (h : SoundRegWrite g) (hf : (writeEntries d m g).first = none) :
    performRegWrite d m i g = ((writeEntries d m g).dev.consume i, (writeEntries d m g).mem) := by
  simp only [writeEntries] at hf ⊢
  simp only [performRegWrite, if_neg h.not_malformed, if_neg (Nat.not_lt.2 h.count), hf]

/-- R108, R110: where an entry failed, one Result names the first that did and how many. -/
theorem performRegWrite_of_some_failed {k st : Nat} (h : SoundRegWrite g)
    (hf : (writeEntries d m g).first = some (k, st)) :
    performRegWrite d m i g =
      (((writeEntries d m g).dev.consume i).result i g.seq.toNat (windowStatus st) k (writeEntries d m g).fails,
        (writeEntries d m g).mem) := by
  simp only [writeEntries] at hf ⊢
  simp only [performRegWrite, if_neg h.not_malformed, if_neg (Nat.not_lt.2 h.count), hf]

end

end Sys2Proof.Machine
end

section
open Sys2Proof Sys2Proof.Machine

/-- Settles O17: each message is the one its session performs as it arrives, and each clause is a case of performing it. -/
theorem ojpControlMessages : Obligations.OjpControlMessages := by
  intro s g i x y
  refine ⟨fun ht hi => ?close, fun ht hi => ?doorbell, fun ht hi => ?regWrite⟩
  case close =>
    have hp := performMsg_close (performing_authentic hi) (m := s.mem) (i := i)
    exact ⟨fun hb => completes_inTurn rfl rfl ht hi (by rw [hp, performClose_of_empty hb]),
      fun hb => completes_inTurn rfl rfl ht hi (by rw [hp, performClose_of_body hb])⟩
  case doorbell =>
    have hp := performMsg_doorbell (performing_authentic hi) (m := s.mem) (i := i)
    exact ⟨fun hb hk => completes_inTurn rfl rfl ht hi (by rw [hp, performDoorbell_of_empty hb hk]),
      fun hb => completes_inTurn rfl rfl ht hi (by rw [hp, performDoorbell_of_body hb])⟩
  case regWrite =>
    have hp := performMsg_regWrite (performing_authentic hi) (m := s.mem) (i := i)
    refine ⟨fun hl hz hn => ⟨fun hf => ?_, fun k st hf => ?_⟩, fun hb => ?_⟩
    · exact completes_inTurn rfl rfl ht hi (hp.trans (performRegWrite_of_all_written ⟨hl, hz, hn⟩ hf))
    · exact completes_inTurn rfl rfl ht hi (hp.trans (performRegWrite_of_some_failed ⟨hl, hz, hn⟩ hf))
    · exact completes_inTurn rfl rfl ht hi (hp.trans (performRegWrite_of_malformed hb))

end

section
/-!
SUPPORT. A write of an NZT word (R164, R169, R174): the address of a nozzle's word, what becomes of the pending states, and
what a write comes to once a path brings it.
-/
namespace Sys2Proof.Machine

/-! ### The address of a nozzle's word (R164) -/

theorem maxNozzle_lt (p : Part) : p.maxNozzle < 2 ^ 18 := by cases p <;> decide

theorem isNzt_wordAddr {z : Nat} (h : z < 2 ^ 18) : isNzt (0x01000000 + 4 * z) = true := by
  rw [isNzt, decide_eq_true_eq]; omega

@[simp] theorem nztNozzle_wordAddr (z : Nat) : nztNozzle (0x01000000 + 4 * z) = z := by rw [nztNozzle]; omega

theorem holdsRegister_of_isNzt {a : Nat} (p : Part) (h : isNzt a = true) : holdsRegister p a = true := by
  simp [holdsRegister, h]

/-- R4, R164, R262: a part keeps what is written to the words of its own nozzles. -/
theorem silentRegister_nozzle {p : Part} {z : Nat} (h : z ≤ p.maxNozzle) :
    silentRegister p (0x01000000 + 4 * z) = false := by
  cases p with
  | sn262 => rfl
  | sn131 =>
    have hz : z ≤ 131071 := h
    have hb : (0x01000000 + 4 * z) / 0x10000 ≠ 7 := by omega
    have ha : ∀ b, b < 0x01000000 → 0x01000000 + 4 * z ≠ b := by omega
    simp [silentRegister, hb, hz, ha Adr.HP_ECHOERRHI (by decide), ha Adr.HP_DSKDONEHI (by decide),
      ha Adr.HP_DSKPASSHI (by decide)]

/-- R18: State, Gain and Offset fill the low 18 bits of an NZT word, so a value within them sets no reserved bit. -/
theorem reservedBits_nzt {d : Dev} {a : Nat} {v : Word} (ha : isNzt a = true) (hv : v.toNat < 2 ^ 18) :
    d.reservedBits a v = (d, v) := by
  have hm : v.toNat &&& 0x3FFFF = v.toNat := by
    rw [show 0x3FFFF = 2 ^ 18 - 1 from rfl, Nat.and_two_pow_sub_one_eq_mod, Nat.mod_eq_of_lt hv]
  simp [Dev.reservedBits, definedBits, ha, hm]

/-! ### Pending states (R173, R174) -/

@[simp] theorem wake_ras (d : Dev) (k x : Nat) : (d.wake k x).ras = d.ras := by
  rcases wake_cases d k x with h | ⟨y, h⟩ | h <;> rw [h] <;> rfl

@[simp] theorem touchTables_ras (d : Dev) : d.touchTables.ras = d.ras := wake_ras ..
@[simp] theorem touchTables_part (d : Dev) : d.touchTables.part = d.part := wake_part ..

theorem pendingState_congr {d e : Dev} (h : e.ras.pendingMap = d.ras.pendingMap) (z : Nat) :
    e.pendingState z = d.pendingState z := by
  rw [Dev.pendingState, h]; rfl

/-- R175: adopting the pending states leaves them pending as they are. -/
@[simp] theorem adopt_pendingMap (d : Dev) (n : Nat) : (d.adopt n).ras.pendingMap = d.ras.pendingMap := by
  unfold Dev.adopt
  extract_lets _ _ _ _ _ _ _ unc e
  have he : e.ras.pendingMap = d.ras.pendingMap := rfl
  clear_value e unc
  cases unc with
  | nil => exact he
  | cons z zs => simpa using he

/-- R173: a change of a nozzle's state is a change of the pending map at that nozzle, whenever it is adopted. -/
theorem setNozzleState_pendingMap {d : Dev} {z : Nat} {st : BitVec 2} (source : Nat) (h : d.pendingState z ≠ st) :
    (d.setNozzleState z st source).ras.pendingMap = spPut 0#2 z st d.ras.pendingMap := by
  rw [Dev.setNozzleState, if_neg h]
  extract_lets e
  split
  · rfl
  · extract_lets x
    split
    · exact adopt_pendingMap ..
    · rfl

theorem setNozzleState_of_eq {d : Dev} {z : Nat} {st : BitVec 2} (source : Nat) (h : d.pendingState z = st) :
    d.setNozzleState z st source = d := if_pos h

theorem pendingState_setNozzleState_same (d : Dev) (z : Nat) (st : BitVec 2) (source : Nat) :
    (d.setNozzleState z st source).pendingState z = st := by
  by_cases h : d.pendingState z = st
  · rw [setNozzleState_of_eq source h, h]
  · rw [Dev.pendingState, setNozzleState_pendingMap source h, spGet_spPut_same]

theorem pendingState_setNozzleState_ne (d : Dev) {y z : Nat} (st : BitVec 2) (source : Nat) (hy : y ≠ z) :
    (d.setNozzleState z st source).pendingState y = d.pendingState y := by
  by_cases h : d.pendingState z = st
  · rw [setNozzleState_of_eq source h]
  · rw [Dev.pendingState, setNozzleState_pendingMap source h, spGet_spPut_ne _ _ _ hy]; rfl

/-- R174: the nozzle's pending state is what bits 17:16 of the word say. -/
theorem pendingState_nztState_same (d : Dev) (z : Nat) (v : Word) (source : Nat) :
    (d.nztState z v source).pendingState z = BitVec.ofNat 2 (v.toNat / 65536) := by
  rw [Dev.nztState, pendingState_setNozzleState_same, bitsOf_eq]
  exact BitVec.eq_of_toNat_eq (by simp)

theorem pendingState_nztState_ne (d : Dev) {y z : Nat} (v : Word) (source : Nat) (hy : y ≠ z) :
    (d.nztState z v source).pendingState y = d.pendingState y := by
  rw [Dev.nztState, pendingState_setNozzleState_ne _ _ _ hy]
  exact pendingState_congr rfl y

/-! ### Gain and Offset (R164, R169) -/

section
variable {d : Dev} {z : Nat} {v : Word} {source : Nat}

/-- Gain and Offset reach the shadow copy while the plane's correction set is not pending. -/
theorem nztPut_of_free (hz : z ≤ d.part.maxNozzle) (h : (d.nztState z v source).corrBusy (z / 4096) = false) :
    d.nztPut z v source =
      ((d.nztState z v source).setReg (0x01000000 + 4 * z) (BitVec.ofNat 32 (v.toNat % 65536)), false) := by
  simp [Dev.nztPut, Nat.not_lt.2 hz, h]

/-- R169: while it is pending, they are discarded and reported. -/
theorem nztPut_of_busy (hz : z ≤ d.part.maxNozzle) (h : (d.nztState z v source).corrBusy (z / 4096) = true) :
    d.nztPut z v source = ((d.nztState z v source).corrDiscard (0x01000000 + 4 * z), true) := by
  simp [Dev.nztPut, Nat.not_lt.2 hz, h]

end

/-! ### A write that a path brings -/

theorem keeperBars_congr {d e : Dev} (h : e.pair = d.pair) (path : Path) (a : Nat) (v : Word) :
    e.keeperBars path a v = d.keeperBars path a v := by
  rw [Dev.keeperBars, isKeeper_congr h]; rfl

/-- R449: only configuration writes what is in force along with the shadow copy. -/
theorem alsoInForce_of_ne_config (d : Dev) {path : Path} (a : Nat) (h : path ≠ .config) : d.alsoInForce path a = d :=
  if_neg fun hc => h hc.1

/-- R164, R174: a write of the word of a nozzle that the part has, by a path that is not the configuration, gives the
pending state and, where the set is free, Gain and Offset. -/
theorem windowWrite_nozzle {d : Dev} {m : Mem} {path : Path} {finds : Finds} {z : Nat} {v : Word}
    (hz : z ≤ d.part.maxNozzle) (hv : v.toNat < 2 ^ 18) (hk : d.keeperBars path (0x01000000 + 4 * z) v = false)
    (hc : path ≠ .config) :
    windowWrite d m path finds (0x01000000 + 4 * z) v =
      (stOk, ((d.mirrorWrite path (0x01000000 + 4 * z) v).touchTables.nztPut z v (stateSource path)).1, m) := by
  have hn := isNzt_wordAddr (Nat.lt_of_le_of_lt hz (maxNozzle_lt d.part))
  have ha : (0x01000000 + 4 * z) % 4 = 0 := by omega
  simp [windowWrite, ha, holdsRegister_of_isNzt d.part hn, silentRegister_nozzle hz, reservedBits_nzt hn hv, hk, hn, hc,
    alsoInForce_of_ne_config, Dev.tablePut]

/-- The same for a write that a path brings now. -/
theorem writeAccess_nozzle {s : State} {path : Path} {finds : Finds} {z : Nat} {v : Word} (hz : z ≤ s.dev.part.maxNozzle)
    (hv : v.toNat < 2 ^ 18) (h : Reaches s path (0x01000000 + 4 * z) v) :
    writeAccess path finds (0x01000000 + 4 * z) v s.dev s.mem =
      (((s.dev.met path (0x01000000 + 4 * z) v).touchTables.nztPut z v (stateSource path)).1, s.mem) := by
  obtain ⟨-, ho, hw, hk⟩ := h
  rw [writeAccess_open ho hw, windowWrite_nozzle ?part hv ?barred (pathOpen_ne_config ho)]
  case part => split <;> simpa using hz
  case barred => rw [← hk]; exact keeperBars_congr (by split <;> simp) ..
  rfl

theorem exec_nztWrite (path : Path) (z : Nat) (v : Word) (s : State) :
    exec (.nztWrite path z v) s =
      live s (fun d m => if z < 2 ^ 18 then writeAccess path [] (0x01000000 + 4 * z) v d m else (d, m)) := rfl

/-- R164, R174: NZT_WRITE completes with the write of the nozzle's word. -/
theorem completes_nztWrite {s : State} {path : Path} {z : Nat} {v : Word} (hz : z ≤ s.dev.part.maxNozzle)
    (hv : v.toNat < 2 ^ 18) (h : Reaches s path (0x01000000 + 4 * z) v) :
    Completes (.nztWrite path z v) s
      ((s.dev.met path (0x01000000 + 4 * z) v).touchTables.nztPut z v (stateSource path)).1 s.mem := by
  have hx : z < 2 ^ 18 := Nat.lt_of_le_of_lt hz (maxNozzle_lt s.dev.part)
  exact completes_live h.1 (exec_nztWrite ..) (by rw [if_pos hx, writeAccess_nozzle hz hv h])

end Sys2Proof.Machine
end

section
open Sys2Proof Sys2Proof.Machine

/-- Settles O30: the write's state part is a change of the pending map at its nozzle alone, and its correction part is
stored or discarded as `nztPut` finds the plane's set.  That the word is written at once while RASTER sleeps is the model's
choice (log 89). -/
theorem nozzleWordWrite : Obligations.NozzleWordWrite := by
  intro s path z v hz hv a hr t
  have hc := completes_nztWrite hz hv hr
  have hp : z ≤ (s.dev.met path a v).touchTables.part.maxNozzle := by simpa using hz
  refine ⟨pendingState_nztState_same .., fun y hy => ?others, fun hf => ?free, fun hb => ?busy⟩
  case others =>
    rw [pendingState_nztState_ne _ _ _ hy]
    exact pendingState_congr (by simp) y
  case free => rwa [nztPut_of_free hp hf] at hc
  case busy => rwa [nztPut_of_busy hp hb] at hc

end

section
/-!
SUPPORT. The sticky clear (R475), the write of TRB_RECACK and the capture of the trouble record (R484).
-/
namespace Sys2Proof.Machine

/-! ### A word without the bits of a mask -/

/-- Taking away the part of a number that a mask selects clears the bits of the mask: no bit borrows from another. -/
theorem testBit_sub_and (i : Nat) : ∀ w m : Nat, (w - (w &&& m)).testBit i = (w.testBit i && !m.testBit i) := by
  induction i with
  | zero =>
    intro w m
    have hle : w &&& m ≤ w := Nat.and_le_left
    have hbit := Nat.and_mod_two_eq_one (a := w) (b := m)
    simp only [Nat.testBit_zero, ← Bool.decide_and, ← decide_not, decide_eq_decide]
    omega
  | succ i ih =>
    intro w m
    have hle : w &&& m ≤ w := Nat.and_le_left
    have hbit := Nat.and_mod_two_eq_one (a := w) (b := m)
    have hhalf : (w - (w &&& m)) / 2 = w / 2 - (w / 2 &&& m / 2) := by
      rw [← Nat.and_div_two]; omega
    simp only [Nat.testBit_succ, hhalf, ih]

/-! ### The sticky clear -/

section
variable (d : Dev) (a mask : Nat)

theorem clearSticky_eq_win : d.clearSticky a mask = { d with win := (d.clearSticky a mask).win } := by
  unfold Dev.clearSticky
  extract_lets w m
  split <;> rfl

theorem clearSticky_reg_ne {b : Nat} (h : b ≠ a) : (d.clearSticky a mask).reg b = d.reg b := by
  unfold Dev.clearSticky
  extract_lets w m
  split
  · rfl
  · exact reg_setReg_ne _ _ h

/-- R475: the register named loses the bits that the mask and its RWS bits share. -/
theorem clearSticky_reg_same : ((d.clearSticky a mask).reg a).toNat =
    (d.reg a).toNat - ((d.reg a).toNat &&& (mask &&& rwsMask a)) := by
  unfold Dev.clearSticky
  extract_lets w m
  split
  case isTrue h => simp [show mask &&& rwsMask a = 0 from h]
  case isFalse =>
    have hfit : w - (w &&& m) < 2 ^ 32 := Nat.lt_of_le_of_lt (Nat.sub_le ..) (d.reg a).isLt
    rw [reg_setReg_same, BitVec.toNat_ofNat, Nat.mod_eq_of_lt hfit]

theorem testBit_clearSticky (i : Nat) : ((d.clearSticky a mask).reg a).toNat.testBit i =
    ((d.reg a).toNat.testBit i && !(mask.testBit i && (rwsMask a).testBit i)) := by
  rw [clearSticky_reg_same, testBit_sub_and, Nat.testBit_and]

end

/-- R475: nothing is cleared where TRB_CLRADDR names no register. -/
theorem clearNamed_of_no_register {d : Dev} (mask : Nat)
    (h : holdsRegister d.part (d.rd Fld.TRB_CLRADDR.Addr * 4) = false) : d.clearNamed mask = d := by
  simp [Dev.clearNamed, h]

theorem clearNamed_of_register {d : Dev} (mask : Nat)
    (hh : holdsRegister d.part (d.rd Fld.TRB_CLRADDR.Addr * 4) = true)
    (hs : silentRegister d.part (d.rd Fld.TRB_CLRADDR.Addr * 4) = false) :
    d.clearNamed mask = d.clearSticky (d.rd Fld.TRB_CLRADDR.Addr * 4) mask := by
  simp [Dev.clearNamed, hh, hs]

theorem completes_stickyClear {s : State} {path : Path} {mask : Word} (h : Reaches s path Adr.TRB_CLRMASK mask) :
    Completes (.stickyClear path mask) s ((s.dev.met path Adr.TRB_CLRMASK mask).clearNamed mask.toNat) s.mem :=
  completes_live h.1 rfl (write_TRB_CLRMASK h)

/-! ### The acknowledgement of the trouble record -/

@[simp] theorem keepReg_rep (d : Dev) (a : Nat) (w : Word) : (d.keepReg a w).rep = d.rep := by
  rcases keepReg_cases d a w with e | e <;> rw [e]; rfl

/-- A field of 32 bits takes the whole word written. -/
theorem setBits_whole (old v : Word) : setBits old 31 0 (bitsOf v.toNat 31 0) = v := by
  apply BitVec.eq_of_toNat_eq
  have hold := old.isLt
  have hv := v.isLt
  rw [setBits_toNat _ _ _ _ (by omega) (by omega), bitsOf_eq]
  omega

/-- A register that is one plain field of 32 bits stores the word written. -/
theorem storedWord_whole {p : Part} {r : RegSpec} (old v : Word) (hf : r.flds = [⟨31, 0, .rw, 0, none⟩])
    (hb : partBases.contains r.base = false) : storedWord p r old v = v := by
  simp [storedWord, hf, clampField_free (p := p) (f := ⟨31, 0, .rw, 0, none⟩) rfl hb, setBits_whole]

/-- R484: a write of TRB_RECACK stores the whole word and does nothing more. -/
theorem write_TRB_RECACK {s : State} {path : Path} {finds : Finds} {v : Word} (h : Reaches s path Adr.TRB_RECACK v) :
    writeAccess path finds Adr.TRB_RECACK v s.dev s.mem =
      ((s.dev.met path Adr.TRB_RECACK v).keepReg Adr.TRB_RECACK v, s.mem) := by
  have hv : BitVec.ofNat 32 (v.toNat &&& definedBits Adr.TRB_RECACK) = v := by
    rw [show definedBits Adr.TRB_RECACK = 2 ^ 32 - 1 from rfl, Nat.and_two_pow_sub_one_of_lt_two_pow v.isLt,
      BitVec.ofNat_toNat, BitVec.setWidth_eq]
  rw [writeAccess_row h rfl (by cases s.dev.part <;> rfl) (by cases s.dev.part <;> rfl) hv rfl rfl rfl,
    writeReg_plain rfl rfl (barPending_none _ rfl), storedWord_whole _ _ rfl rfl]

theorem completes_trbRecackWrite {s : State} {path : Path} {value : Word} (h : Reaches s path Adr.TRB_RECACK value) :
    Completes (.trbRecackWrite path value) s ((s.dev.met path Adr.TRB_RECACK value).keepReg Adr.TRB_RECACK value) s.mem :=
  completes_live h.1 rfl (write_TRB_RECACK h)

/-- R478: source 26 is clear while TRB_RECACK holds the newest Seq: no entry has a Seq above it. -/
theorem troubleSource_of_acknowledged {d : Dev} (h : (d.reg Adr.TRB_RECACK).toNat = d.rep.lastSeq) :
    d.troubleSource = false := by
  simp [Dev.troubleSource, h]

/-! ### The capture of the trouble record -/

theorem readRow_TRB_RECDATA : ReadRow (Adr.TRB_RECDATA 0) (Adr.TRB_RECDATA 0) 0 := ⟨rfl, rfl, rfl, _, rfl, rfl⟩

/-- R484: a read of TRB_RECDATA0 captures the slot that TRB_RECSEL names; the service port reaches it even before the
stoker is released (R437). -/
theorem readAccess_TRB_RECDATA (d : Dev) : d.readAccess (Adr.TRB_RECDATA 0) = d.captureTrouble := by
  have hreach : d.serviceReaches (Adr.TRB_RECDATA 0) = true := Bool.or_true _
  obtain ⟨r, hb, hr, he⟩ :=
    readAccess_row readRow_TRB_RECDATA hreach (by cases d.part <;> rfl) (by cases d.part <;> rfl)
  rw [he, if_neg (by decide), Dev.readEffect, hr]
  simp [hb, Adr.LT_POSLO, Adr.LT_HWMLO, Adr.LT_IDXLO, Adr.LT_BTGTLO, Adr.LT_PRBLATLO, Adr.TIME_SECLO, Adr.TIME_EXSEQ,
    Adr.TRB_NQDATA, Adr.TEL_QDATA, Adr.TRB_RECDATA]

theorem captureTrouble_bytes {d : Dev} {x : TroubleEntry} (h : d.troubleSlot (d.rd Fld.TRB_RECSEL.Slot) = some x) :
    d.captureTrouble.rep.recCapture = x.bytes := by
  simp [Dev.captureTrouble, h]

theorem completes_trbRecdataRead {s : State} (h : s.runs) : Completes .trbRecdataRead s s.dev.captureTrouble s.mem :=
  completes_dev (f := fun d => d.readAccess (Adr.TRB_RECDATA 0)) h rfl (readAccess_TRB_RECDATA s.dev)

end Sys2Proof.Machine
end

section
open Sys2Proof Sys2Proof.Machine

/-- Settles O47: each of the three commands completes as its register's row says, and what the row does to a bit, to source
26 and to the capture is said of the row alone. -/
theorem stickyBitsAndTroubleRecord : Obligations.StickyBitsAndTroubleRecord := by
  refine ⟨fun s path mask h => ?clear, fun s path value h => ?acknowledge, fun s hruns => ?capture⟩
  case clear =>
    intro d a
    have hc := completes_stickyClear h
    refine ⟨fun hh => ?none, fun hh hs => ⟨d.clearSticky a mask.toNat, ?named, clearSticky_eq_win ..,
      fun _ hb => clearSticky_reg_ne _ _ _ hb, testBit_clearSticky _ _ _⟩⟩
    case none => rwa [clearNamed_of_no_register _ hh] at hc
    case named => rwa [clearNamed_of_register _ hh hs] at hc
  case acknowledge =>
    refine ⟨completes_trbRecackWrite h, fun hv => troubleSource_of_acknowledged ?_⟩
    rw [keepReg_reg_same, keepReg_rep, met_rep]
    exact hv
  case capture =>
    exact ⟨_, completes_trbRecdataRead hruns, rfl, fun x hx => captureTrouble_bytes hx⟩

end

section
/-!
SUPPORT. Every command keeps the job store's canonical form, and in reset leaves the machine as it is.
-/
namespace Sys2Proof.Machine

/-! ### The commands that reach the job store keep its canonical form -/

theorem live_keeps {s t : State} {f : Dev → Mem → Dev × Mem} (hs : s.Inv) (hf : ∀ d m, m.wf = true → Kept (f d m))
    (h : live s f = .next t) : t.Inv := by
  unfold live at h
  split at h
  · cases h; exact hs
  · cases h; exact settle_wf (hf _ _ hs)

/-- A command that reads the job store and changes no byte of it keeps its form. -/
theorem reading_keeps {s t : State} {f : Dev → Mem → Dev} (hs : s.Inv) (h : live s (fun d m => (f d m, m)) = .next t) :
    t.Inv :=
  live_keeps (f := fun d m => (f d m, m)) hs (fun _ _ hm => hm) h

theorem liveDev_keeps {s t : State} {f : Dev → Dev} (hs : s.Inv) (h : liveDev s f = .next t) : t.Inv :=
  reading_keeps hs h

theorem register_keeps {s t : State} {path : Path} {finds : Finds} {a : Nat} {v : Word} (hs : s.Inv)
    (h : live s (writeAccess path finds a v) = .next t) : t.Inv :=
  live_keeps hs (fun _ _ => writeAccess_wf) h

theorem bits_keeps {s t : State} {path : Path} {a bits : Nat} (hs : s.Inv)
    (h : live s (writeBits path a bits) = .next t) : t.Inv :=
  live_keeps hs (fun _ _ => writeBits_wf) h

theorem message_keeps {s t : State} {kind : Nat} {g : OjpMsg} {i : Instr} (hs : s.Inv)
    (h : live s (fun d m => receiveMsg d m kind g i) = .next t) : t.Inv :=
  live_keeps hs (fun _ _ => receiveMsg_wf) h

theorem service_keeps {s t : State} {req : Bytes} (hs : s.Inv) (h : live s (fun d m => servicePort d m req) = .next t) :
    t.Inv :=
  live_keeps hs (fun _ _ => servicePort_wf) h

theorem emptied_wf (m : Mem) : m.emptied.wf = true := rfl

theorem hello_keeps {s t : State} {h : Hello} (hs : s.Inv) (hx : execHello h s = .next t) : t.Inv := by
  refine live_keeps hs (fun d m hm => ?_) hx
  show (if d.startsEmpty h then m.emptied else m).wf = true
  split
  · exact emptied_wf m
  · exact hm

theorem nztWrite_keeps {s t : State} {path : Path} {z : Nat} {v : Word} (hs : s.Inv)
    (h : execNztWrite path z v s = .next t) : t.Inv :=
  live_keeps hs (fun _ _ hm => ite_wf (writeAccess_wf hm) (Kept.of hm)) h

theorem pgFall_keeps {s t : State} (hs : s.Inv) (h : execPgFall s = .next t) : t.Inv := by
  change Host.Outcome.next (if s.dev.boot.inReset then s else { s with dev := s.dev.powerLost }) = .next t at h
  split at h <;> (cases h; exact hs)

theorem exec_keeps {c : Instr} {s t : State} (hs : s.Inv) (h : exec c s = .next t) : t.Inv := by
  unfold exec at h
  cases c <;> dsimp only at h
  case registerWrite | jobStart | jobStop | jobAbort | doorbellRing | decPlanperWrite | pageStart | setPos | clearFault |
      commitGeometry | commitScale | commitCodeWidth | commitPort | commitPrint | clampClear | move | motStop | home | disable |
      enable | goPrint | goService | adcCalStart | handoff | selfTest | netPctrlWrite | timeIncrWrite | timeStep |
      remapRequest | remapClearAll | dmaProdWrite | dmaCqconsWrite | clearStates | clearCounts | clearTrouble | clearCal |
      checkpoint | pwrReqOn | pwrReqEmber | pwrReqCold | stickyClear | trbRecackWrite => exact register_keeps hs h
  case echoFind | ddStart | ddStop | laneRetrain | toutArm | toutDisarm | dmaResume | dmaAbort | crcReset =>
    exact bits_keeps hs h
  case openSession | close | ack | keepalive | jobWrite | linkWrite | doorbell | jobRead | regWrite | regRead =>
    exact message_keeps hs h
  case serviceRead | serviceWrite | badCommand => exact service_keeps hs h
  case nztWrite => exact nztWrite_keeps hs h
  case hello => exact hello_keeps hs h
  case probeLatch => exact live_keeps hs (fun _ _ => probeEdge_wf) h
  case lineEvent => exact live_keeps hs (fun _ _ hm => dmaPrintEvents_wf (Kept.of hm)) h
  case deskewStart => exact live_keeps hs (fun _ _ => deskewWrite_wf) h
  case mirror => exact live_keeps hs (fun _ _ => storeMessage_wf (fun _ _ => mirrorLines_wf)) h
  case mirrorAck => exact live_keeps hs (fun _ _ => mirrorAck_wf) h
  case registerMessage => exact live_keeps hs (fun _ _ => registerMessage_wf) h
  case sequenceMessage => exact live_keeps hs (fun _ _ => sequenceMessage_wf) h
  case repairRequest => exact live_keeps hs (fun _ _ => storeMessage_wf (fun _ _ hm => Kept.of hm)) h
  case repairAnswer =>
    exact live_keeps hs (fun _ _ => storeMessage_wf (fun _ _ hm => takeUpAll_wf (repairAnswer_wf hm))) h
  case resyncData => exact live_keeps hs (fun _ _ => storeMessage_wf (fun _ _ => resyncData_wf)) h
  case dramTrainingDone => exact live_keeps hs (fun _ _ hm => takeUpAll_wf (trainingDone_wf hm)) h
  case sweeperRead => exact live_keeps hs (fun _ _ => sweeperRead_wf) h
  case sweeperReread => exact live_keeps hs (fun _ _ => sweeperReread_wf) h
  case kindleDone => exact live_keeps hs (fun _ _ hm => Kept.of (kindleDone_wf hm).mem) h
  case descriptorFetch | linkPoll | decodeUseStart | preExpansionDone | budgetScanDone | liveLineAction =>
    exact reading_keeps hs h
  case dmaDescFetch => exact live_keeps hs (fun _ _ => dmaFetch_wf) h
  case dmaTrigger => exact live_keeps hs (fun _ _ => dmaTrigger_wf) h
  case dmaTimerExpiry => exact live_keeps hs (fun _ _ => dmaTimer_wf) h
  case dmaComplete => exact live_keeps hs (fun _ _ => dmaComplete_wf) h
  case dmaRecordWrite => exact live_keeps hs (fun _ _ => dmaRecordWrite_wf) h
  case stokerRelease => exact live_keeps hs (fun _ _ => stokerRelease_wf) h
  case watchdogExpiry => exact live_keeps hs (fun _ _ hm => takeUpAll_wf (Kept.of hm)) h
  case domainExitDone => exact live_keeps hs (fun _ _ => exitDone_wf) h
  case pgFall => exact pgFall_keeps hs h
  case resetAssert | resetRelease | clk25Loss | serviceIncomplete => cases h; exact hs
  all_goals exact liveDev_keeps hs h

/-! ### In reset -/

theorem execPgFall_reset {s : State} (h : s.dev.boot.inReset = true) : execPgFall s = .next s := by
  change Host.Outcome.next (if s.dev.boot.inReset then s else { s with dev := s.dev.powerLost }) = .next s
  rw [if_pos h]

end Sys2Proof.Machine
end

section
open Sys2Proof Sys2Proof.Machine

/-- Settles O5: a step idles or runs one command, and every command keeps the store's form. -/
theorem stepKeepsStoreCanonical : Obligations.StepKeepsStoreCanonical := by
  intro s t hs h
  unfold step at h
  split at h
  · cases h; exact hs
  · next c rest _ => exact exec_keeps (s := { s with pending := rest }) hs h

/-- Settles O1: the two cases of the queue. -/
theorem stepTakesFrontCommand : Obligations.StepTakesFrontCommand := by
  refine ⟨fun c rest s h => ?_, fun s h => ?_⟩ <;> (unfold step; rw [h])

/-- Settles O2: a command other than the three asks first whether the device runs. -/
theorem resetHoldsEverything : Obligations.ResetHoldsEverything := by
  intro c s h hassert hclk hrelease
  unfold exec
  cases c <;> dsimp only
  case resetAssert => exact absurd rfl hassert
  case clk25Loss => exact absurd rfl hclk
  case resetRelease devsel imageA imageB => exact absurd rfl (hrelease devsel imageA imageB)
  case pgFall => exact execPgFall_reset h
  case serviceIncomplete => rfl
  all_goals exact if_pos h

/-- Settles O3: the window and the copies in force store nothing at reset, so each register reads as its table says. -/
theorem resetValues : Obligations.ResetValues := by
  have hdomains : ∀ k : Fin 14, State.reset.dev.pwr[k].state = .on := by
    intro k
    show (Vector.replicate 14 (⟨.on, false, 0⟩ : Domain))[k].state = .on
    simp
  have hports : ∀ p : Fin 64, State.reset.dev.hp.ports[p].latHigh = false ∧ State.reset.dev.hp.ports[p].queue = [] := by
    intro p
    have hp : State.reset.dev.hp.ports[p] = resetPort := by
      show (Vector.replicate 64 resetPort)[p] = resetPort
      simp
    rw [hp]
    exact ⟨rfl, rfl⟩
  exact ⟨fun _ => rfl, fun _ => rfl, hdomains, rfl, hports, rfl, rfl, rfl, rfl⟩

/-- Settles O4: an empty store lists no byte. -/
theorem resetStoreCanonical : Obligations.ResetStoreCanonical := rfl

end

section
/-!
SUPPORT. What a command leaves a pair to do where it changed no role and no session, sent nothing and left no mirrored
message waiting.
-/
namespace Sys2Proof.Machine

section
variable {before d : Dev}

theorem swapSessions_of_role (h : d.pair.role = before.pair.role) : Dev.swapSessions before d = d := by
  simp [Dev.swapSessions, Dev.isKeeper, h]

theorem settleMirrors_of_none {x : Dev × Mem} (h : x.1.pair.mirrors = []) : settleMirrors x = x := by
  simp only [settleMirrors, h, List.length_nil, mirrorsDone]

theorem startResync_of_unchanged (m : Mem) (hr : d.pair.role = before.pair.role)
    (hp : d.pair.partnerState = before.pair.partnerState) : startResync before d m = d := by
  unfold startResync
  rw [hr, hp, if_neg]
  cases decide (before.pair.role = .striker) <;> cases decide (before.pair.partnerState = 3) <;> simp

theorem sessionNews_of_unchanged (h : d.ojp = before.ojp) : sessionNews before d = [] := by
  have hs (i : Nat) : before.session i = d.session i := by simp only [Dev.session, h]
  unfold sessionNews
  split
  · rfl
  · rw [List.filterMap_eq_nil_iff]
    intro i _
    exact if_pos (hs i)

theorem sendOff_of_unchanged (ho : d.out = before.out) (hs : d.ojp = before.ojp) : Dev.sendOff before d = d := by
  simp [Dev.sendOff, sessionNews_of_unchanged hs, ← ho]

theorem settlePair_of_unchanged (m : Mem) (hr : d.pair.role = before.pair.role) (hm : d.pair.mirrors = [])
    (ho : d.out = before.out) (hs : d.ojp = before.ojp) (hp : d.pair.partnerState = before.pair.partnerState) :
    settlePair before (d, m) = (d, m) := by
  have hk : (before.isKeeper && !d.isKeeper) = false := by simp [Dev.isKeeper, hr]
  simp only [settlePair, swapSessions_of_role hr, settleMirrors_of_none (x := (d, m)) hm, hk, Bool.false_eq_true, if_false,
    startResync_of_unchanged m hr hp, sendOff_of_unchanged ho hs]

end

end Sys2Proof.Machine
end

section
open Sys2Proof Sys2Proof.Machine

/-- Settles O6: each part of `settlePair` asks for a change that the command did not make. -/
theorem settleAddsNothingWhenQuiet : Obligations.SettleAddsNothingWhenQuiet := by
  refine ⟨fun s d m h => settle_single h, fun s d m hmode hr hm ho hs hp => ?_⟩
  simp only [settle, hmode, if_true, settlePair_of_unchanged m hr hm ho hs hp]

end

section
/-!
SUPPORT. The page sequencer: what it reads of undamaged lines, what it does on its link, and what Start, Stop and Abort
leave (R58 to R79).
-/
namespace Sys2Proof.Machine

/-! ### Reads of undamaged lines -/

section
variable {m : Mem} {finds : Finds} (h : m.sound finds)
include h

theorem meetLine_of_sound (d : Dev) (line : Nat) : Dev.meetLine m finds d line = d := by
  obtain ⟨hbad, hcorr⟩ := h
  have hb := hbad line
  simp only [Mem.bad, Bool.and_eq_false_iff, decide_eq_false_iff_not, Nat.not_lt, Bool.or_eq_false_iff] at hb
  unfold Dev.meetLine
  rcases hb with hw | ⟨hp, hu⟩
  · rw [if_pos hw]
  · simp only [hp, hu, hcorr line, Bool.false_eq_true, if_false, ite_self]

theorem meetLines_of_sound (lines : List Nat) : ∀ d : Dev, d.meetLines m finds lines = d := by
  unfold Dev.meetLines
  induction lines with
  | nil => exact fun _ => rfl
  | cons line lines ih => intro d; rw [List.foldl_cons, meetLine_of_sound h, ih]

theorem readAnswer_of_sound (d : Dev) (lines : List Nat) : d.readAnswer m finds lines = .good := by
  have hnone : lines.filter (m.bad finds) = [] := by simp [h.1]
  simp [Dev.readAnswer, hnone]

/-! ### What the sequencer reads -/

/-- R58 to R61, R67: a good descriptor of a printing page is held. -/
theorem fetchDescriptor_of_good {d : Dev} {off : Nat} (hf : descFail d.jobLimit (m.read off 128) = none)
    (hl : leAt (m.read off 128) 0x0C 4 ≠ 0) (hb : d.leadBusy = false) :
    d.fetchDescriptor m finds off =
      (((d.setJob (fun j => { j with nextKey := j.nextKey + 1, faultAt := none })).wr Fld.JOB_TAILLO.TailLo
        (off / 128)).wr Fld.JOB_TAILHI.TailHi (off / 2 ^ 32)).setJob (fun j => { j with
          pages := j.pages ++ [pageOf d.job.nextKey off (m.read off 128)], skipRun := 0, seq := .following
          target := .link off (descHold (m.read off 128)) }) := by
  have hp : ¬ (pageOf d.job.nextKey off (m.read off 128)).length = 0 := hl
  have hb' : (((d.setJob (fun j => { j with nextKey := j.nextKey + 1, faultAt := none })).wr Fld.JOB_TAILLO.TailLo
      (off / 128)).wr Fld.JOB_TAILHI.TailHi (off / 2 ^ 32)).leadBusy = false := hb
  unfold Dev.fetchDescriptor
  simp only [meetLines_of_sound h, readAnswer_of_sound h, hf, if_neg hp, Dev.holdPage, hb', Bool.false_and,
    Bool.false_eq_true, if_false]
  rfl

/-- R73, R74: a link read as what its word says. -/
theorem readLink_of_endMark {d : Dev} {off : Nat} (hw : leNat (m.read (off + 0x78) 8) % 2 = 1) :
    d.readLink m finds off =
      d.setJob (fun j => { j with seq := .parkedEnd, faultAt := if j.faultAt = some off then none else j.faultAt }) := by
  have hs : linkSays d.jobLimit (leNat (m.read (off + 0x78) 8)) = .endMark := if_pos hw
  unfold Dev.readLink
  simp only [meetLines_of_sound h, readAnswer_of_sound h, hs]

/-- R59: a link that is no end mark and names no descriptor is broken. -/
theorem readLink_of_broken {d : Dev} {off : Nat} (hw : leNat (m.read (off + 0x78) 8) % 2 = 0)
    (hb : leNat (m.read (off + 0x78) 8) % 128 ≠ 0 ∨ 2 ^ 40 ≤ leNat (m.read (off + 0x78) 8) ∨
      d.jobLimit ≤ leNat (m.read (off + 0x78) 8)) :
    d.readLink m finds off = d.malformed off 0x78 := by
  have hs : linkSays d.jobLimit (leNat (m.read (off + 0x78) 8)) = .broken := by
    unfold linkSays
    rw [if_neg (by omega), if_neg (by omega)]
  unfold Dev.readLink
  simp only [meetLines_of_sound h, readAnswer_of_sound h, hs]

end

/-- R79: a malformed descriptor adds no page. -/
theorem malformed_nextKey (d : Dev) (off field : Nat) : (d.malformed off field).job.nextKey = d.job.nextKey := by
  unfold Dev.malformed
  extract_lets e f
  have hf : f.job.nextKey = d.job.nextKey := by
    unfold f
    split
    · rfl
    · rw [setJob_job, noticeTrouble_job]; rfl
  exact hf

/-- R320: a sequencer that has fetched no descriptor names none. -/
theorem tellFetch_of_same {before d : Dev} (m : Mem) (h : d.job.nextKey = before.job.nextKey) :
    Dev.tellFetch before d m = d := if_pos h.symm

/-! ### Polls and doorbells -/

theorem pollNow_of_parked {d : Dev} {m : Mem} {finds : Finds} {off : Nat} (hk : d.isKeeper = false)
    (hm : d.memRuns = true) (hs : d.job.seq = .parkedEnd ∨ d.job.seq = .parkedFault) (ht : d.job.target = .link off false) :
    d.pollNow m finds = Dev.tellFetch d (d.readLink m finds off) m := by
  simp [Dev.pollNow, hk, hm, hs, Dev.linkPoll, Dev.follow, ht]

theorem fetchNow_of_head {d : Dev} {m : Mem} {finds : Finds} (hk : d.isKeeper = false) (hf : d.mayFetch = true)
    (hm : d.memRuns = true) (ht : d.job.target = .head) (hl : d.jobHead < d.jobLimit) :
    d.fetchNow m finds = Dev.tellFetch d (d.fetchDescriptor m finds d.jobHead) m := by
  simp [Dev.fetchNow, hk, hf, hm, Dev.descriptorFetch, Dev.follow, ht, hl]

theorem doorbell_of_running {d : Dev} {m : Mem} {finds : Finds} (he : d.job.seq ≠ .parkedEnd)
    (hf : d.job.seq ≠ .parkedFault) (ht : ∀ off, d.job.target ≠ .link off true) :
    d.doorbell m finds = d.bump Fld.JOB_BELLCNT.Count := by
  unfold Dev.doorbell
  split
  · next off h => exact absurd h (ht off)
  · rw [if_neg (fun h => h.elim he hf)]

theorem doorbell_of_hold {d : Dev} {m : Mem} {finds : Finds} {off : Nat} (hs : d.job.seq ≠ .parkedHold)
    (ht : d.job.target = .link off true) :
    d.doorbell m finds = d.setJob (fun j => { j with target := .link off false }) := by
  unfold Dev.doorbell
  simp only [ht, decide_eq_false hs, Bool.false_eq_true, if_false]

theorem ring_of_same {d : Dev} {m : Mem} {finds : Finds} (hk : d.isKeeper = false)
    (h : (d.doorbell m finds).job.nextKey = d.job.nextKey) : d.ring m finds = d.doorbell m finds := by
  simp only [Dev.ring, hk, Bool.false_eq_true, if_false, tellFetch_of_same m h]

/-! ### Stop (R65) -/

theorem jobStop_of_idle {d : Dev} (h : d.job.seq = .idle) : d.jobStop = d := if_pos h

theorem jobStop_of_no_page {d : Dev} (h : d.job.seq ≠ .idle) (hp : d.job.pages = []) :
    d.jobStop = d.setJob (fun j => { j with seq := .idle, target := .none }) := by
  simp [Dev.jobStop, h, Dev.cancelUnstarted, hp, Dev.settleStop, Dev.setJob]

theorem jobStop_of_begun {d : Dev} {p : Page} {rest : List Page} (h : d.job.seq ≠ .idle) (hp : d.job.pages = p :: rest)
    (hb : p.begun = true) (hc : p.cancelled = false) :
    d.jobStop = d.setJob (fun j => { j with
      seq := .stopping, target := .none
      pages := p :: rest.map (fun q => if q.begun then q else { q with cancelled := true }) }) := by
  simp [Dev.jobStop, h, Dev.cancelUnstarted, hp, hb, hc, Dev.setJob]

/-! ### Abort (R66) -/

theorem countRetired_lt (d : Dev) (p : Page) : (d.countRetired p).lt = d.lt := by
  unfold Dev.countRetired; split <;> rfl

theorem retirePage_lt (d : Dev) (p : Page) : (d.retirePage p).lt = d.lt := by
  rw [retirePage_eq]
  split
  · rw [countRetired_lt]; rfl
  · rw [noticeAt_lt, countRetired_lt]; rfl

/-- A sequencer that is Idle with no link to follow, on a device with the given line timing. -/
def Dev.AtRest (lt : LineSt) (d : Dev) : Prop := d.job.seq = .idle ∧ d.job.target = .none ∧ d.lt = lt

theorem retirePage_atRest {lt : LineSt} {d : Dev} (p : Page) (h : d.AtRest lt) : (d.retirePage p).AtRest lt := by
  unfold Dev.AtRest
  rw [retirePage_job, retirePage_lt]
  exact h

theorem retireOldest_atRest {lt : LineSt} {d : Dev} (h : d.AtRest lt) : d.retireOldest.AtRest lt := by
  unfold Dev.retireOldest
  split
  · exact h
  · next p _ _ =>
    split
    · have hr := retirePage_atRest (if p.cancelled then p.asCancelled else p) h
      rw [settleStop_of_ne_stopping (by rw [hr.1]; decide)]
      exact hr
    · exact h

theorem retireAll_atRest {lt : LineSt} (n : Nat) : ∀ {d : Dev}, d.AtRest lt → (Dev.retireAll n d).AtRest lt := by
  induction n with
  | zero => exact fun h => h
  | succ n ih =>
    intro d h
    unfold Dev.retireAll
    split
    · exact h
    · split
      · exact ih (retireOldest_atRest h)
      · exact h

theorem discardPorts_lt (d : Dev) (n : Nat) : (d.discardPorts n).lt = d.lt :=
  foldl_keeps (fun e : Dev => e.lt = d.lt) (fun e p => e.setPort p (e.port p).discard) (fun _ _ h => h) _ _ rfl

theorem adopt_lt (d : Dev) (n : Nat) : (d.adopt n).lt = d.lt := by
  unfold Dev.adopt
  extract_lets _ _ _ _ _ _ _ unc e
  have he : e.lt = d.lt := rfl
  clear_value e unc
  cases unc with
  | nil => exact he
  | cons z zs => simpa using he

/-- R66: a plane with no run, nothing due and no line event open. -/
def PlaneLine.Cleared (x : PlaneLine) : Prop := x.state = .idle ∧ x.runs = [] ∧ x.due = [] ∧ x.open_ = []

theorem idlePlane_plane (d : Dev) (n k : Nat) (hn : n < 8) (h : k = n ∨ (d.plane k).Cleared) :
    ((d.idlePlane n).plane k).Cleared := by
  have hlt : (d.idlePlane n).lt =
      ((d.discardPorts n).setPlane n ⟨.idle, [], [], [], ((d.discardPorts n).plane n).lastFire, none, [], false,
        ((d.discardPorts n).plane n).nextEvent⟩).lt := by
    unfold Dev.idlePlane
    extract_lets
    split
    · rw [adopt_lt]; rfl
    · rfl
  have hk : (d.idlePlane n).plane k =
      ((d.discardPorts n).setPlane n ⟨.idle, [], [], [], ((d.discardPorts n).plane n).lastFire, none, [], false,
        ((d.discardPorts n).plane n).nextEvent⟩).plane k := by
    simp only [Dev.plane, hlt]
  rw [hk]
  by_cases hkn : k = n
  · subst hkn
    rw [plane_setPlane_same _ hn]
    exact ⟨rfl, rfl, rfl, rfl⟩
  · rw [plane_setPlane_ne _ hkn]
    have hd : (d.discardPorts n).plane k = d.plane k := by simp only [Dev.plane, discardPorts_lt]
    rw [hd]
    exact h.resolve_left hkn

/-- Every plane of those idled is cleared. -/
theorem idlePlanes_cleared (l : List Nat) (hl : ∀ n ∈ l, n < 8) : ∀ (d : Dev) (k : Nat), k ∈ l ∨ (d.plane k).Cleared →
    ((l.foldl Dev.idlePlane d).plane k).Cleared := by
  induction l with
  | nil => exact fun d k h => h.resolve_left (by simp)
  | cons n l ih =>
    intro d k h
    rw [List.foldl_cons]
    have hn : n < 8 := hl n (List.mem_cons_self ..)
    refine ih (fun x hx => hl x (List.mem_cons_of_mem _ hx)) _ _ ?_
    by_cases hk : k ∈ l
    · exact .inl hk
    · refine .inr (idlePlane_plane d n k hn ?_)
      exact h.imp (fun hm => (List.mem_cons.1 hm).resolve_right hk) id

theorem jobAbort_leaves (d : Dev) :
    d.jobAbort.job.seq = .idle ∧ d.jobAbort.job.target = .none ∧ d.jobAbort.lt.haltReq = false ∧
      ∀ n < 8, (d.jobAbort.plane n).Cleared := by
  unfold Dev.jobAbort
  extract_lets e _ _ g
  have he : ∀ n < 8, (e.plane n).Cleared := fun n hn =>
    idlePlanes_cleared _ (by simp) d n (.inl (List.mem_range.2 hn))
  clear_value e
  have hg : g.AtRest g.lt := ⟨rfl, rfl, rfl⟩
  obtain ⟨hseq, htarget, hlt⟩ := retireAll_atRest g.job.pages.length hg
  refine ⟨hseq, htarget, by rw [hlt]; rfl, fun n hn => ?_⟩
  have hp : (Dev.retireAll g.job.pages.length g).plane n = e.plane n := by
    unfold Dev.plane; rw [hlt]; rfl
  rw [hp]
  exact he n hn

theorem tellKeeper_eq (d : Dev) (g : SeqMsg) : ∃ o, d.tellKeeper g = { d with out := o } := by
  unfold Dev.tellKeeper
  split
  · exact ⟨_, rfl⟩
  · exact ⟨_, rfl⟩

/-! ### The plan period (R144) -/

theorem planPeriodWritten_eq (d : Dev) :
    d.planPeriodWritten = d.setJob (fun j => { j with
      pages := j.pages.map (fun p => if !p.begun && decide (p.planeMask ≠ 0#8) && decide (p.length ≠ 0) then
        { p with budget := { p.budget with scanPending := true } } else p) }) := rfl

theorem write_DEC_PLANPER {s : State} {path : Path} {finds : Finds} {v : Word} (h : Reaches s path Adr.DEC_PLANPER v)
    (hv : v.toNat < 2 ^ 20) :
    writeAccess path finds Adr.DEC_PLANPER v s.dev s.mem =
      (((s.dev.met path Adr.DEC_PLANPER v).keepReg Adr.DEC_PLANPER
        (setBits ((s.dev.met path Adr.DEC_PLANPER v).reg Adr.DEC_PLANPER) 19 0
          (clampNat 6250 1000000 v.toNat))).planPeriodWritten, s.mem) := by
  have hmod : v.toNat % 2 ^ 20 = v.toNat := Nat.mod_eq_of_lt hv
  have hdef : BitVec.ofNat 32 (v.toNat &&& definedBits Adr.DEC_PLANPER) = v := by
    rw [show definedBits Adr.DEC_PLANPER = 2 ^ 20 - 1 from rfl, Nat.and_two_pow_sub_one_eq_mod, hmod]
    simp
  rw [writeAccess_row h rfl (by cases s.dev.part <;> rfl) (by cases s.dev.part <;> rfl) hdef rfl rfl rfl,
    writeReg_stores rfl (barPending_none _ rfl)]
  have hbits : bitsOf v.toNat 19 0 = v.toNat := by rw [bitsOf_eq]; simpa using hmod
  have hst : ∀ (p : Part) (old : Word), storedWord p
      ⟨"DEC_PLANPER", 0x000C0000, 1, 0x0, 1, 0x0, .none, [⟨19, 0, .rw, 6250, some (6250, 1000000)⟩]⟩ old v =
        setBits old 19 0 (clampNat 6250 1000000 v.toNat) := by
    intro p old
    cases p <;> simp [storedWord, clampField, hbits, Adr.RAS_REG, Adr.NET_PCTRL, Adr.HP_PLANE, Adr.HP_DSKCTRL,
      Adr.RAS_PEEKIDX, Adr.TEL_FCIDX, Adr.DD_FIRST, Adr.DD_LAST, Adr.MEM_RMREQ]
  rw [hst]
  rfl

end Sys2Proof.Machine
end

section
open Sys2Proof Sys2Proof.Machine

/-- Settles O7: the three outcomes of `Dev.jobStart` on the device as the write finds it. -/
theorem jobStartFollowsFromHead : Obligations.JobStartFollowsFromHead := by
  intro s path h d begun
  have hc {e : Dev} (he : d.jobStart = e) : Completes (.jobStart path) s e s.mem :=
    completes_live h.1 rfl (by rw [write_JOB_start h, he])
  refine ⟨fun hi hl => hc ?_, fun hi hl => hc ?_, fun hi => hc (if_pos hi)⟩
  · rw [Dev.jobStart, if_neg (not_not_intro hi)]
    exact if_pos hl
  · rw [Dev.jobStart, if_neg (not_not_intro hi)]
    exact if_neg (Nat.not_lt.2 hl)

/-- Settles O8: the three outcomes of `Dev.jobStop`. -/
theorem jobStopDiscardsUnstarted : Obligations.JobStopDiscardsUnstarted := by
  intro s path h d
  have hc {e : Dev} (he : d.jobStop = e) : Completes (.jobStop path) s (e.tellKeeper .stop) s.mem :=
    completes_live h.1 rfl (by rw [write_JOB_stop h, he])
  exact ⟨fun hi => hc (jobStop_of_idle hi), fun hi hp => hc (jobStop_of_no_page hi hp),
    fun hi p rest hp hb hcan => hc (jobStop_of_begun hi hp hb hcan)⟩

/-- Settles O9: an abort idles every plane, ends the chain, and tells the keeper. -/
theorem jobAbortEndsAtOnce : Obligations.JobAbortEndsAtOnce := by
  intro s path h
  obtain ⟨hseq, htarget, hhalt, hplanes⟩ := jobAbort_leaves (s.dev.met path Adr.JOB_CTRL 4#32)
  obtain ⟨o, ho⟩ := tellKeeper_eq (s.dev.met path Adr.JOB_CTRL 4#32).jobAbort .abort
  refine ⟨_, completes_live h.1 rfl (write_JOB_abort h), ?_⟩
  have hp (n : Fin 8) := hplanes n.val n.isLt
  generalize (s.dev.met path Adr.JOB_CTRL 4#32).jobAbort = e at *
  rw [ho]
  exact ⟨hseq, htarget, hhalt, hp⟩

/-- Settles O10: the fetch reads the descriptor at the head. -/
theorem descriptorFetchHoldsPage : Obligations.DescriptorFetchHoldsPage := by
  intro s finds off hr hk hf hm ht hoff hlim hbad hcorr hd hl hb
  subst hoff
  refine completes_live hr rfl (f := fun d m => (d.fetchNow m finds, m)) ?_
  rw [fetchNow_of_head hk hf hm ht hlim, fetchDescriptor_of_good ⟨hbad, hcorr⟩ hd hl hb]

/-- Settles O11: a poll reads the link, and neither of its two answers names a page to the keeper. -/
theorem linkPollReadsLink : Obligations.LinkPollReadsLink := by
  intro s finds off hr hk hm hs ht hbad hcorr w
  have hc {e : Dev} (he : s.dev.readLink s.mem finds off = e) (hn : e.job.nextKey = s.dev.job.nextKey) :
      Completes (.linkPoll finds) s e s.mem := by
    refine completes_live hr rfl (f := fun d m => (d.pollNow m finds, m)) ?_
    rw [pollNow_of_parked hk hm hs ht, he, tellFetch_of_same _ hn]
  exact ⟨fun hw => hc (readLink_of_endMark ⟨hbad, hcorr⟩ hw) rfl,
    fun hw hb => hc (readLink_of_broken ⟨hbad, hcorr⟩ hw hb) (malformed_nextKey ..)⟩

/-- Settles O12: neither answer to the doorbell fetches a descriptor. -/
theorem doorbellCountsOrReleases : Obligations.DoorbellCountsOrReleases := by
  intro s path finds h hk d
  have hkd : d.isKeeper = false := by rw [isKeeper_congr (met_pair ..)]; exact hk
  have hc {e : Dev} (he : d.doorbell s.mem finds = e) (hn : e.job.nextKey = d.job.nextKey) :
      Completes (.doorbellRing path finds) s e s.mem := by
    refine completes_live h.1 rfl ?_
    rw [write_JOB_DOORBELL h, ring_of_same hkd (by rw [he, hn]), he]
  exact ⟨fun hp hf ht => hc (doorbell_of_running hp hf ht) rfl, fun off hp ht => hc (doorbell_of_hold hp ht) rfl⟩

/-- Settles O14: the row stores the clamped value and has the budgets computed again. -/
theorem planPeriodWrite : Obligations.PlanPeriodWrite := by
  intro s path v h hv d
  exact completes_live h.1 rfl (by rw [write_DEC_PLANPER h hv, planPeriodWritten_eq])

end

section
/-!
SUPPORT. Messages of the Oaxia job protocol: writes and reads of the job store, the order of a session's messages, its
timers, and the opening of a session (R89 to R109).
-/
namespace Sys2Proof.Machine

/-! ### Numbers in network byte order -/

theorem natLE_leNat (bs : Bytes) : natLE bs.length (leNat bs) = bs := by
  induction bs with
  | nil => rfl
  | cons b bs ih =>
    have hb := b.isLt
    have hbyte : BitVec.ofNat 8 (b.toNat + 256 * leNat bs) = b := by
      apply BitVec.eq_of_toNat_eq
      rw [BitVec.toNat_ofNat]
      omega
    have hrest : (b.toNat + 256 * leNat bs) / 256 = leNat bs := by omega
    simp only [List.length_cons, natLE, leNat, hbyte, hrest, ih]

theorem beNat_append_byte (bs : Bytes) (b : Byte) : beNat (bs ++ [b]) = b.toNat + 256 * beNat bs := by
  simp [beNat, List.foldl_append, Nat.add_comm]

theorem beNat_reverse (bs : Bytes) : beNat bs.reverse = leNat bs := by
  induction bs with
  | nil => rfl
  | cons b bs ih => rw [List.reverse_cons, beNat_append_byte, ih, leNat]

/-- A number in network byte order, stored lowest byte first, is its bytes reversed. -/
theorem natLE_beNat (bs : Bytes) : natLE bs.length (beNat bs) = bs.reverse := by
  have h := natLE_leNat bs.reverse
  rwa [← beNat_reverse, List.reverse_reverse, List.length_reverse] at h

/-- R105: the bytes of a LinkWrite's value, in the order in which they are stored. -/
theorem natLE_linkValue {b : Bytes} (h : b.length = 16) : natLE 8 (beAt b 8 8) = (b.drop 8).reverse := by
  have hl : (b.drop 8).length = 8 := by simp [h]
  have hs : sliceB b 8 8 = b.drop 8 := by simp [sliceB, List.take_of_length_le, h]
  have hn := natLE_beNat (b.drop 8)
  rwa [hl, ← hs, ← beAt, hs] at hn

theorem getD_linkValue {b : Bytes} (h : b.length = 16) {k : Nat} (hk : k < 8) :
    (natLE 8 (beAt b 8 8)).getD k 0#8 = b.getD (15 - k) 0#8 := by
  rw [natLE_linkValue h, List.getD_eq_getElem?_getD, List.getD_eq_getElem?_getD,
    List.getElem?_reverse (by simp [h]; omega), List.getElem?_drop]
  congr 2
  simp only [List.length_drop, h]
  omega

/-! ### A host's write of undamaged lines -/

/-- A store with the same watermark, in which no line is newly poisoned. -/
structure Mem.NoWorse (m n : Mem) : Prop where
  watermark : n.watermark = m.watermark
  poison : ∀ l ∈ n.poison, l ∈ m.poison

theorem Mem.NoWorse.refl (m : Mem) : m.NoWorse m := ⟨rfl, fun _ h => h⟩

theorem Mem.NoWorse.trans {m n k : Mem} (h : m.NoWorse n) (h' : n.NoWorse k) : m.NoWorse k :=
  ⟨h'.watermark.trans h.watermark, fun l hl => h.poison l (h'.poison l hl)⟩

theorem Mem.NoWorse.bad {m n : Mem} (h : m.NoWorse n) {finds : Finds} {l : Nat} (hb : n.bad finds l = true) :
    m.bad finds l = true := by
  simp only [Mem.bad, Bool.and_eq_true, decide_eq_true_eq, Bool.or_eq_true, List.contains_iff_mem] at hb ⊢
  exact ⟨h.watermark ▸ hb.1, hb.2.imp (h.poison l) id⟩

theorem Mem.write_fields (bs : Bytes) : ∀ (m : Mem) (a : Nat),
    (m.write a bs).watermark = m.watermark ∧ (m.write a bs).poison = m.poison := by
  induction bs with
  | nil => exact fun m a => ⟨rfl, rfl⟩
  | cons b bs ih => exact fun m a => ih (m.set a b) (a + 1)

theorem Mem.noWorse_write (m : Mem) (a : Nat) (bs : Bytes) : m.NoWorse (m.write a bs) :=
  ⟨(Mem.write_fields bs m a).1, fun _ hl => by rwa [(Mem.write_fields bs m a).2] at hl⟩

theorem Mem.noWorse_block (m : Mem) (l : Nat) : m.NoWorse (m.block l) := by
  unfold Mem.block
  split
  · exact ⟨rfl, fun _ h => h⟩
  · exact .refl m

theorem Mem.noWorse_heal (m : Mem) (sec l : Nat) : m.NoWorse (m.heal sec l) := by
  unfold Mem.heal
  split
  · exact ⟨rfl, fun _ h => (List.mem_filter.1 h).1⟩
  · exact .refl m

section
variable {m : Mem} {finds : Finds} (h : ∀ l, m.bad finds l = false)
include h

/-- R395: the part of a write in an undamaged line leaves the line undamaged. -/
theorem Mem.mergeLine_undamaged (sec l a : Nat) (bs : Bytes) :
    m.NoWorse (m.mergeLine finds sec l a bs).1 ∧ (m.mergeLine finds sec l a bs).2 = false := by
  have hw (p : Nat) (b : Bytes) : m.NoWorse ((m.block l).write p b) :=
    (m.noWorse_block l).trans ((m.block l).noWorse_write p b)
  unfold Mem.mergeLine
  dsimp only
  split
  · exact ⟨(hw _ _).trans (Mem.noWorse_heal ..), rfl⟩
  · rw [h l]
    exact ⟨hw _ _, rfl⟩

theorem Mem.mergeLines_undamaged (sec a : Nat) (bs : Bytes) (ls : List Nat) :
    m.NoWorse (Mem.mergeLines finds sec a bs ls m).1 ∧ (Mem.mergeLines finds sec a bs ls m).2 = [] := by
  induction ls generalizing m with
  | nil => exact ⟨.refl m, rfl⟩
  | cons l ls ih =>
    obtain ⟨hn, hf⟩ := Mem.mergeLine_undamaged h sec l a bs
    have hb : ∀ k, (m.mergeLine finds sec l a bs).1.bad finds k = false := fun k =>
      Bool.eq_false_iff.2 fun hk => Bool.eq_false_iff.1 (h k) (hn.bad hk)
    obtain ⟨hn', hf'⟩ := ih hb
    refine ⟨hn.trans hn', ?_⟩
    show (if (m.mergeLine finds sec l a bs).2 then _ else _) = _
    rw [hf]
    exact hf'

theorem Mem.hostWrite_undamaged (sec a : Nat) (bs : Bytes) :
    m.NoWorse (m.hostWrite finds sec a bs).1 ∧ (m.hostWrite finds sec a bs).2 = [] :=
  Mem.mergeLines_undamaged h sec a bs _

end

/-- R104, R105: bytes of a message go to undamaged lines of the store, and the message is acknowledged. -/
theorem storeFor_of_sound {d : Dev} {m : Mem} {i : Nat} {finds : Finds} {a : Nat} {bs : Bytes} (h : m.sound finds)
    (hm : d.mirrors = false) :
    storeFor d m i finds a bs = (d.consume i, (m.hostWrite finds d.now.sec a bs).1) := by
  have hw := (Mem.hostWrite_undamaged h.1 d.now.sec a bs).2
  unfold storeFor Dev.meetMerge
  simp only [meetLines_of_sound h, hw, if_true, hm, Bool.false_eq_true, if_false]

/-! ### Which message is performed -/

section
variable {d : Dev} {m : Mem} {i : Nat} {y : Session} {g : OjpMsg}

theorem performMsg_jobWrite (h : d.authentic y 0x10 g = true) : performMsg d m i y ⟨0x10, g⟩ = performJobWrite d m i g := by
  simp [performMsg, h]

theorem performMsg_linkWrite (h : d.authentic y 0x11 g = true) : performMsg d m i y ⟨0x11, g⟩ = performLinkWrite d m i g := by
  simp [performMsg, h]

theorem performMsg_jobRead (h : d.authentic y 0x13 g = true) :
    performMsg d m i y ⟨0x13, g⟩ = (d.performJobRead m i y g, m) := by
  simp [performMsg, h]

theorem performMsg_regRead (h : d.authentic y 0x21 g = true) : performMsg d m i y ⟨0x21, g⟩ = (d.performRegRead i y g, m) := by
  simp [performMsg, h]

theorem performJobWrite_of_sound (h : m.sound g.finds) (hm : d.mirrors = false) (hf : d.jobWriteFail g = 0)
    (hn : g.body.length ≠ 16) :
    performJobWrite d m i g =
      (d.consume i, (m.hostWrite g.finds d.now.sec (beAt g.body 0 8) (g.body.drop 16)).1) := by
  unfold performJobWrite
  simp only [hf, ne_eq, not_true_eq_false, if_false, if_neg hn, storeFor_of_sound h hm]

theorem performLinkWrite_of_sound (h : m.sound g.finds) (hm : d.mirrors = false) (hf : d.linkWriteFail g = 0) :
    performLinkWrite d m i g =
      (d.consume i, (m.hostWrite g.finds d.now.sec (beAt g.body 0 8) (natLE 8 (beAt g.body 8 8))).1) := by
  unfold performLinkWrite
  simp only [hf, ne_eq, not_true_eq_false, if_false, storeFor_of_sound h hm]

/-- R105: a LinkWrite that does not fail has a body of 16 bytes. -/
theorem length_of_linkWriteFail (h : d.linkWriteFail g = 0) : g.body.length = 16 := by
  by_contra hn
  simp [Dev.linkWriteFail, hn] at h

/-! ### Reads (R107, R109) -/

theorem readZeroed_of_undamaged {finds : Finds} (h : ∀ l, m.bad finds l = false) (n : Nat) :
    ∀ a, m.readZeroed finds a n = m.read a n := by
  induction n with
  | zero => exact fun _ => rfl
  | succ n ih => intro a; simp only [Mem.readZeroed, Mem.read, h, Bool.false_eq_true, if_false, ih]

@[simp] theorem Mem.length_read (m : Mem) (n : Nat) : ∀ a, (m.read a n).length = n := by
  induction n with
  | zero => exact fun _ => rfl
  | succ n ih => intro a; rw [Mem.read, List.length_cons, ih]

theorem performJobRead_of_sound (h : m.sound g.finds) (hf : d.jobReadFail y g = 0) :
    d.performJobRead m i y g = (d.consume i).sendSeq i 0x14
      (natBE 8 (beAt g.body 0 8) ++ natBE 4 (beAt g.body 8 4) ++ [0#8, 0#8, 0#8, 0#8] ++
        m.read (beAt g.body 0 8) (beAt g.body 8 4)) none := by
  have hgood (ls : List Nat) : ls.any (m.bad g.finds) = false := List.any_eq_false.2 fun l _ => by simp [h.1 l]
  have hz : natBE 2 0 = [0#8, 0#8] := rfl
  unfold Dev.performJobRead
  simp only [hf, ne_eq, not_true_eq_false, if_false, meetLines_of_sound h, hgood, Bool.false_eq_true,
    readZeroed_of_undamaged h.1, readReply, Mem.length_read, hz, List.append_assoc, List.cons_append, List.nil_append]

theorem performJobRead_of_malformed (h : g.body.length ≠ 16) :
    d.performJobRead m i y g = (d.consume i).sendSeq i 0x14
      (natBE 8 (beAt g.body 0 8) ++ natBE 4 0 ++ [0#8, 9#8, 0#8, 0#8]) none := by
  have hf : d.jobReadFail y g = 9 := if_pos (.inl h)
  have hz : natBE 2 9 ++ natBE 2 0 = [0#8, 9#8, 0#8, 0#8] := rfl
  unfold Dev.performJobRead
  simp only [hf, ne_eq, OfNat.ofNat_ne_zero, not_false_eq_true, if_true, readReply, List.length_nil, List.append_nil,
    List.append_assoc, hz]

theorem performRegRead_of_sound (hl : g.body.length = 4 + 4 * beAt g.body 0 2) (hz : beAt g.body 2 2 = 0)
    (hn : beAt g.body 0 2 ≤ 1024) (hm : 32 + 12 * beAt g.body 0 2 + (if y.keyId = 0 then 0 else 16) ≤ y.maxMessage) :
    d.performRegRead i y g =
      ((((List.range (beAt g.body 0 2)).foldl (readEntry g) (d, [])).1.consume i).sendSeq i 0x22
        (natBE 2 (beAt g.body 0 2) ++ [0#8, 0#8] ++ ((List.range (beAt g.body 0 2)).foldl (readEntry g) (d, [])).2) none) := by
  have hb : ¬ (g.body.length ≠ 4 + 4 * beAt g.body 0 2 ∨ beAt g.body 2 2 ≠ 0) := by simp [hl, hz]
  unfold Dev.performRegRead
  rw [if_neg hb, if_neg (by omega)]
  rfl

theorem performRegRead_of_malformed (h : g.body.length ≠ 4 + 4 * beAt g.body 0 2 ∨ beAt g.body 2 2 ≠ 0) :
    d.performRegRead i y g = (d.consume i).sendSeq i 0x22 [0#8, 0#8, 0#8, 9#8] none := if_pos h

end

/-! ### The order of a session's messages (R97) -/

section
variable {d : Dev} {m : Mem} {i kind : Nat} {y : Session} {g : OjpMsg}

theorem receiveSequenced_duplicate (h : seqBefore g.seq.toNat y.ackSeq = true ∨ ∃ k ∈ y.held, k.msg.seq = g.seq) :
    receiveSequenced d m i y kind g =
      ((d.bump Fld.NET_OJPDUP.Count).setSession i (some { y with ackPending := true }), m) := by
  have hc : (seqBefore g.seq.toNat y.ackSeq || y.held.any (fun k => k.msg.seq == g.seq)) = true := by
    simpa [List.any_eq_true] using h
  unfold receiveSequenced
  simp only [hc, if_true]

theorem receiveSequenced_beyond (hb : seqBefore g.seq.toNat y.ackSeq = false) (hh : ∀ k ∈ y.held, k.msg.seq ≠ g.seq)
    (hn : g.seq.toNat ≠ y.ackSeq) (hw : seqBefore g.seq.toNat (seqAdd y.ackSeq y.devWindow) = false) :
    receiveSequenced d m i y kind g =
      ((d.bump Fld.NET_OJPDROP.Count).setSession i (some { y with ackPending := true }), m) := by
  have hc : (seqBefore g.seq.toNat y.ackSeq || y.held.any (fun k => k.msg.seq == g.seq)) = false := by
    simpa [List.any_eq_false, hb] using hh
  unfold receiveSequenced
  simp only [hc, Bool.false_eq_true, if_false, hn, hw, or_self]

end

/-- R97: a sequenced message that a session takes comes to what its order in the session says. -/
theorem completes_sequenced {c : Instr} {s : State} {kind : Nat} {g : OjpMsg} {i : Nat} {x y : Session} {e : Dev} {m : Mem}
    (hc : exec c s = live s (fun d m => receiveMsg d m kind g c)) (hk : sequencedKind kind = true)
    (ht : Taken s kind g i x) (hy : (s.dev.heard i x g).session i = some y)
    (hp : receiveSequenced (s.dev.heard i x g) s.mem i y kind g = (e, m)) : Completes c s e m :=
  completes_live ht.runs hc (by rw [receiveMsg_of_taken ht hk, receiveIn_of_taken ht hk hy, hp])

/-! ### Messages that are not sequenced (R99, R100) -/

/-- R82 to R87: a message of an open session passes the checks of its header, whatever its kind. -/
theorem receiveMsg_of_named {s : State} {kind : Nat} {g : OjpMsg} {i : Nat} {x : Session} (h : Taken s kind g i x)
    (hk : kind ≠ 0x01) (c : Instr) :
    receiveMsg s.dev s.mem kind g c = receiveIn (s.dev.frameIn g.port.val) s.mem i x kind g := by
  have haddr : (g.atPair && !(s.dev.frameIn g.port.val).usesPair) = false := by
    cases hp : g.atPair with
    | false => rfl
    | true => simp [h.address hp]
  simp [receiveMsg, takeMsg, deliverMsg, Nat.not_lt.2 h.frame, haddr, h.ready, h.path, h.sound, h.host, h.named, hk]

/-- R100: a message that is not sequenced has the effect of its acknowledgement alone. -/
theorem receiveIn_of_unsequenced {s : State} {kind : Nat} {g : OjpMsg} {i : Nat} {x : Session} (h : Taken s kind g i x)
    (hk : sequencedKind kind = false) (hb : kind = 0x06 → g.body = []) :
    receiveIn (s.dev.frameIn g.port.val) s.mem i x kind g = (s.dev.heard i x g, s.mem) := by
  have hc : ¬ (x.maxMessage < msgSize g ∨ (kind = 0x06 ∧ g.body ≠ [])) :=
    not_or.2 ⟨Nat.not_lt.2 h.size, fun hx => hx.2 (hb hx.1)⟩
  unfold receiveIn
  simp only [if_neg hc, h.genuine, hk, Bool.not_true, Bool.false_and, Bool.false_eq_true, if_false, if_true, Dev.heard]

theorem completes_unsequenced {c : Instr} {s : State} {kind : Nat} {g : OjpMsg} {i : Nat} {x : Session}
    (hc : exec c s = live s (fun d m => receiveMsg d m kind g c)) (hk : sequencedKind kind = false) (ho : kind ≠ 0x01)
    (hb : kind = 0x06 → g.body = []) (ht : Taken s kind g i x) : Completes c s (s.dev.heard i x g) s.mem :=
  completes_live ht.runs hc (by rw [receiveMsg_of_named ht ho, receiveIn_of_unsequenced ht hk hb])

/-! ### The timers of a session (R94, R99, R100, R116) -/

section
variable {d : Dev} {i : Nat} {y : Session} (h : d.session i = some y)
include h

theorem ackDelay_of_owed (ha : y.ackPending = true) : d.ackDelay i = d.transmit i y 0x05 0 [] := by
  simp [Dev.ackDelay, h, ha]

theorem ackDelay_of_not_owed (ha : y.ackPending = false) : d.ackDelay i = d := by
  simp [Dev.ackDelay, h, ha]

theorem idleTimeout_of_open : d.idleTimeout i = (d.sticky Fld.NET_OJPERR.IdleClose).closeSession i y 1 := by
  simp only [Dev.idleTimeout, h]

theorem telemetryPeriod_of_subscribed (ht : y.subscribe.toNat.testBit 1 = true) :
    d.telemetryPeriod i = d.sendSeq i 0x41 d.telBody none := by
  simp only [Dev.telemetryPeriod, h, ht, if_true]

theorem telemetryPeriod_of_not_subscribed (ht : y.subscribe.toNat.testBit 1 = false) : d.telemetryPeriod i = d := by
  simp only [Dev.telemetryPeriod, h, ht, Bool.false_eq_true, if_false]

section
variable {n : Nat} {w : DevMsg} (hw : y.unacked.find? (fun w => w.seq == n) = some w) (hh : w.hostHeld = false)
  (hp : w.parked = false)
include hw hh hp

theorem retransmit_of_exhausted (ht : d.rd Fld.NET_OJPRTO.MaxTries ≤ w.tries) :
    d.retransmit i n = (d.sticky Fld.NET_OJPERR.RetryLimit).closeSession i y 2 := by
  simp only [Dev.retransmit, h, hw, hh, hp, Bool.or_self, Bool.false_eq_true, if_false, if_pos ht]

theorem retransmit_again (ht : w.tries < d.rd Fld.NET_OJPRTO.MaxTries) (hc : d.carries i y w.kind w.seq w.body = true) :
    d.retransmit i n = (d.bump Fld.NET_OJPRETX.Count).transmit i
      (y.modMsg n (fun m => { m with tries := m.tries + 1, rto := if m.tries ≤ 6 then 2 * m.rto else m.rto }))
      w.kind n w.body := by
  have hn : w.seq = n := by simpa using List.find?_some hw
  subst hn
  simp only [Dev.retransmit, h, hw, hh, hp, Bool.or_self, Bool.false_eq_true, if_false, if_neg (Nat.not_le.2 ht), hc, if_true]

end

end

theorem telemetryDue_of_awake {d : Dev} (c : Instr) (k : Fin 16) (hs : d.stokerRuns = true) (hd : d.domOn 1 = true) :
    d.telemetryDue c k = d.telemetryPeriod k.val := by
  simp [Dev.telemetryDue, hs, hd]

/-! ### Wake frames (R122) -/

section
variable {d : Dev} {p : Fin 4} {f : Bytes}

theorem wakeFrame_of_valid (hl : 46 ≤ f.length) (hm : beAt f 0 2 = 0x574B) (hv : beAt f 2 1 = 1)
    (hs : beAt f 3 1 = 0xFF ∨ beAt f 3 1 = (d.frameIn p.val).devNum % 2) (hk : beAt f 4 4 < 2 ^ 14)
    (hz : ∀ b ∈ f.drop 8, b = 0#8) :
    d.wakeFrame p f =
      (List.range 14).foldl (fun e k => if (beAt f 4 4).testBit k ∧ k ≠ 0 then e.wake k 3 else e) (d.frameIn p.val) :=
  if_pos ⟨hl, hm, hv, hs, hk, List.all_eq_true.2 fun b hb => beq_iff_eq.2 (hz b hb)⟩

theorem wakeFrame_of_other (hm : beAt f 0 2 ≠ 0x574B) : d.wakeFrame p f = d.frameIn p.val :=
  if_neg fun h => hm h.2.1

end

/-! ### Open (R89 to R92) -/

/-- R82 to R92: an Open that passes the checks of its header is performed by the stoker. -/
theorem receiveMsg_open {s : State} {g : OjpMsg} (hf : msgFrameSize g ≤ s.dev.frameLimit g.port) (ha : g.atPair = false)
    (hr : (s.dev.frameIn g.port.val).isReady = true)
    (hp : msgSize g ≤ pathMax g.ep.v6 (decide ((s.dev.frameIn g.port.val).rd (Fld.NET_PCTRL.Jumbo g.port.val) = 1)))
    (hm : msgSound 0x01 g = true) (hh : (s.dev.frameIn g.port.val).domOn 3 = true)
    (hs : (s.dev.frameIn g.port.val).stokerRuns = true) (hd : (s.dev.frameIn g.port.val).domOn 1 = true) (c : Instr) :
    receiveMsg s.dev s.mem 0x01 g c = ((s.dev.frameIn g.port.val).openSession g, s.mem) := by
  simp [receiveMsg, takeMsg, deliverMsg, Nat.not_lt.2 hf, ha, hr, hp, hm, hh, hs, hd]

@[simp] theorem sendFrame_ojp (d : Dev) (p : Fin 4) (o : Out) : (d.sendFrame p o).ojp = d.ojp := by
  unfold Dev.sendFrame
  split <;> rfl

/-- A session as it is once a frame of it has been tried: the acknowledgement it carried is owed no longer (R99). -/
theorem transmit_session {d : Dev} {i : Nat} (hi : i < 16) (y : Session) (kind seq : Nat) (body : Bytes) :
    (∃ b, (d.transmit i y kind seq body).session i = some { y with ackPending := b }) ∧
      ∀ j, j ≠ i → (d.transmit i y kind seq body).session j = d.session j := by
  unfold Dev.transmit
  have hsend (e : Dev) (p : Fin 4) (o : Out) (j : Nat) : (e.sendFrame p o).session j = e.session j := by
    simp only [Dev.session, sendFrame_ojp]
  split
  · refine ⟨⟨false, ?_⟩, fun j hj => ?_⟩
    · rw [hsend, session_setSession_same _ hi]
    · rw [hsend, session_setSession_ne _ hj _]
  · exact ⟨⟨y.ackPending, session_setSession_same _ hi _⟩, fun j hj => session_setSession_ne _ hj _⟩

/-- R92: the number that an Open is granted is one of those that are free. -/
theorem sessionChoice_free {d : Dev} (h : d.freeSessions ≠ []) (n : Nat) :
    d.freeSessions.getD (n % d.freeSessions.length) 0 < 16 ∧
      d.session (d.freeSessions.getD (n % d.freeSessions.length) 0) = none := by
  have hlt : n % d.freeSessions.length < d.freeSessions.length := Nat.mod_lt _ (List.length_pos_iff.2 h)
  have hmem : d.freeSessions.getD (n % d.freeSessions.length) 0 ∈ d.freeSessions := by
    rw [List.getD_eq_getElem?_getD, List.getElem?_eq_getElem hlt]
    exact List.getElem_mem hlt
  obtain ⟨hr, hn⟩ := List.mem_filter.1 hmem
  exact ⟨List.mem_range.1 hr, Option.isNone_iff_eq_none.1 hn⟩

/-- R92: a granted Open leaves a new session at a free number, and every other session as it was. -/
theorem grantOpen_leaves {d : Dev} (g : OjpMsg) (q : OpenAsk) (maxMessage : Nat) (h : d.freeSessions ≠ []) :
    ∃ (i : Nat) (y : Session), i < 16 ∧ d.session i = none ∧
      (d.grantOpen g q d.freeSessions maxMessage).session i = some y ∧ y.ep = g.ep ∧ y.hostNonce = q.nonce ∧
      y.devWindow = q.devWindow ∧ y.hostWindow = q.hostWindow ∧ y.telPeriod = q.telPeriod ∧ y.maxMessage = maxMessage ∧
      y.ackSeq = 1 ∧ y.held = [] ∧ y.txNext = 1 ∧
      ∀ j, j ≠ i → (d.grantOpen g q d.freeSessions maxMessage).session j = d.session j := by
  obtain ⟨hi, hn⟩ := sessionChoice_free h (Config.sessionChoice d.free)
  unfold Dev.grantOpen
  extract_lets i nonce reply y _ _ e
  obtain ⟨⟨b, hb⟩, hother⟩ := transmit_session (d := e) hi y 0x02 0 reply
  exact ⟨i, { y with ackPending := b }, hi, hn, hb, rfl, rfl, rfl, rfl, rfl, rfl, rfl, rfl, rfl, hother⟩

section
variable {d : Dev} {g : OjpMsg} (hs : g.session = 0xFF#8) (hn : g.seq = 0#32) (hl : g.body.length = 32)
  (ho : d.openedBy g (openAsk g.body).nonce = none) (hk : (openAsk g.body).keyId = 0)
  (ha : d.rd Fld.NET_OJPCTRL.AuthRequired = 0) (ht : g.flags.toNat.testBit 0 = false)
include hs hn hl ho hk ha ht

theorem openSession_of_free (hf : d.freeSessions ≠ []) :
    d.openSession g = d.grantOpen g (openAsk g.body) d.freeSessions
      (pathMax g.ep.v6 (decide (d.rd (Fld.NET_PCTRL.Jumbo g.port.val) = 1))) := by
  simp [Dev.openSession, hs, hn, hl, ho, Dev.openAuthentic, hk, ha, msgTagged, ht, hf]

theorem openSession_of_full (hf : d.freeSessions = []) :
    d.openSession g = (d.sticky Fld.NET_OJPERR.SessionFull).refuseOpen g (openAsk g.body) 10
      (pathMax g.ep.v6 (decide (d.rd (Fld.NET_PCTRL.Jumbo g.port.val) = 1))) := by
  simp [Dev.openSession, hs, hn, hl, ho, Dev.openAuthentic, hk, ha, msgTagged, ht, hf]

end

end Sys2Proof.Machine
end

section
open Sys2Proof Sys2Proof.Machine

/-- Settles O16: with no damaged line the write adds none and reports none, and each byte of the store is as the host's
write leaves it. -/
theorem ojpWritesReachTheStore : Obligations.OjpWritesReachTheStore := by
  intro s g i x y d off
  refine ⟨?jobWrite, ?linkWrite⟩
  case jobWrite =>
    intro ht hi hsound hm t hf hn
    have hw := (Mem.hostWrite_undamaged hsound.1 t.now.sec off (g.body.drop 16)).1
    refine ⟨_, completes_inTurn rfl rfl ht hi
      ((performMsg_jobWrite (performing_authentic hi)).trans (performJobWrite_of_sound hsound hm hf hn)),
      hw.watermark, fun _ => hw.bad, fun a => ?_⟩
    rw [Mem.byte_hostWrite, List.length_drop]
    simp only [List.getD_eq_getElem?_getD, List.getElem?_drop]
    rfl
  case linkWrite =>
    intro ht hi hsound hm t hf
    have hl := length_of_linkWriteFail hf
    have hw := (Mem.hostWrite_undamaged hsound.1 t.now.sec off (natLE 8 (beAt g.body 8 8))).1
    refine ⟨_, completes_inTurn rfl rfl ht hi
      ((performMsg_linkWrite (performing_authentic hi)).trans (performLinkWrite_of_sound hsound hm hf)),
      hw.watermark, fun _ => hw.bad, fun a => ?_⟩
    rw [Mem.byte_hostWrite]
    refine if_ctx_congr Iff.rfl (fun ha => ?_) fun _ => rfl
    exact getD_linkValue hl (by have h2 : a < off + 8 := ha.2; omega)

/-- Settles O18: undamaged lines read as they are stored, and each reply is what its message's case says. -/
theorem ojpReadsAnswer : Obligations.OjpReadsAnswer := by
  intro s g i x y
  refine ⟨fun ht hi => ⟨fun hs hf => ?_, fun hl => ?_⟩, fun ht hi => ⟨fun hl hz hn hm => ?_, fun hb => ?_⟩⟩
  · exact completes_inTurn rfl rfl ht hi
      ((performMsg_jobRead (performing_authentic hi)).trans (by rw [performJobRead_of_sound hs hf]))
  · exact completes_inTurn rfl rfl ht hi
      ((performMsg_jobRead (performing_authentic hi)).trans (by rw [performJobRead_of_malformed hl]))
  · exact completes_inTurn rfl rfl ht hi
      ((performMsg_regRead (performing_authentic hi)).trans (congrArg (·, s.mem) (performRegRead_of_sound hl hz hn hm)))
  · exact completes_inTurn rfl rfl ht hi
      ((performMsg_regRead (performing_authentic hi)).trans (by rw [performRegRead_of_malformed hb]))

/-- Settles O19: the two orders in which a message is not performed. -/
theorem ojpPerformedNeverTwice : Obligations.OjpPerformedNeverTwice := by
  intro s g i x y ht d hy
  exact ⟨fun h => completes_sequenced rfl rfl ht hy (receiveSequenced_duplicate h),
    fun hb hh hn hw => completes_sequenced rfl rfl ht hy (receiveSequenced_beyond hb hh hn hw)⟩

/-- Settles O20: the Open passes the checks of its header, and the free numbers say which of its two answers it has.  That
an Open refused has its nonce drawn all the same is the model's choice (log 128). -/
theorem ojpOpenGrantsFreeSession : Obligations.OjpOpenGrantsFreeSession := by
  intro s g hr hf ha d top q hready hp hm hh hs hd hses hseq hl ho hk hauth ht
  have hc {e : Dev} (he : d.openSession g = e) : Completes (.openSession g) s e s.mem :=
    completes_live (f := fun d m => receiveMsg d m 0x01 g (.openSession g)) hr rfl
      (by rw [receiveMsg_open hf ha hready hp hm hh hs hd, he])
  refine ⟨fun hfree => ?_, fun hfull => hc (openSession_of_full hses hseq hl ho hk hauth ht hfull)⟩
  obtain ⟨i, y, h⟩ := grantOpen_leaves g q top hfree
  exact ⟨_, i, y, hc (openSession_of_free hses hseq hl ho hk hauth ht hfree), h⟩

/-- Settles O21: an acknowledgement is all that an Ack or an empty Keepalive brings (that an Ack's body is not looked at is
the model's choice, log 130), and each timer is a case of its function. -/
theorem ojpTimersAndAcks : Obligations.OjpTimersAndAcks := by
  refine ⟨fun s g i x ht => ?_, fun s g i x ht hb => ?_, fun s k y hr hy => ?_⟩
  · exact completes_unsequenced rfl rfl (by decide) (fun h => absurd h (by decide)) ht
  · exact completes_unsequenced rfl rfl (by decide) (fun _ => hb) ht
  · exact ⟨fun ha => completes_dev (f := fun d => d.ackDelay k.val) hr rfl (ackDelay_of_owed hy ha),
      fun ha => completes_dev (f := fun d => d.ackDelay k.val) hr rfl (ackDelay_of_not_owed hy ha),
      completes_dev (f := fun d => d.idleTimeout k.val) hr rfl (idleTimeout_of_open hy),
      fun n w hw hh hp => ⟨
        fun ht => completes_dev (f := fun d => d.retransmit k.val n) hr rfl (retransmit_of_exhausted hy hw hh hp ht),
        fun ht hc => completes_dev (f := fun d => d.retransmit k.val n) hr rfl (retransmit_again hy hw hh hp ht hc)⟩⟩

/-- Settles O22: the period's message and the wake frame. -/
theorem ojpTelemetryAndWake : Obligations.OjpTelemetryAndWake := by
  refine ⟨fun s k y hr hs hd hy => ?telemetry, fun s p f hr => ⟨fun hl hm hv hsel hk hz => ?valid, fun hm => ?other⟩⟩
  case telemetry =>
    have hc {e : Dev} (he : s.dev.telemetryPeriod k.val = e) : Completes (.telemetryPeriod k) s e s.mem :=
      completes_dev (f := fun d => d.telemetryDue (.telemetryPeriod k) k) hr rfl (by rw [telemetryDue_of_awake _ _ hs hd, he])
    exact ⟨fun ht => hc (telemetryPeriod_of_subscribed hy ht), fun ht => hc (telemetryPeriod_of_not_subscribed hy ht)⟩
  case valid => exact completes_dev (f := fun d => d.wakeFrame p f) hr rfl (wakeFrame_of_valid hl hm hv hsel hk hz)
  case other => exact completes_dev (f := fun d => d.wakeFrame p f) hr rfl (wakeFrame_of_other hm)

end

section
/-!
SUPPORT. A write of a shadow set's row, a chunk of the print record, the copy of a print set's part, and the firing of a
line event (R41, R118, R148, R168, R195, R216 to R222).
-/
namespace Sys2Proof.Machine

/-! ### A write of a row of a shadow set (R41) -/

/-- R41: a write of a shadow row that nothing discards stores the row's word and does nothing more. -/
theorem writeAccess_shadow {s : State} {path : Path} {finds : Finds} {a : Nat} {v : Word} {r : RegSpec} {i w : Nat}
    (h : Reaches s path a v) (ha : a % 4 = 0) (hh : holdsRegister s.dev.part a = true)
    (hs : silentRegister s.dev.part a = false) (hr : regSpecAt a = some (r, i, w)) (hset : r.set ≠ .none)
    (hv : BitVec.ofNat 32 (v.toNat &&& definedBits a) = v) (hb : (s.dev.met path a v).barPending a = none) :
    writeAccess path finds a v s.dev s.mem =
      ((s.dev.met path a v).keepReg a (storedWord (s.dev.met path a v).part r ((s.dev.met path a v).reg a) v), s.mem) := by
  have hp := row_all shadow_plain hr
  simp only [hset, decide_false, Bool.false_or, Bool.and_eq_true, Bool.not_eq_true'] at hp
  rw [writeAccess_row h ha hh hs hv (not_nzt hr) (not_thr hr) hr, writeReg_plain hp.1 hp.2 hb]

/-! ### A chunk of the print record (R148) -/

/-- R148: line records of plane `n` of a page are due to be sent. -/
def Page.recordDue (n : Nat) (p : Page) : Bool :=
  p.records.any (fun r => r.plane == n && !r.ended && (decide (64 ≤ r.lines.length) || r.finished))

/-- The bytes of line records (Table 33). -/
def recordBytes (l : List Bytes) : Nat := l.foldl (fun a l => a + l.length) 0

/-- R147: the compressed form of the device's next chunk. -/
def Dev.chunkData (d : Dev) (len : Nat) : Bytes := (Config.compressedChunk d.free).take (len + 5 * ceilDiv len 65535 + 13)

theorem chunkData_length (d : Dev) (len : Nat) : (d.chunkData len).length ≤ len + 5 * ceilDiv len 65535 + 13 :=
  List.length_take_le ..

theorem recordChunk_of_none {d : Dev} {n : Nat} (h : ∀ p ∈ d.job.pages, p.recordDue n = false) : d.recordChunk n = d := by
  have hf : d.job.pages.find? (Page.recordDue n) = none := List.find?_eq_none.2 fun p hp => by simp [h p hp]
  unfold Dev.recordChunk
  unfold Page.recordDue at hf
  rw [hf]

theorem recordChunk_of_due {d : Dev} {n : Nat} {p : Page} {r : RecordSt} (hp : d.job.pages.find? (Page.recordDue n) = some p)
    (hr : p.records.find? (fun r => r.plane == n) = some r) :
    d.recordChunk n =
      let data := d.chunkData (recordBytes (r.lines.take 64))
      let last := r.finished && (r.lines.drop 64).isEmpty
      r.waiting.foldl (fun d i =>
        match d.session i with
        | none => d
        | some y => Dev.sendRecord p n i y.recordMax last (data.length + 1) r.sentOffset data d)
        (d.draw.modRecord p.key n (fun q => { q with
          lines := r.lines.drop 64, sentOffset := q.sentOffset + data.length, ended := last })) := by
  unfold Dev.recordChunk
  unfold Page.recordDue at hp
  rw [hp]
  simp only [hr]
  rfl

/-! ### The copy of a print set's part (R168, R195) -/

/-- A merge of tables reads each key from the table whose keys have its side of a predicate. -/
theorem spGet_spMerge {α : Type} (d : α) (p : Nat → Bool) (a : Nat) (f : Nat) : ∀ (xs ys : List (Nat × α)),
    (∀ e ∈ xs, p e.1 = false) → (∀ e ∈ ys, p e.1 = true) →
    spGet d (spMerge f xs ys) a = if p a then spGet d ys a else spGet d xs a := by
  have hone (b : Bool) : ∀ l : List (Nat × α), (∀ e ∈ l, p e.1 = b) → p a ≠ b → spGet d l a = d := by
    intro l hl ha
    induction l with
    | nil => rfl
    | cons e l ih =>
      have he : e.1 ≠ a := fun h => ha (h ▸ hl e (List.mem_cons_self ..))
      rw [spGet, if_neg he, ih fun x hx => hl x (List.mem_cons_of_mem _ hx)]
  induction f with
  | zero =>
    intro xs ys hx hy
    rw [spMerge]
    induction xs with
    | nil =>
      cases h : p a with
      | true => rfl
      | false => exact hone true ys hy (by simp [h])
    | cons e xs ih =>
      have ih := ih fun x hm => hx x (List.mem_cons_of_mem _ hm)
      have he := hx e (List.mem_cons_self ..)
      rw [List.cons_append, spGet, spGet, ih]
      by_cases hk : e.1 = a
      · rw [if_pos hk, if_pos hk, if_neg (by rw [← hk, he]; decide)]
      · rw [if_neg hk, if_neg hk]
  | succ f ih =>
    intro xs ys hx hy
    cases xs with
    | nil =>
      cases h : p a with
      | true => rfl
      | false => exact hone true ys hy (by simp [h])
    | cons e xs =>
      cases ys with
      | nil =>
        cases h : p a with
        | true => exact hone false (e :: xs) hx (by simp [h])
        | false => rfl
      | cons k ys =>
        have hx' : ∀ x ∈ xs, p x.1 = false := fun x hm => hx x (List.mem_cons_of_mem _ hm)
        have hy' : ∀ y ∈ ys, p y.1 = true := fun y hm => hy y (List.mem_cons_of_mem _ hm)
        have he := hx e (List.mem_cons_self ..)
        have hk := hy k (List.mem_cons_self ..)
        rw [spMerge]
        split
        · rw [spGet, ih xs (k :: ys) hx' hy]
          by_cases ha : e.1 = a
          · rw [if_pos ha, if_neg (by rw [← ha, he]; decide), spGet, if_pos ha]
          · conv_rhs => rw [spGet.eq_2 (l := xs)]
            rw [if_neg ha, if_neg ha]
        · rw [spGet, ih (e :: xs) ys hx hy']
          by_cases ha : k.1 = a
          · rw [if_pos ha, if_pos (by rw [← ha, hk]), spGet, if_pos ha]
          · conv_rhs => rw [spGet.eq_2 (l := ys)]
            rw [if_neg ha, if_neg ha]

/-- A table that takes the part of another that a predicate names. -/
theorem spGet_replace (d : Word) (p : Nat → Bool) (a : Nat) (dst src : RegFile) :
    spGet d (dst.replace src p) a = if p a then spGet d src a else spGet d dst a := by
  unfold RegFile.replace
  rw [spGet_spMerge d p a _ _ _ (fun e he => by simpa using (List.mem_filter.1 he).2) (fun e he => (List.mem_filter.1 he).2)]
  cases h : p a with
  | true => rw [if_pos rfl, if_pos rfl, spGet_filter _ _ _ _ h]
  | false =>
    rw [if_neg (by decide), if_neg (by decide)]
    exact spGet_filter d a (fun k => !p k) dst (by simp [h])

/-- R168: the shadow copy of a part equals what is in force once it is copied. -/
theorem copyPart_reg (d : Dev) (p : Nat → Bool) (a : Nat) : (d.copyPart p).reg a = if p a then d.actReg a else d.reg a :=
  spGet_replace ..

theorem testBit_bit8 (n k : Nat) (h : n < 8) : (bit8 n).toNat.testBit k = decide (n = k) := by
  have hlt : 2 ^ n < 2 ^ 8 := Nat.pow_lt_pow_right (by decide) h
  rw [bit8, BitVec.toNat_ofNat, Nat.mod_eq_of_lt hlt, Nat.testBit_two_pow]

/-- A mask without bit `n`. -/
theorem testBit_clear8 (x : BitVec 8) {n k : Nat} (hn : n < 8) (hk : k < 8) :
    (x &&& ~~~(bit8 n)).toNat.testBit k = (x.toNat.testBit k && decide (k ≠ n)) := by
  have hc : (~~~(bit8 n)).toNat.testBit k = decide (k ≠ n) := by
    rw [BitVec.testBit_toNat, BitVec.getLsbD_not, ← BitVec.testBit_toNat, testBit_bit8 n k hn]
    simp [hk, eq_comm]
  rw [BitVec.toNat_and, Nat.testBit_and, hc]

/-- A mask with bit `n` set shares a bit with the mask of that bit alone. -/
theorem and_bit8_ne {x : BitVec 8} {n : Nat} (hn : n < 8) (h : x.toNat.testBit n = true) : x &&& bit8 n ≠ 0 := by
  intro he
  have hb : (x &&& bit8 n).toNat.testBit n = true := by
    rw [BitVec.toNat_and, Nat.testBit_and, h, testBit_bit8 n n hn]
    simp
  rw [he] at hb
  simp at hb

/-! ### A line event (R216, R217, R218) -/

/-- R217: where no strobe lies beyond the fire time, none is clipped. -/
theorem clip_of_none_beyond {d : Dev} {n f : Nat} (h : ∀ p ∈ d.portsOf n, ∀ t ∈ (d.port p).strobes, t.at256 ≤ f * 256) :
    d.clip n f = d := by
  unfold Dev.clip
  generalize d.portsOf n = l at h
  induction l with
  | nil => rfl
  | cons p l ih =>
    rw [List.foldl_cons]
    have hp := h p (List.mem_cons_self ..)
    have hstep : (match (d.port p).strobes with
        | s :: rest =>
          if d.roleDrives p = true ∧ f * 256 < s.at256 ∧ (d.plane n).state ≠ .stopped then
            let d := (d.bump Fld.LT_CLIPCNT.Count).sticky Fld.LT_ERR.StrobeClip
            (d.setPort p { d.port p with strobes := { s with at256 := f * 256 } :: rest }).strobe p
          else d
        | [] => d) = d := by
      split
      · next t _ ht => exact if_neg fun hc => Nat.not_lt.2 (hp t (by simp [ht])) hc.2.1
      · rfl
    refine Eq.trans ?_ (ih fun q hq => h q (List.mem_cons_of_mem _ hq))
    exact congrArg (fun x => List.foldl _ x l) hstep

/-- R218: when plane `n` fires its oldest due event: the event's own time, but no sooner than a period after the last. -/
def Dev.fireTime (d : Dev) (n : Nat) (e : LineEv) : Nat :=
  match (d.plane n).lastFire with
  | some t => max e.ns (t + d.period n)
  | none => e.ns

/-- R218: the plane with its oldest due event fired. -/
def PlaneLine.fired (x : PlaneLine) (e : LineEv) (f : Nat) : PlaneLine :=
  { x with due := x.due.tail, lastFire := some f, open_ := x.open_ ++ [⟨e.parts, e.count, []⟩] }

theorem dueTimes_of_due {d : Dev} {n : Nat} {e : LineEv} {rest : List LineEv} (hd : (d.plane n).due = e :: rest) :
    ∃ l, d.dueTimes n = (e, d.fireTime n e) :: l := by
  simp only [Dev.dueTimes, hd, fireTimes, List.zip_cons_cons]
  exact ⟨_, rfl⟩

/-- R216, R218: a running plane fires its oldest due event, and places a strobe on each of its ports. -/
theorem lineEvent_of_running {d : Dev} {n : Nat} {e : LineEv} {rest : List LineEv} (hd : (d.plane n).due = e :: rest)
    (hs : (d.plane n).state = .running)
    (hb : ∀ p ∈ d.portsOf n, ∀ t ∈ (d.port p).strobes, t.at256 ≤ d.fireTime n e * 256) :
    d.lineEvent n =
      ((d.portsOf n).foldl
        (fun g p => g.placeStrobe (d.fireTime n e) e.parts (d.strobeInterval n e (d.fireTime n e)) p)
        (d.setPlane n ((d.plane n).fired e (d.fireTime n e)))).lastLines n e.parts := by
  obtain ⟨l, hl⟩ := dueTimes_of_due hd
  have hfilter (ps : List Nat) : ps.filter (fun p => !([] : List Nat).contains p) = ps := List.filter_eq_self.2 fun _ _ => rfl
  have hports (y : PlaneLine) : (d.setPlane n y).portsOf n = d.portsOf n := rfl
  unfold Dev.lineEvent
  simp only [hl, clip_of_none_beyond hb, hd, hs, reduceCtorEq, if_false, decide_false, Bool.or_false, hports, hfilter,
    PlaneLine.fired, List.tail_cons]

/-- R218: a single device's line event is the firing alone. -/
theorem fireLine_of_single {d : Dev} {n : Nat} {e : LineEv} {rest : List LineEv} (hm : d.pair.mode = false)
    (hd : (d.plane n).due = e :: rest) : d.fireLine n = d.lineEvent n := by
  simp [Dev.fireLine, hd, hm]

theorem fireLine_of_nothing_due {d : Dev} {n : Nat} (h : (d.plane n).due = []) : d.fireLine n = d := by
  simp only [Dev.fireLine, h]

/-- R412: where no plane fired and no page began, no line event triggers a descriptor. -/
theorem dmaPrintEvents_self (d : Dev) (m : Mem) : dmaPrintEvents d (d, m) = (d, m) := by
  unfold dmaPrintEvents
  generalize List.range 8 = l
  induction l with
  | nil => rfl
  | cons n l ih =>
    rw [List.foldl_cons]
    simpa using ih

section
variable {d : Dev} {p n : Nat} {t : PlacedStrobe} {ts : List PlacedStrobe} (ht : (d.port p).strobes = t :: ts)
  (hp : d.planeOf p = some n) (hr : d.roleDrives p = true)
include ht hp hr

/-- R216: where no port is late, the port strobes. -/
theorem strobe_of_none_late (hl : d.latePort t.at256 = none) :
    d.strobe p = ((d.latPulse p).markStrobed n p t.parts).rearm := by
  simp only [Dev.strobe, ht, hp, hr, Bool.true_eq_false, if_false, hl]

/-- R222: a late port stops the line. -/
theorem strobe_of_late {q : Nat} {w : PlacedStrobe} (hl : d.latePort t.at256 = some (q, w)) :
    d.strobe p = d.dataLate ((d.planeOf q).getD n) q (evName w.parts) := by
  simp only [Dev.strobe, ht, hp, hr, Bool.true_eq_false, if_false, hl]

end

end Sys2Proof.Machine
end

section
open Sys2Proof Sys2Proof.Machine

/-- Settles O15: no row of a shadow set acts, so the write stores the row's word, in which each RW field has the bits
written.  That a bit outside the RW fields stays is the model's choice (log 141). -/
theorem registerWriteShadowCopy : Obligations.RegisterWriteShadowCopy := by
  intro s path a v r i w hreach ha hh hs hr hset hv d hb
  exact ⟨_, completes_live hreach.1 rfl (writeAccess_shadow hreach ha hh hs hr hset hv hb),
    testBit_storedWord _ _ _ _ hset (row_all fields_ok hr)⟩

/-- Settles O27: the chunk's compressed form is cut at the bound. -/
theorem recordChunkSent : Obligations.RecordChunkSent := by
  intro s n hr due
  have hc {e : Dev} (he : s.dev.recordChunk n.val = e) : Completes (.printRecordChunk n) s e s.mem :=
    completes_dev (f := fun d => d.recordChunk n.val) hr rfl he
  refine ⟨fun hnone => hc (recordChunk_of_none hnone), fun p r hp hrec => ?_⟩
  exact ⟨_, chunkData_length s.dev _, hc (recordChunk_of_due hp hrec)⟩

/-- Settles O29: the copy replaces the part in the shadow copy and touches nothing in force. -/
theorem printSetCopyCompletes : Obligations.PrintSetCopyCompletes := by
  intro s n hr
  refine ⟨fun h => ⟨_, completes_dev (f := fun d => d.corrCopyDone n.val) hr rfl (if_neg (and_bit8_ne n.isLt h)), ?_⟩,
    fun h => ⟨_, completes_dev (f := fun d => d.htCopyDone n.val) hr rfl (if_neg (and_bit8_ne n.isLt h)), ?_⟩⟩
  · exact ⟨fun _ => rfl, rfl, copyPart_reg s.dev _, fun k hk => testBit_clear8 _ n.isLt hk⟩
  · exact ⟨fun _ => rfl, rfl, copyPart_reg s.dev _, fun k hk => testBit_clear8 _ n.isLt hk⟩

/-- Settles O34: the firing clips nothing, the strobe asks for a late port first, and LAT falls.  Which port is named late,
and that one late port stops the line before any port strobes, are the model's choices (logs 51, 53). -/
theorem lineEventsFireAndStrobe : Obligations.LineEventsFireAndStrobe := by
  refine ⟨?fires, ?nothingDue, ?strobes, ?latFalls⟩
  case fires =>
    intro s n e rest hr hm hd hs x f hb d t y
    have hfire : s.dev.fireLine n.val = t.lastLines n.val e.parts := by
      rw [fireLine_of_single hm hd, lineEvent_of_running hd hs hb, PlaneLine.fired, hd]
      rfl
    have hy : dmaPrintEvents s.dev (s.dev.fireLine n.val, s.mem) = y := congrArg (fun g => dmaPrintEvents s.dev (g, s.mem)) hfire
    clear_value y
    exact completes_live (f := fun d m => dmaPrintEvents d (d.fireLine n.val, m)) hr rfl hy
  case nothingDue =>
    intro s n hr hd
    refine completes_live (f := fun d m => dmaPrintEvents d (d.fireLine n.val, m)) hr rfl ?_
    rw [fireLine_of_nothing_due hd, dmaPrintEvents_self]
  case strobes =>
    intro s p t ts n hr ht hp hdrives
    exact ⟨fun hl => completes_dev (f := fun d => d.strobe p.val) hr rfl (strobe_of_none_late ht hp hdrives hl),
      fun q w hl => completes_dev (f := fun d => d.strobe p.val) hr rfl (strobe_of_late ht hp hdrives hl)⟩
  case latFalls =>
    intro s p hr hp
    exact completes_dev (f := fun d => d.latFell p.val) hr rfl (if_neg (by simp [hp]))

end

section
/-!
SUPPORT. The notice and telemetry queues, the service port and the firing counts (R427 to R432, R487 to R495).
-/
namespace Sys2Proof.Machine

/-! ### Reads of the queues (R430) -/

/-- A read of word 0 of a notice queue pops the queue; the service port reaches it even before the stoker is released. -/
theorem readAccess_TRB_NQDATA (d : Dev) (q : Fin 4) : d.readAccess (Adr.TRB_NQDATA q.val 0) = d.popNotice q.val := by
  have hrow : ReadRow (Adr.TRB_NQDATA q.val 0) (Adr.TRB_NQDATA 0 0) q.val := by
    fin_cases q <;> exact ⟨rfl, rfl, rfl, _, rfl, rfl⟩
  have hearly : earlyBlock (Adr.TRB_NQDATA q.val 0) = true := by fin_cases q <;> rfl
  have hreach : d.serviceReaches (Adr.TRB_NQDATA q.val 0) = true := by rw [Dev.serviceReaches, hearly, Bool.or_true]
  obtain ⟨r, hb, hr, he⟩ := readAccess_row hrow hreach
    (by cases d.part <;> fin_cases q <;> rfl) (by cases d.part <;> fin_cases q <;> rfl)
  rw [he, if_neg (by fin_cases q <;> decide), Dev.readEffect, hr]
  simp [hb, Adr.LT_POSLO, Adr.LT_HWMLO, Adr.LT_IDXLO, Adr.LT_BTGTLO, Adr.LT_PRBLATLO, Adr.TIME_SECLO, Adr.TIME_EXSEQ,
    Adr.TRB_NQDATA]

theorem readRow_TEL_QDATA : ReadRow (Adr.TEL_QDATA 0) (Adr.TEL_QDATA 0) 0 := ⟨rfl, rfl, rfl, _, rfl, rfl⟩
theorem readRow_TEL_FCLO : ReadRow Adr.TEL_FCLO Adr.TEL_FCLO 0 := ⟨rfl, rfl, rfl, _, rfl, rfl⟩

/-- R437: once the stoker is released, every register is reached. -/
theorem serviceReaches_of_stokerUp {d : Dev} (h : d.boot.stokerUp = true) (a : Nat) : d.serviceReaches a = true := by
  simp [Dev.serviceReaches, h]

theorem readAccess_TEL_QDATA {d : Dev} (h : d.boot.stokerUp = true) : d.readAccess (Adr.TEL_QDATA 0) = d.popTel := by
  obtain ⟨r, hb, hr, he⟩ := readAccess_row readRow_TEL_QDATA (serviceReaches_of_stokerUp h _)
    (by cases d.part <;> rfl) (by cases d.part <;> rfl)
  rw [he, if_neg (by decide), Dev.readEffect, hr]
  simp [hb, Adr.LT_POSLO, Adr.LT_HWMLO, Adr.LT_IDXLO, Adr.LT_BTGTLO, Adr.LT_PRBLATLO, Adr.TIME_SECLO, Adr.TIME_EXSEQ,
    Adr.TRB_NQDATA, Adr.TEL_QDATA]

theorem readAccess_TEL_FCLO {d : Dev} (h : d.boot.stokerUp = true) : d.readAccess Adr.TEL_FCLO = d.captureCount := by
  obtain ⟨r, hb, hr, he⟩ := readAccess_row readRow_TEL_FCLO (serviceReaches_of_stokerUp h _)
    (by cases d.part <;> rfl) (by cases d.part <;> rfl)
  rw [he, if_neg (by decide), Dev.readEffect, hr]
  simp [hb, Adr.LT_POSLO, Adr.LT_HWMLO, Adr.LT_IDXLO, Adr.LT_BTGTLO, Adr.LT_PRBLATLO, Adr.TIME_SECLO, Adr.TIME_EXSEQ,
    Adr.TRB_NQDATA, Adr.TEL_QDATA, Adr.TRB_RECDATA, Adr.TEL_FCLO]

theorem popNotice_of_empty {d : Dev} {q : Nat} (h : (d.queue q).entries = []) :
    d.popNotice q = d.sticky (Fld.TRB_NQSTAT.Underrun q) := by
  simp only [Dev.popNotice, h]

theorem popNotice_of_cons {d : Dev} {q : Nat} {n : Notice} {rest : List Notice} (h : (d.queue q).entries = n :: rest) :
    d.popNotice q = d.setQueue q ⟨rest, n.body⟩ := by
  simp only [Dev.popNotice, h]

theorem popTel_of_empty {d : Dev} (h : d.rep.telQueue = []) : d.popTel = d.sticky Fld.TEL_QSTAT.Underrun := by
  simp only [Dev.popTel, h]

theorem popTel_of_cons {d : Dev} {b : Bytes} {rest : List Bytes} (h : d.rep.telQueue = b :: rest) :
    d.popTel = { d with rep := { d.rep with telQueue := rest, telCapture := b } } := by
  simp only [Dev.popTel, h]

/-! ### Timeouts (R429) -/

theorem queueTimeout_of_empty {d : Dev} {q : Nat} (h : (d.queue q).entries = []) : d.queueTimeout q = d :=
  if_neg fun hc => hc.2 h

theorem queueTimeout_of_not_pushed {d : Dev} {q : Nat} (h : d.rd (Fld.TRB_NQCFG.PushEn q) = 0) : d.queueTimeout q = d :=
  if_neg fun hc => by simp [h] at hc

theorem queueTimeout_of_pushed {d : Dev} {q : Nat} {n : Notice} {rest : List Notice} (hq : (d.queue q).entries = n :: rest)
    (h : d.rd (Fld.TRB_NQCFG.PushEn q) = 1) :
    d.queueTimeout q = (n :: rest).foldl Dev.pushNotice (d.setQueue q ⟨[], (d.queue q).capture⟩) := by
  rw [Dev.queueTimeout, if_pos ⟨h, by simp [hq]⟩, Dev.drainQueue, hq]

/-! ### What a notice leaves of the other queues -/

@[simp] theorem sendFrame_rep (d : Dev) (p : Fin 4) (o : Out) : (d.sendFrame p o).rep = d.rep := by
  unfold Dev.sendFrame
  split <;> rfl

@[simp] theorem transmit_rep (d : Dev) (i : Nat) (y : Session) (kind seq : Nat) (b : Bytes) :
    (d.transmit i y kind seq b).rep = d.rep := by
  unfold Dev.transmit
  split
  · rw [sendFrame_rep]; rfl
  · rfl

@[simp] theorem sendSeq_rep (d : Dev) (i kind : Nat) (b : Bytes) (p : Option (Nat × Nat)) :
    (d.sendSeq i kind b p).rep = d.rep := by
  unfold Dev.sendSeq
  split
  · rfl
  · split
    · exact transmit_rep ..
    · rfl

@[simp] theorem pushNotice_rep (d : Dev) (n : Notice) : (d.pushNotice n).rep = d.rep := by
  unfold Dev.pushNotice
  split
  · rfl
  · exact foldl_keeps (fun e : Dev => e.rep = d.rep) (fun e i => e.sendSeq i 0x40 n.body none)
      (fun _ _ h => (sendSeq_rep ..).trans h) _ _ rfl

theorem queue_congr {d e : Dev} (h : e.rep = d.rep) (q : Nat) : e.queue q = d.queue q := by rw [Dev.queue, h]; rfl

theorem drainQueue_queue_ne (d : Dev) {q k : Nat} (h : k ≠ q) : (d.drainQueue q).queue k = d.queue k := by
  have hk : (d.drainQueue q).rep = (d.setQueue q { d.queue q with entries := [] }).rep :=
    foldl_keeps (fun e : Dev => e.rep = (d.setQueue q { d.queue q with entries := [] }).rep) Dev.pushNotice
      (fun _ _ h => (pushNotice_rep ..).trans h) _ _ rfl
  rw [queue_congr hk, queue_setQueue_ne _ h]

/-- R428: a notice enters the queue of its source, and leaves each other queue as it was. -/
theorem enqueue_queue_ne (d : Dev) {n : Notice} {k : Nat} (h : k ≠ queueOf n.source) :
    (d.enqueue n).queue k = d.queue k := by
  unfold Dev.enqueue
  extract_lets q x e
  split
  · exact queue_congr rfl k
  · split
    · rw [drainQueue_queue_ne _ h]
      exact queue_setQueue_ne _ h _
    · exact queue_setQueue_ne _ h _

theorem noticeTrouble_queue_ne (d : Dev) {k : NoticeKind} {q : Nat} (items : List (Nat × Nat)) (h : q ≠ queueOf k.source) :
    (d.noticeTrouble k items).queue q = d.queue q := by
  have ht : (d.trouble k items).queue q = d.queue q := by
    unfold Dev.trouble Dev.troubleBytes Dev.queue
    rfl
  rw [Dev.noticeTrouble, Dev.notice, Dev.noticeAt, enqueue_queue_ne _ h, ht]

/-! ### Resets (R427) -/

section
variable (d : Dev)

/-- R427: a reset of a notice queue. -/
theorem queueReset_notices (q : Fin 4) : d.queueReset q.val =
    ((d.setQueue q.val ⟨[], (d.queue q.val).capture⟩).bumpSat (Fld.TRB_NQSTAT.Lost q.val)
      (d.queue q.val).entries.length).noticeTrouble Nt.QueueReset [(1, q.val), (4, (d.queue q.val).entries.length)] :=
  if_pos q.isLt

theorem queueReset_telemetry : d.queueReset 4 =
    ({ d with rep := { d.rep with telQueue := [] } }.bumpSat Fld.TEL_QSTAT.Lost d.rep.telQueue.length).noticeTrouble
      Nt.QueueReset [(1, 4), (4, d.rep.telQueue.length)] := rfl

theorem queueReset_port (p : Fin 64) : d.queueReset (5 + p.val) =
    (d.emptyPort p.val).noticeTrouble Nt.QueueReset [(1, 5 + p.val), (4, (d.port p.val).queue.length)] := by
  have hp := p.isLt
  unfold Dev.queueReset
  rw [if_neg (by omega), if_neg (by omega), if_pos (by omega), Nat.add_sub_cancel_left]
  rfl

/-- R427: an emptied line queue holds no entry. -/
theorem emptyPort_queue (p : Fin 64) : ((d.emptyPort p.val).port p.val).queue = [] := by
  unfold Dev.emptyPort
  extract_lets x e
  have he : (e.port p.val).queue = [] := by rw [port_setPort_same _ p.isLt]
  split <;> exact he

end

/-! ### Samples (R432, R487) -/

/-- What adding records to the telemetry queue changes: the queue, which keeps the latest, and the count of what it
dropped. -/
structure TelPushed (d e : Dev) (queue : List Bytes) (lost : Nat) : Prop where
  fields : e = { d with win := e.win, rep := e.rep }
  rep : e.rep = { d.rep with telQueue := queue }
  only : OnlyFields [Fld.TEL_QSTAT.Lost] d e
  count : e.rd Fld.TEL_QSTAT.Lost = min 0xFFFF (d.rd Fld.TEL_QSTAT.Lost + lost)

theorem TelPushed.trans {a b c : Dev} {q r : List Bytes} {m n : Nat} (h : TelPushed a b q m) (k : TelPushed b c r n) :
    TelPushed a c r (m + n) where
  fields := by rw [k.fields, h.fields]
  rep := by rw [k.rep, h.rep]
  only := h.only.trans k.only
  count := by
    rw [k.count, h.count]
    omega

/-- R432: one record enters the queue, and a full queue drops its oldest. -/
theorem pushTel_pushed (d : Dev) (b : Bytes) :
    TelPushed d (d.pushTel b) ((d.rep.telQueue ++ [b]).drop (if 32 ≤ d.rep.telQueue.length then 1 else 0))
      (if 32 ≤ d.rep.telQueue.length then 1 else 0) := by
  have hmax : d.rd Fld.TEL_QSTAT.Lost ≤ 0xFFFF := Nat.le_of_lt_succ (rd_lt d Fld.TEL_QSTAT.Lost)
  unfold Dev.pushTel
  extract_lets q
  by_cases h : 32 ≤ q.length
  · rw [if_pos h, if_pos h]
    have hdrop : (q ++ [b]).drop 1 = q.drop 1 ++ [b] := List.drop_append_of_le_length (by omega)
    refine ⟨rfl, by rw [bumpSat_rep, hdrop], ?_, ?_⟩
    · exact (OnlyFields.of_win rfl rfl).trans (onlyFields_wr _ _ _ rfl)
    · rw [Dev.bumpSat, rd_wr_same _ _ _ rfl]
      exact Nat.mod_eq_of_lt (Nat.lt_of_le_of_lt (Nat.min_le_left ..) (by decide))
  · rw [if_neg h, if_neg h]
    exact ⟨rfl, rfl, OnlyFields.of_win rfl rfl, (Nat.min_eq_right hmax).symm⟩

/-- R432, R487: records enter the queue one after another; it keeps the latest 32 and counts what it drops. -/
theorem pushTels_pushed (new : List Bytes) : ∀ d : Dev,
    let lost := min new.length (d.rep.telQueue.length + new.length - 32)
    TelPushed d (new.foldl Dev.pushTel d) ((d.rep.telQueue ++ new).drop lost) lost := by
  induction new with
  | nil =>
    intro d
    have hmax : d.rd Fld.TEL_QSTAT.Lost ≤ 0xFFFF := Nat.le_of_lt_succ (rd_lt d Fld.TEL_QSTAT.Lost)
    simp only [List.length_nil, Nat.zero_min, List.append_nil, List.drop_zero, List.foldl_nil]
    exact ⟨rfl, rfl, OnlyFields.refl _ d, (Nat.min_eq_right hmax).symm⟩
  | cons b new ih =>
    intro d
    have hone := pushTel_pushed d b
    have h := hone.trans (ih (d.pushTel b))
    rw [List.foldl_cons]
    have hq : (d.pushTel b).rep.telQueue =
        (d.rep.telQueue ++ [b]).drop (if 32 ≤ d.rep.telQueue.length then 1 else 0) := by rw [hone.rep]
    rw [hq] at h
    by_cases hl : 32 ≤ d.rep.telQueue.length
    · simp only [if_pos hl, List.length_drop, List.length_append, List.length_cons, List.length_nil] at h ⊢
      have e1 : 1 + min new.length (d.rep.telQueue.length + (0 + 1) - 1 + new.length - 32) =
          min (new.length + 1) (d.rep.telQueue.length + (new.length + 1) - 32) := by omega
      rw [e1, ← List.drop_append_of_le_length (by simp), List.drop_drop, e1] at h
      simpa using h
    · simp only [if_neg hl, List.length_append, List.length_cons, List.length_nil, List.drop_zero, Nat.zero_add] at h ⊢
      have e1 : min new.length (d.rep.telQueue.length + 1 + new.length - 32) =
          min (new.length + 1) (d.rep.telQueue.length + (new.length + 1) - 32) := by omega
      rw [e1] at h
      simpa using h

theorem telSample_stopped {d : Dev} (h : d.rd Fld.TEL_QCFG.Period = 0) : d.telSample = d := if_pos h

theorem telSample_pushed {d : Dev} (h : d.rd Fld.TEL_QCFG.Period ≠ 0) :
    let new := (d.telRecords (d.rd Fld.TEL_QCFG.Types)).map (·.2)
    let lost := min new.length (d.rep.telQueue.length + new.length - 32)
    TelPushed d d.telSample ((d.rep.telQueue ++ new).drop lost) lost := by
  have hf : d.telSample = ((d.telRecords (d.rd Fld.TEL_QCFG.Types)).map (·.2)).foldl Dev.pushTel d := by
    rw [Dev.telSample, if_neg h, List.foldl_map]
  rw [hf]
  exact pushTels_pushed _ d

/-! ### The service port (R491 to R495) -/

theorem beAt_first (cmd : Byte) (req : Bytes) : beAt (cmd :: req) 0 1 = cmd.toNat := by
  simp [beAt, sliceB, beNat]

theorem servicePort_badCommand {d : Dev} {m : Mem} {req : Bytes} (h1 : beAt req 0 1 ≠ 1) (h2 : beAt req 0 1 ≠ 2)
    (hr : req ≠ []) : servicePort d m req = (d.badCommand, m) := by
  obtain ⟨cmd, rest, rfl⟩ := List.exists_cons_of_ne_nil hr
  rw [beAt_first] at h1 h2
  have hc1 : cmd ≠ 1 := fun h => h1 (by rw [h]; rfl)
  have hc2 : cmd ≠ 2 := fun h => h2 (by rw [h]; rfl)
  simp only [servicePort, if_neg hc1, if_neg hc2]

/-- The first byte of a request as its number. -/
theorem exists_cons_of_cmd {req : Bytes} {k : Nat} (h : beAt req 0 1 = k) (hl : req.length ≠ 0) :
    ∃ rest, req = BitVec.ofNat 8 k :: rest := by
  obtain ⟨cmd, rest, rfl⟩ := List.exists_cons_of_ne_nil (List.ne_nil_of_length_pos (Nat.pos_of_ne_zero hl))
  rw [beAt_first] at h
  refine ⟨rest, by rw [← h]; simp⟩

theorem servicePort_read {d : Dev} {m : Mem} {req : Bytes} (h : beAt req 0 1 = 1) (hl : req.length = 6) :
    servicePort d m req = (d.serviceRead req, m) := by
  obtain ⟨rest, rfl⟩ := exists_cons_of_cmd h (by omega)
  simp only [servicePort, BitVec.ofNat_eq_ofNat, if_true, hl, Nat.lt_irrefl, if_false]

theorem servicePort_write {d : Dev} {m : Mem} {req : Bytes} (h : beAt req 0 1 = 2) (hl : req.length = 10) :
    servicePort d m req = serviceWrite d m req := by
  obtain ⟨rest, rfl⟩ := exists_cons_of_cmd h (by omega)
  have h21 : (2#8 : Byte) ≠ 1#8 := by decide
  simp only [servicePort, BitVec.ofNat_eq_ofNat, if_true, hl, Nat.lt_irrefl, if_false, h21]

section
variable {d : Dev} {len : Nat} {req : Bytes}

theorem serviceBar_crc (h : crc8 (req.take (len - 1)) ≠ beAt req (len - 1) 1) : d.serviceBar len req = 1 := if_pos h

theorem serviceBar_unaligned (h : crc8 (req.take (len - 1)) = beAt req (len - 1) 1) (ha : beAt req 1 4 % 4 ≠ 0) :
    d.serviceBar len req = 2 := by
  simp [Dev.serviceBar, h, ha]

theorem serviceBar_asleep (h : crc8 (req.take (len - 1)) = beAt req (len - 1) 1) (ha : beAt req 1 4 % 4 = 0)
    (hr : d.serviceReaches (beAt req 1 4) = true) (hw : d.serviceWakes (beAt req 1 4) = true) : d.serviceBar len req = 4 := by
  simp [Dev.serviceBar, h, ha, hr, hw]

theorem serviceBar_none (h : crc8 (req.take (len - 1)) = beAt req (len - 1) 1) (ha : beAt req 1 4 % 4 = 0)
    (hr : d.serviceReaches (beAt req 1 4) = true) (hw : d.serviceWakes (beAt req 1 4) = false) : d.serviceBar len req = 0 := by
  simp [Dev.serviceBar, h, ha, hr, hw]

end

theorem serviceRead_refused {d : Dev} {req : Bytes} {st : Nat} (h : (d.wake 1 6).serviceBar 6 req = st) (hs : st ≠ 0) :
    d.serviceRead req = (d.wake 1 6).serviceRefuse st := by
  unfold Dev.serviceRead
  obtain ⟨k, rfl⟩ := Nat.exists_eq_succ_of_ne_zero hs
  simp only [h]

theorem serviceRead_performed {d : Dev} {req : Bytes} (h : (d.wake 1 6).serviceBar 6 req = 0) :
    d.serviceRead req = (windowRead (d.wake 1 6) (beAt req 1 4)).2.2.emit (.service (serviceResponse
      (serviceStatus (windowRead (d.wake 1 6) (beAt req 1 4)).1) (windowRead (d.wake 1 6) (beAt req 1 4)).2.1.toNat)) := by
  unfold Dev.serviceRead
  simp only [h]

theorem serviceWrite_refused {d : Dev} {m : Mem} {req : Bytes} {st : Nat} (h : (d.wake 1 6).serviceBar 10 req = st)
    (hs : st ≠ 0) : serviceWrite d m req = ((d.wake 1 6).serviceRefuse st, m) := by
  unfold serviceWrite
  obtain ⟨k, rfl⟩ := Nat.exists_eq_succ_of_ne_zero hs
  simp only [h]

theorem serviceWrite_performed {d : Dev} {m : Mem} {req : Bytes} (h : (d.wake 1 6).serviceBar 10 req = 0) :
    serviceWrite d m req =
      let r := windowWrite (d.wake 1 6) m .service [] (beAt req 1 4) (BitVec.ofNat 32 (beAt req 5 4))
      (r.2.1.emit (.service (serviceResponse (serviceStatus r.1) (if r.1 = stOk then beAt req 5 4 else 0))), r.2.2) := by
  unfold serviceWrite
  simp only [h]

/-! ### Firing counts (R489) -/

/-- R489: adding the pulses of a list of entries to the counts leaves the count of a nozzle without one. -/
theorem spGet_addCounts_none (z : Nat) (l : List (Nat × Nat)) (h : ∀ e ∈ l, e.1 ≠ z) : ∀ c : List (Nat × Nat),
    spGet 0 (l.foldl (fun c e => spPut 0 e.1 (min (2 ^ 48 - 1) (spGet 0 c e.1 + e.2)) c) c) z = spGet 0 c z := by
  induction l with
  | nil => exact fun _ => rfl
  | cons e l ih =>
    intro c
    rw [List.foldl_cons, ih (fun x hx => h x (List.mem_cons_of_mem _ hx)),
      spGet_spPut_ne _ _ _ (Ne.symm (h e (List.mem_cons_self ..)))]

/-- R489: a nozzle with at most one entry in a list has its pulses added to its count. -/
theorem spGet_addCounts (z : Nat) (l : List (Nat × Nat)) (h : (l.filter (fun x => x.1 == z)).length ≤ 1) :
    ∀ c : List (Nat × Nat), min (2 ^ 48 - 1)
      (spGet 0 (l.foldl (fun c e => spPut 0 e.1 (min (2 ^ 48 - 1) (spGet 0 c e.1 + e.2)) c) c) z) =
        min (2 ^ 48 - 1) (spGet 0 c z + spGet 0 l z) := by
  induction l with
  | nil => exact fun _ => rfl
  | cons e l ih =>
    intro c
    obtain ⟨k, v⟩ := e
    by_cases hk : k = z
    · subst hk
      have hnone : ∀ x ∈ l, x.1 ≠ k := by
        intro x hx hxk
        have hm : x ∈ l.filter (fun x => x.1 == k) := List.mem_filter.2 ⟨hx, by simp [hxk]⟩
        have hpos := List.length_pos_of_mem hm
        simp at h
        exact absurd hxk (h x.1 x.2 hx)
      rw [List.foldl_cons, spGet_addCounts_none k l hnone, spGet_spPut_same, spGet, if_pos rfl]
      exact Nat.min_eq_right (Nat.min_le_left ..)
    · have hl : (l.filter (fun x => x.1 == z)).length ≤ 1 := by
        simpa [List.filter_cons, hk] using h
      rw [List.foldl_cons, ih hl, spGet_spPut_ne _ _ _ (Ne.symm hk), spGet.eq_2, if_neg hk]

/-- R489: folding a port's counts keeps the count of every nozzle that has one entry at most. -/
theorem foldCounts_firingCount (d : Dev) (p z : Nat) (h : (d.fire.acc.filter (fun x => x.1 == z)).length ≤ 1) :
    (d.foldCounts p).firingCount z = d.firingCount z := by
  unfold Dev.firingCount Dev.foldCounts
  dsimp only
  by_cases hz : z / 4096 = p
  · have hmine : (((d.fire.acc.filter (fun e => e.1 / 4096 == p)).filter (fun x => x.1 == z))).length ≤ 1 := by
      rw [List.filter_comm]
      exact Nat.le_trans (List.length_filter_le ..) h
    have hin : spGet 0 (d.fire.acc.filter (fun e => e.1 / 4096 == p)) z = spGet 0 d.fire.acc z :=
      spGet_filter 0 z (fun k => k / 4096 == p) _ (by simp [hz])
    have hout : spGet 0 (d.fire.acc.filter (fun e => e.1 / 4096 != p)) z = 0 :=
      spGet_filter_none 0 z (fun k => k / 4096 != p) _ (by simp [hz])
    rw [hout, Nat.add_zero, spGet_addCounts z _ hmine, hin]
  · have hnone : ∀ e ∈ d.fire.acc.filter (fun e => e.1 / 4096 == p), e.1 ≠ z := by
      intro e he hez
      have := (List.mem_filter.1 he).2
      rw [hez] at this
      exact hz (by simpa using this)
    have hin : spGet 0 (d.fire.acc.filter (fun e => e.1 / 4096 != p)) z = spGet 0 d.fire.acc z :=
      spGet_filter 0 z (fun k => k / 4096 != p) _ (by simpa using hz)
    rw [spGet_addCounts_none z _ hnone, hin]

end Sys2Proof.Machine
end

section
open Sys2Proof Sys2Proof.Machine

/-- Settles O46: each command of a queue is a case of its function, and the records of a sample enter their queue one by
one. -/
theorem queuesReadAndReset : Obligations.QueuesReadAndReset := by
  refine ⟨fun s q hr => ?notices, fun s hr => ?telemetry⟩
  case notices =>
    intro x
    have hread {e : Dev} (he : s.dev.popNotice q.val = e) : Completes (.trbNqdataRead q) s e s.mem :=
      completes_dev (f := fun d => d.readAccess (Adr.TRB_NQDATA q.val 0)) hr rfl (by rw [readAccess_TRB_NQDATA, he])
    have htime {e : Dev} (he : s.dev.queueTimeout q.val = e) : Completes (.noticeQueueTimeout q) s e s.mem :=
      completes_dev (f := fun d => d.queueTimeout q.val) hr rfl he
    refine ⟨fun h => ⟨hread (popNotice_of_empty h), htime (queueTimeout_of_empty h)⟩,
      fun n rest h => ⟨hread (popNotice_of_cons h), fun hp => htime (queueTimeout_of_not_pushed hp),
        fun hp => htime (queueTimeout_of_pushed h hp)⟩, ?_⟩
    have hle : q.val ≤ 70 := by omega
    refine ⟨_, completes_dev (f := fun d => if q.val ≤ 70 then d.queueReset q.val else d) hr rfl (if_pos hle),
      queueReset_notices s.dev q, fun hq => ?_⟩
    have hne : q.val ≠ queueOf Nt.QueueReset.source := fun h => hq (Fin.ext h)
    rw [queueReset_notices, noticeTrouble_queue_ne _ _ hne]
    have hrep : (s.dev.setQueue q.val ⟨[], (s.dev.queue q.val).capture⟩).queue q.val = ⟨[], (s.dev.queue q.val).capture⟩ :=
      queue_setQueue_same _ q.isLt _
    exact congrArg NoticeQueue.entries ((queue_congr rfl _).trans hrep)
  case telemetry =>
    have hreset (q : Nat) (hq : q ≤ 70) {e : Dev} (he : s.dev.queueReset q = e) : Completes (.queueReset q) s e s.mem :=
      completes_dev (f := fun d => if q ≤ 70 then d.queueReset q else d) hr rfl (by rw [if_pos hq, he])
    have hsample {e : Dev} (he : s.dev.telSample = e) : Completes .telemetrySample s e s.mem :=
      completes_dev (f := Dev.telSample) hr rfl he
    refine ⟨fun hup => ?_, fun hp => hsample (telSample_stopped hp), fun hp => ?_, hreset 4 (by decide) (queueReset_telemetry _),
      fun p => ⟨hreset _ (by omega) (queueReset_port _ p), emptyPort_queue _ p⟩, fun q hq => ?_⟩
    · have hread {e : Dev} (he : s.dev.popTel = e) : Completes .telQdataRead s e s.mem :=
        completes_dev (f := fun d => d.readAccess (Adr.TEL_QDATA 0)) hr rfl (by rw [readAccess_TEL_QDATA hup, he])
      exact ⟨fun h => hread (popTel_of_empty h), fun b rest h => hread (popTel_of_cons h)⟩
    · have h := telSample_pushed hp
      exact ⟨_, hsample rfl, h.fields, h.rep, h.only, h.count⟩
    · exact completes_dev (f := fun d => if q ≤ 70 then d.queueReset q else d) hr rfl (if_neg (by omega))

/-- Settles O48: the status that bars a request says what becomes of it, and what is folded leaves one list for the
other. -/
theorem servicePortAndCounts : Obligations.ServicePortAndCounts := by
  refine ⟨fun s req hr => ?port, fun s hr => ?counts⟩
  case port =>
    intro d a
    have hread {e : Dev} (hcmd : beAt req 0 1 = 1) (hl : req.length = 6) (he : s.dev.serviceRead req = e) :
        Completes (.serviceRead req) s e s.mem :=
      completes_live (f := fun d m => servicePort d m req) hr rfl (by rw [servicePort_read hcmd hl, he])
    have hwrite {e : Dev} {m : Mem} (hcmd : beAt req 0 1 = 2) (hl : req.length = 10)
        (he : serviceWrite s.dev s.mem req = (e, m)) : Completes (.serviceWrite req) s e m :=
      completes_live (f := fun d m => servicePort d m req) hr rfl (by rw [servicePort_write hcmd hl, he])
    refine ⟨rfl, fun h1 h2 hn => ?_, fun hcmd hl => ⟨fun hc => ?_, fun hc ha => ?_, fun hc ha hre hw => ?_,
      fun hc ha hre hw => ?_⟩, fun hcmd hl => ⟨fun hc => ?_, fun hc ha hre hw => ?_⟩⟩
    · exact completes_live (f := fun d m => servicePort d m req) hr rfl (servicePort_badCommand h1 h2 hn)
    · exact hread hcmd hl (serviceRead_refused (serviceBar_crc hc) (by decide))
    · exact hread hcmd hl (serviceRead_refused (serviceBar_unaligned hc ha) (by decide))
    · exact hread hcmd hl (serviceRead_refused (serviceBar_asleep hc ha hre hw) (by decide))
    · exact hread hcmd hl (serviceRead_performed (serviceBar_none hc ha hre hw))
    · exact hwrite hcmd hl (serviceWrite_refused (serviceBar_crc hc) (by decide))
    · exact hwrite hcmd hl (serviceWrite_performed (serviceBar_none hc ha hre hw))
  case counts =>
    refine ⟨fun temp => completes_dev (f := fun d => d.tjUpdate temp.toNat) hr rfl rfl, fun hup => ?_,
      fun port => ⟨_, completes_dev (f := fun d => d.foldCounts port.val) hr rfl rfl, rfl, fun x hx => ?_,
        fun z hz => foldCounts_firingCount _ _ z hz⟩⟩
    · exact completes_dev (f := fun d => d.readAccess Adr.TEL_FCLO) hr rfl (readAccess_TEL_FCLO hup)
    · simpa using (List.mem_filter.1 hx).2

end

section
/-!
SUPPORT. The line code, the sweeper, live lines and the remap table (R389 to R405).
-/
namespace Sys2Proof.Machine

/-! ### The line code (R389 to R391) -/

/-- A byte with bit 7 clear doubles to an even number, one with bit 7 set to an odd one; either way within a byte. -/
theorem gfDouble_inj {a b : Nat} (ha : a < 256) (hb : b < 256) (h : gfDouble a = gfDouble b) : a = b := by
  have hodd (x : Nat) : ((2 * x) % 256 ^^^ 0x1D) % 2 = 1 := by
    rw [Nat.xor_mod_two_eq]
    omega
  have hx := hodd a
  have hy := hodd b
  unfold gfDouble at h
  split at h <;> split at h
  · have hc : (2 * a) % 256 = (2 * b) % 256 := Nat.xor_left_inj.1 h
    omega
  · omega
  · omega
  · omega

theorem gfDouble_lt {a : Nat} (h : a < 256) : gfDouble a < 256 := by
  unfold gfDouble
  split
  · exact Nat.xor_lt_two_pow (n := 8) (Nat.mod_lt _ (by decide)) (by decide)
  · omega

theorem gfShift_lt (j : Nat) : ∀ {a : Nat}, a < 256 → gfShift j a < 256 := by
  induction j with
  | zero => exact fun h => h
  | succ j ih => exact fun h => ih (gfDouble_lt h)

theorem gfShift_add (i j : Nat) : ∀ a, gfShift (i + j) a = gfShift i (gfShift j a) := by
  induction j with
  | zero => exact fun _ => rfl
  | succ j ih => exact fun a => ih (gfDouble a)

theorem gfShift_inj (j : Nat) : ∀ {a b : Nat}, a < 256 → b < 256 → gfShift j a = gfShift j b → a = b := by
  induction j with
  | zero => exact fun _ _ h => h
  | succ j ih => exact fun ha hb h => gfDouble_inj ha hb (ih (gfDouble_lt ha) (gfDouble_lt hb) h)

@[simp] theorem gfShift_zero (j : Nat) : gfShift j 0 = 0 := by
  induction j with
  | zero => rfl
  | succ j ih => exact ih

set_option maxRecDepth 20000 in
/-- α has no power below the tenth that is 1. -/
theorem gfShift_ne_self : ∀ a : Fin 256, a ≠ 0 → ∀ j : Fin 9, gfShift (j + 1) a ≠ a := by decide

/-- R391: a symbol's syndrome points at its own position alone. -/
theorem gfShift_pos_inj {a i j : Nat} (ha : a < 256) (h0 : a ≠ 0) (hi : i < 10) (hj : j < 10)
    (h : gfShift i a = gfShift j a) : i = j := by
  have hlt {i j : Nat} (hij : i < j) (hj : j < 10) (h : gfShift i a = gfShift j a) : False := by
    have hs : j = i + (j - i) := by omega
    rw [hs, gfShift_add] at h
    have hk := gfShift_inj i ha (gfShift_lt _ ha) h
    have hne := gfShift_ne_self ⟨a, ha⟩ (fun e => h0 (congrArg Fin.val e)) ⟨j - i - 1, by omega⟩
    have hsucc : j - i - 1 + 1 = j - i := by omega
    exact hne (by rw [hsucc]; exact hk.symm)
  rcases Nat.lt_trichotomy i j with hij | hij | hij
  · exact (hlt hij hj h).elim
  · exact hij
  · exact (hlt hij hi h.symm).elim

/-- The ten symbols of a beat with an error in one. -/
def oneSymbol (j x : Nat) : List Nat := (List.range 10).map (fun k => if k = j then x else 0)

theorem syndromes_oneSymbol (j : Fin 10) (x : Nat) : syndromes (oneSymbol j.val x) = (x, gfShift j.val x) := by
  fin_cases j <;> simp [oneSymbol, syndromes, List.range, List.range.loop, List.zipIdx]

/-- R391: an error in one symbol of a beat is found at its position. -/
theorem beatSymbol_oneSymbol {j : Fin 10} {x : Nat} (h : x < 256) :
    beatSymbol (x, gfShift j.val x) = if x = 0 then none else some (some j.val) := by
  by_cases h0 : x = 0
  · subst h0
    simp [beatSymbol]
  · have hf : (List.range 10).find? (fun k => gfShift k x == gfShift j.val x) = some j.val := by
      rw [List.find?_range_eq_some]
      refine ⟨by simp, List.mem_range.2 j.isLt, fun k hk => ?_⟩
      have hne : gfShift k x ≠ gfShift j.val x := fun he =>
        absurd (gfShift_pos_inj h h0 (Nat.lt_trans hk j.isLt) j.isLt he) (Nat.ne_of_lt hk)
      simpa using hne
    simp only [beatSymbol, Prod.mk.injEq, h0, false_and, if_false, hf]

/-- R391: beats that point nowhere or at one symbol fit: without errors, or with errors at the symbol. -/
theorem readingFits_of_one {j : Nat} {ss : List (Nat × Nat)} (h : ∀ x ∈ ss.filterMap beatSymbol, x = some j) :
    readingFits ss = if ss.filterMap beatSymbol = [] then some none else some (some j) := by
  unfold readingFits
  generalize ss.filterMap beatSymbol = l at h
  cases l with
  | nil => rfl
  | cons x l =>
    have hx := h x (List.mem_cons_self ..)
    have hl : l.filter (fun b => !b == x) = [] := by
      rw [List.filter_eq_nil_iff]
      intro y hy
      simp [hx, h y (List.mem_cons_of_mem _ hy)]
    rw [List.eraseDups_cons, hl, hx]
    rfl

/-- R391: a beat that points at no symbol does not fit. -/
theorem readingFits_of_nowhere {ss : List (Nat × Nat)} (h : none ∈ ss.filterMap beatSymbol) : readingFits ss = none := by
  have hm := List.mem_eraseDups.2 h
  unfold readingFits
  split
  · next he => simp [he] at hm
  · next he => simp [he] at hm
  · rfl

/-- The error pattern of a line with errors in one component: a byte of each beat, all at one symbol. -/
def componentErrors (j : Fin 10) (v : Fin 8 → Byte) : Bytes :=
  (List.range 80).map (fun i => if i % 10 = j.val then v (Fin.ofNat 8 (i / 10)) else 0#8)

theorem beatsOf_componentErrors (j : Fin 10) (v : Fin 8 → Byte) :
    beatsOf (componentErrors j v) = (List.finRange 8).map (fun b => oneSymbol j.val (v b).toNat) := by
  fin_cases j <;> rfl

theorem syndromes_componentErrors (j : Fin 10) (v : Fin 8 → Byte) :
    (beatsOf (componentErrors j v)).map syndromes =
      (List.finRange 8).map (fun b => ((v b).toNat, gfShift j.val (v b).toNat)) := by
  rw [beatsOf_componentErrors, List.map_map]
  exact List.map_congr_left fun b _ => syndromes_oneSymbol j _

/-- R391: errors in one component that leave a beat whole are corrected. -/
theorem decodeLine_componentErrors (j : Fin 10) (v : Fin 8 → Byte) (h : ∃ b, v b = 0#8) :
    decodeLine false (componentErrors j v) = if ∀ b, v b = 0#8 then .good else .corrected j.val := by
  have hbeat (b : Fin 8) : beatSymbol ((v b).toNat, gfShift j.val (v b).toNat) =
      if (v b).toNat = 0 then none else some (some j.val) := beatSymbol_oneSymbol (v b).isLt
  have hzero (b : Fin 8) : (v b).toNat = 0 ↔ v b = 0#8 := ⟨fun e => BitVec.eq_of_toNat_eq e, fun e => by rw [e]; rfl⟩
  unfold decodeLine
  rw [syndromes_componentErrors]
  generalize hss : (List.finRange 8).map (fun b => ((v b).toNat, gfShift j.val (v b).toNat)) = ss
  have hone : ∀ x ∈ ss.filterMap beatSymbol, x = some j.val := by
    intro x hx
    obtain ⟨s, hs, hsx⟩ := List.mem_filterMap.1 hx
    rw [← hss] at hs
    obtain ⟨b, -, rfl⟩ := List.mem_map.1 hs
    rw [hbeat] at hsx
    split at hsx
    · exact absurd hsx (by simp)
    · exact (Option.some.inj hsx).symm
  have hnil : ss.filterMap beatSymbol = [] ↔ ∀ b, v b = 0#8 := by
    rw [List.filterMap_eq_nil_iff, ← hss]
    simp [hbeat, hzero]
  have hnowhere : none ∈ (ss.map (fun s => (s.1, s.2 ^^^ poisonSyndrome))).filterMap beatSymbol := by
    obtain ⟨b, hb⟩ := h
    rw [List.mem_filterMap]
    refine ⟨(0, poisonSyndrome), List.mem_map.2 ⟨(0, 0), ?_, by simp⟩, by decide⟩
    rw [← hss]
    exact List.mem_map.2 ⟨b, List.mem_finRange b, by simp [hb]⟩
  by_cases hall : ∀ b, v b = 0#8
  · simp only [Bool.false_eq_true, if_false, readingFits_of_one hone, readingFits_of_nowhere hnowhere, hnil, if_pos hall]
  · simp only [Bool.false_eq_true, if_false, readingFits_of_one hone, readingFits_of_nowhere hnowhere, hnil, if_neg hall]

/-! ### The sweeper (R393, R398, R399) -/

section
variable {d : Dev} {m : Mem} {line : Nat} {errors : Bytes}

theorem sweeperRead_of_sweeps (h : d.sweeps m = true) :
    d.sweeperRead m errors =
      ((d.sweeperFind m d.memc.sweepNext errors).1.sweepOn, (d.sweeperFind m d.memc.sweepNext errors).2) := if_pos h

theorem sweeperRead_of_not_sweeps (h : d.sweeps m = false) : d.sweeperRead m errors = (d, m) := by
  simp only [Dev.sweeperRead, h, Bool.false_eq_true, if_false]

theorem sweeperFind_good (h : decodeLine (m.poison.contains line) errors = .good) : d.sweeperFind m line errors = (d, m) := by
  simp only [Dev.sweeperFind, h]

theorem sweeperFind_corrected {j : Nat} (h : decodeLine (m.poison.contains line) errors = .corrected j) :
    d.sweeperFind m line errors = ((d.countCorrected line).countRow line j,
      { m.spoil line (residualErrors (some j) errors) with poison := delNat line m.poison }) := by
  simp only [Dev.sweeperFind, h, Dev.countCorrected]

theorem sweeperFind_poisoned {j : Option Nat} (h : decodeLine (m.poison.contains line) errors = .poisoned j)
    (hr : d.pair.repairs.contains line = false) :
    d.sweeperFind m line errors =
      (((d.bump (Fld.MEM_UECNT.Count (d.dramChannel line))).lastFind 3 line).addLive line false, m) := by
  have hr' : ((d.bump (Fld.MEM_UECNT.Count (d.dramChannel line))).lastFind 3 line).pair.repairs.contains line = false := hr
  simp only [Dev.sweeperFind, h, hr', Bool.false_eq_true, if_false]

/-! What an uncorrectable line leaves. -/

theorem rd_askRemap (d : Dev) (row : Nat) {f : FieldRef} (hn : f.addr ∉ reportRegs) (ha : Fld.MEM_ERR.RemapFull.apart f = true) :
    (d.askRemap row).rd f = d.rd f := by
  unfold Dev.askRemap
  split
  · exact notice_rd _ _ _ f hn
  · split
    · rw [notice_rd _ _ _ f hn, rd_sticky_ne _ _ _ rfl ha]
    · rfl

@[simp] theorem rd_addLive (d : Dev) (line : Nat) (told : Bool) (f : FieldRef) : (d.addLive line told).rd f = d.rd f := rfl

theorem sweepOn_live (d : Dev) : d.sweepOn.memc.live = d.memc.live := by
  unfold Dev.sweepOn
  extract_lets n
  split <;> rfl

theorem rd_sweepOn (d : Dev) {f : FieldRef} (h1 : f.addr ≠ Adr.MEM_SWPASS) (h2 : f.addr ≠ Adr.MEM_SWPROG) :
    d.sweepOn.rd f = d.rd f := by
  unfold Dev.sweepOn Dev.rd
  extract_lets n
  split
  · rw [reg_wr_ne _ _ h2, reg_bump_ne _ h1]; rfl
  · rw [reg_wr_ne _ _ h2]; rfl

theorem sweepOn_sweepNext (d : Dev) :
    d.sweepOn.memc.sweepNext = if d.installed ≤ d.memc.sweepNext + 64 then 0 else d.memc.sweepNext + 64 := by
  unfold Dev.sweepOn
  extract_lets n
  split <;> rfl

theorem sweeperFind_uncorrectable (h : decodeLine (m.poison.contains line) errors = .uncorrectable) :
    (d.sweeperFind m line errors).2 = (m.spoil line (residualErrors none errors)).poisonLine line ∧
      (d.sweeperFind m line errors).1.rd Fld.MEM_ERR.DramUnc = 1 ∧
      (line, true) ∈ (d.sweeperFind m line errors).1.memc.live := by
  simp only [Dev.sweeperFind, h, true_and]
  refine ⟨?_, List.mem_append_right _ (List.mem_singleton_self _)⟩
  have hn : Fld.MEM_ERR.DramUnc.addr ∉ reportRegs := by decide
  have hd (e : Dev) : (((e.sticky Fld.MEM_ERR.DramUnc).noticeTrouble Nt.UncorrectableFind [(8, line)]).setMemc
      (fun c => { c with resent := delNat line c.resent })).rd Fld.MEM_ERR.DramUnc = 1 := by
    refine Eq.trans ?_ (rd_sticky_same e Fld.MEM_ERR.DramUnc rfl)
    exact noticeTrouble_rd _ _ _ _ hn
  rw [rd_addLive]
  split
  · rw [rd_askRemap _ _ hn rfl]
    exact hd _
  · exact hd _

theorem sweeperReread_of_not_asked (h : d.memc.reread.contains line = false) : d.sweeperReread m line errors = (d, m) := by
  simp only [Dev.sweeperReread, h, Bool.false_eq_true, if_false]

theorem sweeperReread_good (h : d.memc.reread.contains line = true)
    (hg : decodeLine (m.poison.contains line) errors = .good) :
    d.sweeperReread m line errors =
      ((d.setMemc (fun c => { c with reread := delNat line c.reread })).countCorrected line, m) := by
  simp only [Dev.sweeperReread, h, hg, if_true]

theorem sweeperReread_bad (h : d.memc.reread.contains line = true)
    (hg : decodeLine (m.poison.contains line) errors ≠ .good) :
    d.sweeperReread m line errors =
      (d.setMemc (fun c => { c with reread := delNat line c.reread })).sweeperFind m line errors := by
  simp only [Dev.sweeperReread, h, if_neg hg, if_true]

/-! ### Live lines (R400) -/

theorem liveLineAction_none (h : d.memc.live.find? (fun e => e.1 == line) = none) : d.liveLineAction m line = d := by
  simp only [Dev.liveLineAction, h]

section
variable {x : Nat × Bool} (h : d.memc.live.find? (fun e => e.1 == line) = some x)
include h

theorem liveLineAction_not_live (hl : d.jobLimit ≤ line ∨ m.poison.contains line = false) :
    d.liveLineAction m line = d.setMemc (fun c => { c with live := c.live.filter (fun y => y.1 != line) }) := by
  have hl' : (d.setMemc (fun c => { c with live := c.live.filter (fun y => y.1 != line) })).jobLimit ≤ line ∨
      m.poison.contains line = false := hl
  simp only [Dev.liveLineAction, h]
  exact if_pos hl'

theorem liveLineAction_resend {p : Page} {c : Charge} (hl : line < d.jobLimit) (hp : m.poison.contains line = true)
    (hm : d.pair.mode = false)
    (hs : (d.setMemc (fun c => { c with live := c.live.filter (fun y => y.1 != line) })).stripOfLine m line = some (p, c))
    (hr : d.memc.resent.contains line = false) :
    d.liveLineAction m line =
      (d.setMemc (fun c => { c with live := c.live.filter (fun y => y.1 != line) })).resendRequest m line p c := by
  simp only [Dev.liveLineAction, h]
  generalize hg : d.setMemc (fun c => { c with live := c.live.filter (fun y => y.1 != line) }) = e at hs ⊢
  have hl' : ¬ (e.jobLimit ≤ line ∨ m.poison.contains line = false) := by
    rw [← hg, hp]
    exact not_or.2 ⟨Nat.not_le.2 hl, by simp⟩
  have hm' : e.pair.mode = false := by rw [← hg]; exact hm
  have hr' : e.memc.resent.contains line = false := by rw [← hg]; exact hr
  simp only [if_neg hl', hs, hm', hr', Bool.false_eq_true, if_false]

end

end

/-! ### SRAM (R396 to R398) -/

theorem sramSweepRead_of_off {d : Dev} (h : d.rd Fld.MEM_CTRL.SweepEn = 0) (addr : Nat) (place : SramPlace)
    (f : Option LineFind) : d.sramSweepRead addr place f = d := if_pos h

theorem sramSweepRead_of_on {d : Dev} (h : d.rd Fld.MEM_CTRL.SweepEn = 1) (addr : Nat) (place : SramPlace)
    (f : Option LineFind) : d.sramSweepRead addr place f =
      match f with
      | none => d.sramPass addr
      | some .corrected => ((d.sramPass addr).bump Fld.MEM_SRAMCE.Count).lastFind 4 addr
      | some .uncorrectable =>
        ((((((d.sramPass addr).bump Fld.MEM_SRAMUE.Count).lastFind 5 addr).sticky Fld.MEM_ERR.SramUnc).trouble
          Nt.SramUncorrectable []).sramLost place) := if_neg (by rw [h]; decide)

/-! ### The remap table (R402 to R405) -/

/-- A word's row is what its channel, rank, bank and row fields say. -/
theorem rowOfWord_congr {a b : Nat} (h1 : bitsOf a 29 28 = bitsOf b 29 28) (h2 : bitsOf a 27 27 = bitsOf b 27 27)
    (h3 : bitsOf a 26 25 = bitsOf b 26 25) (h4 : bitsOf a 24 23 = bitsOf b 24 23) (h5 : bitsOf a 16 0 = bitsOf b 16 0) :
    rowOfWord a = rowOfWord b := by
  simp only [rowOfWord, h1, h2, h3, h4, h5]

/-- What MEM_RMREQ stores on a part whose channels R5 does not clamp names the row that was written. -/
theorem rowOfWord_stored (old v : Word) :
    rowOfWord (setBits (setBits (setBits (setBits (setBits old 29 28 (bitsOf v.toNat 29 28)) 27 27 (bitsOf v.toNat 27 27))
      26 25 (bitsOf v.toNat 26 25)) 24 23 (bitsOf v.toNat 24 23)) 16 0 (bitsOf v.toNat 16 0)).toNat = rowOfWord v.toNat := by
  have hsame (w : Word) (hi lo : Nat) (h : lo ≤ hi) (h32 : hi < 32) :
      bitsOf (setBits w hi lo (bitsOf v.toNat hi lo)).toNat hi lo = bitsOf v.toNat hi lo := by
    rw [bitsOf_setBits_same _ _ _ _ h h32, Nat.mod_eq_of_lt (bitsOf_lt ..)]
  apply rowOfWord_congr
  · iterate 4 rw [bitsOf_setBits_ne _ _ _ _ _ _ (by decide) (by decide) (by decide)]
    exact hsame _ _ _ (by decide) (by decide)
  · iterate 3 rw [bitsOf_setBits_ne _ _ _ _ _ _ (by decide) (by decide) (by decide)]
    exact hsame _ _ _ (by decide) (by decide)
  · iterate 2 rw [bitsOf_setBits_ne _ _ _ _ _ _ (by decide) (by decide) (by decide)]
    exact hsame _ _ _ (by decide) (by decide)
  · rw [bitsOf_setBits_ne _ _ _ _ _ _ (by decide) (by decide) (by decide)]
    exact hsame _ _ _ (by decide) (by decide)
  · exact hsame _ _ _ (by decide) (by decide)

/-- R403: a write of MEM_RMREQ stores the row it names, and asks for the row's remap where Go is set. -/
theorem write_MEM_RMREQ {s : State} {path : Path} {finds : Finds} {v : Word} (h : Reaches s path Adr.MEM_RMREQ v)
    (hv : BitVec.ofNat 32 (v.toNat &&& definedBits Adr.MEM_RMREQ) = v) :
    ∃ w, (s.dev.part = .sn262 → rowOfWord w.toNat = rowOfWord v.toNat) ∧
      writeAccess path finds Adr.MEM_RMREQ v s.dev s.mem =
        (((s.dev.met path Adr.MEM_RMREQ v).keepReg Adr.MEM_RMREQ w).remapRequest v.toNat, s.mem) := by
  refine ⟨_, fun hp => ?_, (writeAccess_row h rfl (by cases s.dev.part <;> rfl) (by cases s.dev.part <;> rfl) hv rfl rfl
    rfl).trans (writeReg_stores rfl (barPending_none _ rfl))⟩
  rw [met_part, hp]
  refine Eq.trans (congrArg (fun w : Word => rowOfWord w.toNat) ?_) (rowOfWord_stored ((s.dev.met path Adr.MEM_RMREQ v).reg Adr.MEM_RMREQ) v)
  simp [storedWord, clampField, Adr.RAS_REG, Adr.NET_PCTRL]

section
variable {d : Dev} {row : Nat}

theorem askRemap_refused (h : d.remapWords.any (fun w => rowOfWord w == row) = true ∨ d.rowExists row = false ∨
    d.spareRows ≤ d.sparesUsed row) : d.askRemap row = d.notice Nt.RemapRefused [] :=
  if_pos (h.imp_right Or.inr)

theorem askRemap_made (hw : d.remapWords.any (fun w => rowOfWord w == row) = false)
    (hr : d.memc.remaps.contains row = false) (he : d.rowExists row = true) (hs : d.sparesUsed row < d.spareRows)
    (hn : d.remapWords.length + d.memc.remaps.length < 16) :
    d.askRemap row = d.setMemc (fun c => { c with remaps := c.remaps ++ [row] }) := by
  have hc : ¬ (d.remapWords.any (fun w => rowOfWord w == row) = true ∨ d.memc.remaps.contains row = true ∨
      d.rowExists row = false ∨ d.spareRows ≤ d.sparesUsed row) := by
    simp only [hw, hr, he, Bool.false_eq_true, Bool.true_eq_false, false_or]
    omega
  unfold Dev.askRemap
  rw [if_neg hc, if_neg (by omega)]

theorem remapRequest_of_go {v : Nat} (h : v.testBit 31 = true) :
    d.remapRequest v = d.askRemap (rowOfWord (d.reg Adr.MEM_RMREQ).toNat) := if_pos h

theorem remapRequest_of_no_go {v : Nat} (h : v.testBit 31 = false) : d.remapRequest v = d := by
  simp only [Dev.remapRequest, h, Bool.false_eq_true, if_false]

/-- R404: the word of a remap entry: valid, with the row and the spare that replaces it. -/
def remapEntry (row spare : Nat) : Nat := 2 ^ 31 + row + spare * 2 ^ 17

/-- R404: an entry's word is valid and names its row. -/
theorem remapEntry_spells {row spare : Nat} (h : rowOfWord row = row) (hs : spare < 4) :
    (BitVec.ofNat 32 (remapEntry row spare)).toNat.testBit 31 = true ∧
      rowOfWord (BitVec.ofNat 32 (remapEntry row spare)).toNat = row := by
  obtain ⟨c, hc⟩ : ∃ c, bitsOf row 29 28 = c := ⟨_, rfl⟩
  obtain ⟨k, hk⟩ : ∃ k, bitsOf row 27 27 = k := ⟨_, rfl⟩
  obtain ⟨g, hg⟩ : ∃ g, bitsOf row 26 25 = g := ⟨_, rfl⟩
  obtain ⟨b, hb⟩ : ∃ b, bitsOf row 24 23 = b := ⟨_, rfl⟩
  obtain ⟨x, hx⟩ : ∃ x, bitsOf row 16 0 = x := ⟨_, rfl⟩
  have hc4 : c < 4 := hc ▸ bitsOf_lt ..
  have hk2 : k < 2 := hk ▸ bitsOf_lt ..
  have hg4 : g < 4 := hg ▸ bitsOf_lt ..
  have hb4 : b < 4 := hb ▸ bitsOf_lt ..
  have hx17 : x < 131072 := hx ▸ bitsOf_lt ..
  rw [rowOfWord, hc, hk, hg, hb, hx] at h
  clear hc hk hg hb hx
  subst h
  have hfit : remapEntry (c * 2 ^ 28 + k * 2 ^ 27 + g * 2 ^ 25 + b * 2 ^ 23 + x) spare < 2 ^ 32 := by unfold remapEntry; omega
  rw [BitVec.toNat_ofNat, Nat.mod_eq_of_lt hfit]
  constructor
  · rw [Nat.testBit_eq_decide_div_mod_eq, decide_eq_true_eq, remapEntry]
    omega
  · simp only [rowOfWord, bitsOf_eq, remapEntry, Nat.reduceAdd, Nat.reduceSub, Nat.reducePow]
    omega

theorem remapDone_of_none (h : d.memc.remaps = []) : d.remapDone = d := by
  simp only [Dev.remapDone, h]

theorem remapAddr_quiet : ∀ i : Fin 16, Adr.MEM_REMAP i.val ∉ reportRegs ∧ Adr.MEM_REMAP i.val ≠ Fld.MEM_RMCNT.Used.addr := by
  decide

/-- R404: the device with entry `i` of the remap table set, its entries counted, and the journal told. -/
def Dev.placeRemap (d : Dev) (i : Nat) (w : Word) : Dev :=
  let d := d.setReg (Adr.MEM_REMAP i) w
  let d := d.wr Fld.MEM_RMCNT.Used d.remapWords.length
  { d with jnl := { d.jnl with queue := d.jnl.queue ++ [JnlChange.remap] } }

theorem placeRemap_reg (d : Dev) (i : Fin 16) (w : Word) : (d.placeRemap i.val w).reg (Adr.MEM_REMAP i.val) = w := by
  have hw (n : Nat) : ((d.setReg (Adr.MEM_REMAP i.val) w).wr Fld.MEM_RMCNT.Used n).reg (Adr.MEM_REMAP i.val) = w := by
    rw [reg_wr_ne _ _ (remapAddr_quiet i).2, reg_setReg_same]
  exact hw _

theorem placeRemap_memc (d : Dev) (i : Nat) (w : Word) : (d.placeRemap i w).memc = d.memc := rfl

theorem placeRemap_journal (d : Dev) (i : Nat) (w : Word) :
    (d.placeRemap i w).jnl.queue = d.jnl.queue ++ [JnlChange.remap] := rfl

/-- R404: the spare that a row's remap takes: the first of its bank that no entry uses. -/
def Dev.spareFor (d : Dev) (row : Nat) : Nat :=
  ((List.range 4).find? (fun s => !((d.remapWords.filter (sameBank row)).map (fun w => bitsOf w 18 17)).contains s)).getD 0

theorem spareFor_lt (d : Dev) (row : Nat) : d.spareFor row < 4 := by
  unfold Dev.spareFor
  cases he : (List.range 4).find? _ with
  | none => decide
  | some k => exact List.mem_range.1 (List.mem_of_find?_eq_some he)

/-- R404: the remap in hand takes the first entry that is not valid, with a spare of its bank. -/
theorem remapDone_of_free {rest : List Nat} {i : Nat} (h : d.memc.remaps = row :: rest)
    (hi : (List.range 16).find? (fun i => (d.reg (Adr.MEM_REMAP i)).toNat.testBit 31 = false) = some i) :
    d.remapDone = ((d.setMemc (fun c => { c with remaps := rest })).placeRemap i
      (BitVec.ofNat 32 (remapEntry row (d.spareFor row)))).notice Nt.RemapDone [] := by
  have hf : (List.range 16).find? (fun i => ((d.setMemc (fun c => { c with remaps := rest })).reg
      (Adr.MEM_REMAP i)).toNat.testBit 31 = false) = some i := hi
  unfold Dev.remapDone
  simp only [h, hf]
  rfl

/-- R404: the entry that is made is valid and names its row; the remap is no longer in hand, and the journal is told. -/
theorem remapDone_leaves {rest : List Nat} {i : Fin 16} (h : d.memc.remaps = row :: rest) (hrow : rowOfWord row = row)
    (hi : (d.reg (Adr.MEM_REMAP i.val)).toNat.testBit 31 = false)
    (hb : ∀ j : Fin 16, j < i → (d.reg (Adr.MEM_REMAP j.val)).toNat.testBit 31 = true) :
    d.remapDone.memc.remaps = rest ∧ (d.remapDone.reg (Adr.MEM_REMAP i.val)).toNat.testBit 31 = true ∧
      rowOfWord (d.remapDone.reg (Adr.MEM_REMAP i.val)).toNat = row ∧
      d.remapDone.jnl.queue = d.jnl.queue ++ [JnlChange.remap] := by
  have hfind : (List.range 16).find? (fun i => (d.reg (Adr.MEM_REMAP i)).toNat.testBit 31 = false) = some i.val := by
    rw [List.find?_range_eq_some]
    refine ⟨by simpa using hi, List.mem_range.2 i.isLt, fun j hj => ?_⟩
    have hj' := hb ⟨j, Nat.lt_trans hj i.isLt⟩ hj
    simpa using hj'
  obtain ⟨hvalid, hspells⟩ := remapEntry_spells hrow (spareFor_lt d row)
  rw [remapDone_of_free h hfind, notice_reg (remapAddr_quiet i).1, placeRemap_reg, notice_memc, placeRemap_memc, notice_jnl,
    placeRemap_journal]
  exact ⟨rfl, hvalid, hspells, rfl⟩

end

end Sys2Proof.Machine
end

section
open Sys2Proof Sys2Proof.Machine

/-- Settles O55: the code by its syndromes, the sweeper by what it finds, a live line by what refers to it, and the remap
table by its first entry that is not valid.  The refusals' order, the row shown after R5's clamp, and the end of an SRAM pass
are the model's choices (logs 82, 123, 150). -/
theorem memoryIsSweptAndRemapped : Obligations.MemoryIsSweptAndRemapped := by
  refine ⟨decodeLine_componentErrors, ?sweeps, ?rereads, ?sram, ?asks, ?makes, ?clears⟩
  case sweeps =>
    intro s errors hr line r
    have hc {e : Dev} {m : Mem} (he : s.dev.sweeperRead s.mem errors = (e, m)) : Completes (.sweeperRead errors) s e m :=
      completes_live (f := fun d m => d.sweeperRead m errors) hr rfl he
    refine ⟨fun h => hc (sweeperRead_of_not_sweeps h), fun h => ?_, sweepOn_sweepNext s.dev⟩
    have hfind {e : Dev} {m : Mem} (he : s.dev.sweeperFind s.mem line errors = (e, m)) :
        Completes (.sweeperRead errors) s e.sweepOn m :=
      hc (by rw [sweeperRead_of_sweeps h, he])
    refine ⟨fun hg => hfind (sweeperFind_good hg), fun j hj => hfind (sweeperFind_corrected hj),
      fun j hj hrep => hfind (sweeperFind_poisoned hj hrep), fun hu => ?_⟩
    obtain ⟨hmem, hunc, hlive⟩ := sweeperFind_uncorrectable (d := s.dev) hu
    refine ⟨_, hfind (Prod.ext rfl hmem), ?_, ?_⟩
    · rw [rd_sweepOn _ (by decide) (by decide)]; exact hunc
    · rw [sweepOn_live]; exact hlive
  case rereads =>
    intro s line errors hr d
    have hread {e : Dev} {m : Mem} (he : s.dev.sweeperReread s.mem line errors = (e, m)) :
        Completes (.sweeperReread line errors) s e m :=
      completes_live (f := fun d m => d.sweeperReread m line errors) hr rfl he
    have hlive {e : Dev} (he : s.dev.liveLineAction s.mem line = e) : Completes (.liveLineAction line) s e s.mem :=
      completes_live (f := fun d m => (d.liveLineAction m line, m)) hr rfl (by rw [he])
    exact ⟨fun h => hread (sweeperReread_of_not_asked h),
      fun h => ⟨fun hg => hread (sweeperReread_good h hg), fun hg => hread (sweeperReread_bad h hg)⟩,
      fun h => hlive (liveLineAction_none h), fun x h => ⟨fun hl => hlive (liveLineAction_not_live h hl),
        fun hl hp hm p c hs hresent => hlive (liveLineAction_resend h hl hp hm hs hresent)⟩⟩
  case sram =>
    intro s addr place hr
    have hc (f : Option LineFind) {e : Dev} (he : s.dev.sramSweepRead addr place f = e) :
        Completes (.sramSweepRead addr place f) s e s.mem :=
      completes_dev (f := fun d => d.sramSweepRead addr place f) hr rfl he
    exact ⟨fun h f => hc f (sramSweepRead_of_off h ..),
      fun h => ⟨hc _ (sramSweepRead_of_on h ..), hc _ (sramSweepRead_of_on h ..), hc _ (sramSweepRead_of_on h ..)⟩⟩
  case asks =>
    intro s path v h hv
    obtain ⟨w, hrow, hw⟩ := write_MEM_RMREQ (finds := []) h hv
    refine ⟨w, ?_⟩
    intro d row
    have hreg : (d.reg Adr.MEM_RMREQ) = w := keepReg_reg_same ..
    have hc {e : Dev} (he : d.remapRequest v.toNat = e) : Completes (.remapRequest path v) s e s.mem :=
      completes_live h.1 rfl (by rw [hw]; exact congrArg (·, s.mem) he)
    have hgo (hv : v.toNat.testBit 31 = true) : d.remapRequest v.toNat = d.askRemap row := by
      rw [remapRequest_of_go hv, hreg]
    exact ⟨hrow, fun hv => hc (remapRequest_of_no_go hv), fun hv => ⟨fun hrefuse => hc ((hgo hv).trans (askRemap_refused hrefuse)),
      fun h1 h2 h3 h4 h5 => hc ((hgo hv).trans (askRemap_made h1 h2 h3 h4 h5))⟩⟩
  case makes =>
    intro s hr
    have hc {e : Dev} (he : s.dev.remapDone = e) : Completes .remapDone s e s.mem :=
      completes_dev (f := Dev.remapDone) hr rfl he
    exact ⟨fun h => hc (remapDone_of_none h), fun row rest h hrow i hi hb => ⟨_, hc rfl, remapDone_leaves h hrow hi hb⟩⟩
  case clears =>
    intro s path h d
    have hseq : d.job.seq = s.dev.job.seq := congrArg JobSt.seq (met_job ..)
    have hc {e : Dev} (he : d.remapClearAll = e) : Completes (.remapClearAll path) s e s.mem :=
      completes_live h.1 rfl (by rw [write_MEM_RMCTRL h, he])
    exact ⟨fun hi => hc (if_pos (hseq.trans hi)), fun hi => hc (if_neg (fun e => hi (hseq.symm.trans e)))⟩

end

section
/-!
SUPPORT. The DMA channels, the completion ring and the check units (R411 to R426).
-/
namespace Sys2Proof.Machine

/-! ### Writes of the DMA's registers -/

/-- A word that a register of 16 bits defines has no bit above them. -/
theorem lt_of_defined16 {v : Word} {a : Nat} (ha : definedBits a = 2 ^ 16 - 1)
    (h : BitVec.ofNat 32 (v.toNat &&& definedBits a) = v) : v.toNat < 2 ^ 16 := by
  rw [← h, ha, Nat.and_two_pow_sub_one_eq_mod, BitVec.toNat_ofNat]
  omega

theorem definedBits_DMA_CHPROD : ∀ c : Fin 16, definedBits (Adr.DMA_CHPROD c.val) = 2 ^ 16 - 1 := by decide

/-- R411: a write of DMA_CHPRODc stores its index, or discards one beyond the ring. -/
theorem write_DMA_CHPROD {s : State} {path : Path} {finds : Finds} {v : Word} (c : Fin 16)
    (h : Reaches s path (Adr.DMA_CHPROD c.val) v)
    (hv : BitVec.ofNat 32 (v.toNat &&& definedBits (Adr.DMA_CHPROD c.val)) = v) :
    writeAccess path finds (Adr.DMA_CHPROD c.val) v s.dev s.mem =
      ((s.dev.met path (Adr.DMA_CHPROD c.val) v).dmaProd c.val v.toNat, s.mem) := by
  have hrow : ∃ r w, regSpecAt (Adr.DMA_CHPROD c.val) = some (r, c.val, w) ∧ r.base = Adr.DMA_CHPROD 0 := by
    fin_cases c <;> exact ⟨_, _, rfl, rfl⟩
  obtain ⟨r, w, hr, hb⟩ := hrow
  have hset : setOf (Adr.DMA_CHPROD c.val) = .none := by fin_cases c <;> rfl
  have hbar (d : Dev) : d.barWrite r c.val (Adr.DMA_CHPROD c.val) v = none := by
    simp only [Dev.barWrite, hb, barPending_none d hset]
    simp [axisBound, Adr.DMA_CHPROD, Adr.LT_CHCFG, Adr.CRC_EXPLO, Adr.CRC_EXPHI, Adr.CRC_CTRL, Adr.MOT_AXCFG, Adr.MOT_SENSE,
      Adr.MOT_MOTOR, Adr.MOT_USTEP]
  rw [writeAccess_row h (by fin_cases c <;> rfl) (by cases s.dev.part <;> fin_cases c <;> rfl)
    (by cases s.dev.part <;> fin_cases c <;> rfl) hv (not_nzt hr) (not_thr hr) hr, writeReg, hbar]
  simp only [hb, if_true]

section
variable {d : Dev} {c v : Nat} (hv : v < 2 ^ 16)
include hv

theorem dmaProd_beyond (h : max 1 (d.rd (Fld.DMA_CHSIZE.Entries c)) ≤ v) : d.dmaProd c v = d.sticky Fld.DMA_ERR.ProdRange := by
  have hm : v % 65536 = v := Nat.mod_eq_of_lt hv
  simp only [Dev.dmaProd, hm, if_pos h]

theorem dmaProd_within (h : v < max 1 (d.rd (Fld.DMA_CHSIZE.Entries c))) : d.dmaProd c v = d.wr (Fld.DMA_CHPROD.Prod c) v := by
  have hm : v % 65536 = v := Nat.mod_eq_of_lt hv
  simp only [Dev.dmaProd, hm, if_neg (Nat.not_le.2 h)]

end

/-- A register kept with one field written: that field alone differs. -/
theorem keepReg_setBits_only (d : Dev) (f : FieldRef) (v : Nat) (h : f.ok = true) :
    OnlyFields [f] d (d.keepReg f.addr (setBits (d.reg f.addr) f.hi f.lo v)) := by
  have hreg (b : Nat) : (d.keepReg f.addr (setBits (d.reg f.addr) f.hi f.lo v)).reg b = (d.wr f v).reg b := by
    by_cases hb : b = f.addr
    · subst hb; rw [keepReg_reg_same, reg_wr_same]
    · rw [keepReg_reg_ne _ _ hb, reg_wr_ne _ _ hb]
  intro a i hn
  rw [hreg]
  exact onlyFields_wr d f v h a i hn

theorem keepReg_win (d : Dev) (a : Nat) (w : Word) : d.keepReg a w = { d with win := (d.keepReg a w).win } := by
  rcases keepReg_cases d a w with e | e <;> rw [e]; rfl

/-- A row of one RW field without a limit stores the field's bits of what is written. -/
theorem storedWord_single {p : Part} {r : RegSpec} {f : FieldSpec} {old v : Word} (hf : r.flds = [f]) (ha : f.acc = .rw)
    (hl : f.lim = none) (hb : partBases.contains r.base = false) :
    storedWord p r old v = setBits old f.hi f.lo (bitsOf v.toNat f.hi f.lo) := by
  simp [storedWord, hf, ha, clampField_free hl hb]

/-- R422: a write of DMA_CQCONS stores its index. -/
theorem write_DMA_CQCONS {s : State} {path : Path} {finds : Finds} {v : Word} (h : Reaches s path Adr.DMA_CQCONS v)
    (hv : BitVec.ofNat 32 (v.toNat &&& definedBits Adr.DMA_CQCONS) = v) :
    writeAccess path finds Adr.DMA_CQCONS v s.dev s.mem =
      ((s.dev.met path Adr.DMA_CQCONS v).keepReg Adr.DMA_CQCONS
        (setBits ((s.dev.met path Adr.DMA_CQCONS v).reg Adr.DMA_CQCONS) 15 0 (bitsOf v.toNat 15 0)), s.mem) := by
  rw [writeAccess_row h rfl (by cases s.dev.part <;> rfl) (by cases s.dev.part <;> rfl) hv rfl rfl rfl,
    writeReg_plain rfl rfl (barPending_none _ rfl)]
  rw [storedWord_single (f := ⟨15, 0, .rw, 0, none⟩) rfl rfl rfl rfl]

theorem bitRow_DMA_CHCTRL (c : Fin 16) {bits : Nat} (hb : bits = 2 ∨ bits = 4) :
    BitRow (Adr.DMA_CHCTRL c.val) (Adr.DMA_CHCTRL 0) c.val bits := by
  refine ⟨by fin_cases c <;> rfl, by fin_cases c <;> rfl, by decide, ?_⟩
  rcases hb with rfl | rfl <;> fin_cases c <;> exact ⟨_, _, rfl, rfl, by decide⟩

theorem bitRow_CRC_CTRL (u : Fin 4) : BitRow (Adr.CRC_CTRL u.val) (Adr.CRC_CTRL 0) u.val 8 := by
  refine ⟨by fin_cases u <;> rfl, by fin_cases u <;> rfl, by decide, ?_⟩
  fin_cases u <;> exact ⟨_, _, rfl, rfl, by decide⟩

/-- A bit that a command sets is set in the word it writes. -/
theorem testBit_or_bits (w : Word) {bits j : Nat} (hj : j < 32) (h : bits.testBit j = true) :
    (w ||| BitVec.ofNat 32 bits).toNat.testBit j = true := by
  rw [BitVec.toNat_or, Nat.testBit_or, BitVec.toNat_ofNat, Nat.testBit_mod_two_pow, h]
  simp [hj]

/-- R419: what a write of Resume or Abort in DMA_CHCTRLc does. -/
theorem writeBits_DMA_CHCTRL {s : State} {path : Path} (c : Fin 16) {bits : Nat} (hbits : bits = 2 ∨ bits = 4)
    (h : Reaches s path (Adr.DMA_CHCTRL c.val) (s.dev.reg (Adr.DMA_CHCTRL c.val) ||| BitVec.ofNat 32 bits))
    (hv : BitVec.ofNat 32 ((s.dev.reg (Adr.DMA_CHCTRL c.val) ||| BitVec.ofNat 32 bits).toNat &&&
      definedBits (Adr.DMA_CHCTRL c.val)) = s.dev.reg (Adr.DMA_CHCTRL c.val) ||| BitVec.ofNat 32 bits) :
    writeBits path (Adr.DMA_CHCTRL c.val) bits s.dev s.mem =
      dmaControl (s.dev.met path (Adr.DMA_CHCTRL c.val) (s.dev.reg (Adr.DMA_CHCTRL c.val) ||| BitVec.ofNat 32 bits))
        s.mem c.val (s.dev.reg (Adr.DMA_CHCTRL c.val) ||| BitVec.ofNat 32 bits).toNat := by
  obtain ⟨r, hb, e⟩ := bits_act h (bitRow_DMA_CHCTRL c hbits) (by fin_cases c <;> decide)
    (by cases s.dev.part <;> fin_cases c <;> rfl) (by cases s.dev.part <;> fin_cases c <;> rfl) hv
    (fun e => absurd e (by decide)) (by decide)
  have hblock : Adr.DMA_CHCTRL c.val / 0x10000 = 9 := by fin_cases c <;> rfl
  rw [e, actOn, hblock]
  simp [actStore, hb, Adr.MEM_RMREQ, Adr.MEM_RMCTRL, Adr.DMA_CHCTRL]

theorem dmaControl_resume {d : Dev} {m : Mem} {c v : Nat} (h1 : v.testBit 1 = true) (h2 : v.testBit 2 = false) :
    dmaControl d m c v = (d.dmaResume c, m) := by
  simp [dmaControl, h1, h2]

theorem dmaControl_abort {d : Dev} {m : Mem} {c v : Nat} (h1 : v.testBit 1 = false) (h2 : v.testBit 2 = true) :
    dmaControl d m c v = dmaAbort d m c := by
  simp [dmaControl, h1, h2]

theorem dmaAbort_of_none {d : Dev} {m : Mem} {c : Nat} (h : (d.dmaChan c).phase = .none) :
    dmaAbort d m c = (d.wr (Fld.DMA_CHCONS.Cons c) (d.rd (Fld.DMA_CHPROD.Prod c)), m) := by
  simp only [dmaAbort, h]

theorem dmaAbort_of_trigger {d : Dev} {m : Mem} {c : Nat} {x : DmaDesc} (h : (d.dmaChan c).phase = .trigger)
    (hx : (d.dmaChan c).desc = some x) :
    dmaAbort d m c = dmaThen (dmaOutcome (d.modDma c (fun z => { z with abort := true })) m c x 7 0 0 []) := by
  simp only [dmaAbort, h, hx]

/-- R426: what a write of Reset in CRC_CTRLu does. -/
theorem writeBits_CRC_CTRL {s : State} {path : Path} (u : Fin 4)
    (h : Reaches s path (Adr.CRC_CTRL u.val) (s.dev.reg (Adr.CRC_CTRL u.val) ||| BitVec.ofNat 32 8))
    (hv : BitVec.ofNat 32 ((s.dev.reg (Adr.CRC_CTRL u.val) ||| BitVec.ofNat 32 8).toNat &&& definedBits (Adr.CRC_CTRL u.val)) =
      s.dev.reg (Adr.CRC_CTRL u.val) ||| BitVec.ofNat 32 8) :
    writeBits path (Adr.CRC_CTRL u.val) 8 s.dev s.mem =
      unitReset (s.dev.met path (Adr.CRC_CTRL u.val) (s.dev.reg (Adr.CRC_CTRL u.val) ||| BitVec.ofNat 32 8)) s.mem u.val := by
  obtain ⟨r, hb, e⟩ := bits_act h (bitRow_CRC_CTRL u) (by fin_cases u <;> decide)
    (by cases s.dev.part <;> fin_cases u <;> rfl) (by cases s.dev.part <;> fin_cases u <;> rfl) hv
    (fun _ => rfl) (by decide)
  have hblock : Adr.CRC_CTRL u.val / 0x10000 = 10 := by fin_cases u <;> rfl
  have hbit := testBit_or_bits (s.dev.reg (Adr.CRC_CTRL u.val)) (bits := 8) (j := 3) (by decide) (by decide)
  rw [e, actOn, hblock]
  simp only [actStore, hb, hbit, if_true]
  simp [Adr.MEM_RMREQ, Adr.MEM_RMCTRL, Adr.DMA_CHCTRL, Adr.CRC_CTRL]

theorem resetUnit_crcUnit (d : Dev) (u : Fin 4) : (d.resetUnit u.val).crcUnit u.val = ⟨none, 0, 0⟩ :=
  vgetD_vmodN_same _ _ _ _ u.isLt

theorem resetUnit_reg (d : Dev) (u : Nat) : (d.resetUnit u).reg (Adr.CRC_STAT u) = 0#32 := reg_setReg_same ..

theorem resetUnit_state (d : Dev) (u : Nat) : (d.resetUnit u).rd (Fld.CRC_STAT.State u) = 0 := by
  rw [Dev.rd, show (Fld.CRC_STAT.State u).addr = Adr.CRC_STAT u from rfl, resetUnit_reg]
  simp [bitsOf]

/-! ### Fetch and trigger (R411, R415) -/

theorem dmaChan_modDma_same (d : Dev) {c : Nat} (f : DmaChan → DmaChan) (h : c < 16) :
    (d.modDma c f).dmaChan c = f (d.dmaChan c) := vgetD_vmodN_same _ _ _ _ h

/-- With nothing more to start, a step's outcome stands. -/
theorem dmaThen_nil (d : Dev) (m : Mem) : dmaThen (d, m, []) = (d, m) := rfl

section
variable {d : Dev} {m : Mem} {c : Nat} {finds : Finds}

theorem dmaFetch_of_busy (h : d.dmaWorks c = false ∨ (d.dmaChan c).phase ≠ .none) : dmaFetch d m c finds = (d, m) := if_pos h

section
variable (hw : d.dmaWorks c = true) (hp : (d.dmaChan c).phase = .none)
include hw hp

theorem dmaFetch_of_asleep (h : d.domOn 5 = false) : dmaFetch d m c finds = (d.wake 5 8, m) := by
  simp [dmaFetch, hw, hp, h]

/-- R411: a good descriptor within its ring is fetched, and waits for its trigger. -/
theorem dmaFetch_of_good (hc : c < 16) (hd : d.domOn 5 = true)
    (hring : d.rd (Fld.DMA_CHBASELO.BaseLo c) * 32 + d.rd (Fld.DMA_CHBASEHI.BaseHi c) * 2 ^ 32 +
      32 * max 1 (d.rd (Fld.DMA_CHSIZE.Entries c)) ≤ d.jobLimit)
    (hbad : m.bad finds (lineOf (d.rd (Fld.DMA_CHBASELO.BaseLo c) * 32 + d.rd (Fld.DMA_CHBASEHI.BaseHi c) * 2 ^ 32 +
      32 * d.rd (Fld.DMA_CHCONS.Cons c))) = false)
    {x : DmaDesc} (hx : x = dmaDescOf (d.rd (Fld.DMA_CHCONS.Cons c)) (m.read (d.rd (Fld.DMA_CHBASELO.BaseLo c) * 32 +
      d.rd (Fld.DMA_CHBASEHI.BaseHi c) * 2 ^ 32 + 32 * d.rd (Fld.DMA_CHCONS.Cons c)) 32) false) (hgood : x.bad = false) :
    ∃ e, dmaFetch d m c finds = (e, m) ∧ e.dmaChan c = ⟨.trigger, some x, none, false⟩ := by
  have hout : ¬ d.jobLimit < d.rd (Fld.DMA_CHBASELO.BaseLo c) * 32 + d.rd (Fld.DMA_CHBASEHI.BaseHi c) * 2 ^ 32 +
      32 * max 1 (d.rd (Fld.DMA_CHSIZE.Entries c)) := Nat.not_lt.2 hring
  have hbusy : ¬ (d.dmaWorks c = false ∨ (d.dmaChan c).phase ≠ .none) := by simp [hw, hp]
  have hawake : ¬ d.domOn 5 = false := by simp [hd]
  refine ⟨_, ?_, dmaChan_modDma_same (((d.meetLines m finds [lineOf (d.rd (Fld.DMA_CHBASELO.BaseLo c) * 32 +
    d.rd (Fld.DMA_CHBASEHI.BaseHi c) * 2 ^ 32 + 32 * d.rd (Fld.DMA_CHCONS.Cons c))]).wr (Fld.DMA_CHBYTES.Bytes c) 0))
    (fun _ => ⟨.trigger, some x, none, false⟩) hc⟩
  unfold dmaFetch
  simp only [if_neg hbusy, if_neg hawake, decide_eq_false hout, Bool.false_eq_true, if_false, hbad, Bool.or_self, ← hx, hgood]

end

theorem dmaTrigger_of_none (h : (d.dmaChan c).desc = none) : dmaTrigger d m c = (d, m) := by
  simp only [dmaTrigger, h]

section
variable {x : DmaDesc} (hx : (d.dmaChan c).desc = some x) (hp : (d.dmaChan c).phase = .trigger)
include hx hp

theorem dmaTrigger_of_other (h0 : x.trigger ≠ 0) (h2 : ¬ (x.trigger = 2 ∧ x.trigArg = c)) : dmaTrigger d m c = (d, m) := by
  simp [dmaTrigger, hx, hp, h0, h2]

omit hp in
theorem dmaTrigger_of_immediate (h0 : x.trigger = 0) : dmaTrigger d m c = dmaThen (dmaStart d m c) := by
  simp [dmaTrigger, hx, h0]

/-- A descriptor that names no unit neither waits for one nor feeds one. -/
theorem dmaStart_of_no_unit (hu : x.namesUnit = false) :
    dmaStart d m c = match d.dmaCheck x with
      | some st => dmaOutcome d m c x st 0 0 []
      | none => (d.modDma c (fun y => { y with phase := .moving }), m, []) := by
  have hf : x.feeds = false := (Bool.or_eq_false_iff.1 hu).1
  simp only [dmaStart, hx, hp, hu, hf, ne_eq, reduceCtorEq, not_true_eq_false, false_and, and_false, Bool.false_eq_true,
    if_false] <;> rfl

end

theorem dmaTimer_of_off {t : Nat} (h : d.rd (Fld.DMA_TIMER.Enable t) = 0) : dmaTimer d m t = (d, m) :=
  if_neg (by rw [h]; decide)

theorem dmaTimer_of_on {t : Nat} (h : d.rd (Fld.DMA_TIMER.Enable t) = 1) : dmaTimer d m t = dmaEvent (d, m) 1 t := if_pos h

/-! ### Moving (R416) -/

theorem dmaComplete_of_idle (h : (d.dmaChan c).phase ≠ .moving ∨ d.rd (Fld.DMA_CHCTRL.Enable c) = 0) :
    dmaComplete d m c finds = (d, m) := by
  unfold dmaComplete
  extract_lets y
  split
  · next x hphase _ => exact if_pos (h.resolve_left (not_not.2 hphase))
  · rfl

theorem dmaComplete_of_moving {x : DmaDesc} (hp : (d.dmaChan c).phase = .moving) (hx : (d.dmaChan c).desc = some x)
    (he : d.rd (Fld.DMA_CHCTRL.Enable c) = 1) :
    dmaComplete d m c finds =
      dmaThen (dmaMoved c x (dmaMove d m finds x none) ((dmaMove d m finds x none).stop.getD 0)) := by
  simp only [dmaComplete, hp, hx, he, one_ne_zero, if_false]

theorem Mem.getD_read (m : Mem) (n : Nat) : ∀ (a k : Nat), k < n → (m.read a n).getD k 0#8 = m.seen (a + k) := by
  induction n with
  | zero => exact fun _ _ h => absurd h (Nat.not_lt_zero _)
  | succ n ih =>
    intro a k hk
    cases k with
    | zero => rfl
    | succ k =>
      rw [Mem.read, List.getD_cons_succ, ih (a + 1) k (by omega)]
      congr 1; omega

/-- R416: an undamaged copy within the job store: every source byte as it was before the copy. -/
theorem dmaMove_of_copy {x : DmaDesc} (hg : x.gather = false) (hs : x.srcSpace = 0) (hd : x.dstSpace = 0)
    (hf : x.feeds = false) (hb : m.badLines finds x.src x.count = []) :
    (dmaMove d m finds x none).stop = none ∧ (dmaMove d m finds x none).done = x.count ∧
      (dmaMove d m finds x none).mem =
        (m.hostWrite finds ((d.wake 5 8).meetLines m finds (linesOf x.src x.count)).now.sec x.dst (m.read x.src x.count)).1 := by
  simp [dmaMove, hg, DmaMove.copy, hs, hb, DmaMove.deliver, hf, hd, taintedLines]

/-! ### Completion records (R422) -/

theorem dmaRecordWrite_of_waits (h : d.dma.waiting = [] ∨ d.cqFull = true) : dmaRecordWrite d m = (d, m) := by
  unfold dmaRecordWrite
  split
  · rfl
  · next hw => exact if_pos (h.resolve_left (by simp [hw]))

/-- R422: with room in the ring, the record that waits first is written. -/
theorem dmaRecordWrite_of_room {rest : List Nat} {x : DmaDesc} {o : DmaOutcome} {e : Dev} {n : Mem}
    (hw : d.dma.waiting = c :: rest) (hf : d.cqFull = false) (hx : (d.dmaChan c).desc = some x)
    (ho : (d.dmaChan c).outcome = some o) (hr : x.noRecord = false)
    (he : writeRecord { d with dma := { d.dma with waiting := [] } } m c x o = (e, n)) :
    dmaRecordWrite d m = dmaThen ({ e.dmaFinish c with dma := { (e.dmaFinish c).dma with
      waiting := rest ++ (e.dmaFinish c).dma.waiting } }, n, (e.dmaFinish c).dmaFollowers c) := by
  have hrec : dmaRecord { d with dma := { d.dma with waiting := [] } } m c = (e.dmaFinish c, n, (e.dmaFinish c).dmaFollowers c) := by
    have hx' : ({ d with dma := { d.dma with waiting := [] } } : Dev).dmaChan c = d.dmaChan c := rfl
    have hf' : ({ d with dma := { d.dma with waiting := [] } } : Dev).cqFull = false := hf
    simp only [dmaRecord, hx', hx, ho, hr, hf', he, Bool.false_eq_true, false_and, if_false, ne_eq, not_true_eq_false, or_self]
  unfold dmaRecordWrite
  simp only [hw, hf, Bool.false_eq_true, if_false, hrec]

@[simp] theorem natLE_length (n : Nat) : ∀ v, (natLE n v).length = n := by
  induction n with
  | zero => exact fun _ => rfl
  | succ n ih => intro v; rw [natLE, List.length_cons, ih]

/-- Table 95: the bytes of channel `c`'s completion record. -/
def Dev.recordBytesOf (d : Dev) (c : Nat) (x : DmaDesc) (o : DmaOutcome) : Bytes :=
  natLE 2 x.tag ++ natLE 1 c ++ natLE 1 o.status ++ natLE 4 o.bytes ++ natLE 4 x.slot ++ natLE 2 0 ++
    natLE 2 (o.flags + (if d.dma.phase then 0x8000 else 0))

theorem recordBytesOf_length (d : Dev) (c : Nat) (x : DmaDesc) (o : DmaOutcome) : (d.recordBytesOf c x o).length = 16 := by
  simp [Dev.recordBytesOf]

theorem jobLimit_congr {d e : Dev} (hp : e.part = d.part) (hw : e.win = d.win) : e.jobLimit = d.jobLimit := by
  simp only [Dev.jobLimit, Dev.rd, reg_congr hp hw]

/-- R422: a record within the job store is written as a host's write is. -/
theorem writeRecord_mem {x : DmaDesc} {o : DmaOutcome} {a : Nat}
    (ha : a = d.rd Fld.DMA_CQBASELO.BaseLo * 64 + d.rd Fld.DMA_CQBASEHI.BaseHi * 2 ^ 32 + 16 * d.rd Fld.DMA_CQPROD.Prod)
    (h : a + 16 ≤ d.jobLimit) :
    ∃ sec, (writeRecord d m c x o).2 = (m.hostWrite [] sec a (d.recordBytesOf c x o)).1 := by
  subst ha
  have hlim (n : Nat) : (d.wr Fld.DMA_CQPROD.Prod n).jobLimit = d.jobLimit := by
    simp only [Dev.jobLimit, Dev.rd]
    rw [reg_wr_ne _ _ (by decide), reg_wr_ne _ _ (by decide)]
  refine ⟨d.now.sec, ?_⟩
  unfold writeRecord
  extract_lets i a bs wraps d1 _ d2 m1
  have hd2 : d2.jobLimit = d.jobLimit := (jobLimit_congr (d := d1) rfl rfl).trans (hlim _)
  have hnow : d2.now.sec = d.now.sec := rfl
  have hbs : bs = d.recordBytesOf c x o := rfl
  have hm1 : m1 = (m.hostWrite [] d2.now.sec a bs).1 := rfl
  clear_value m1
  have hsnd (e : Dev) (n : Mem) : (e, n).2 = n := rfl
  rw [if_neg (by rw [hd2]; exact Nat.not_lt.2 h), hsnd, hm1, hnow, hbs]

end

end Sys2Proof.Machine
end

section
open Sys2Proof Sys2Proof.Machine

/-- Settles O60: each command of a channel is a case of its function, and a copy's bytes are read before any is written. -/
theorem dmaFetchesMovesAndRecords : Obligations.DmaFetchesMovesAndRecords := by
  refine ⟨?prod, ?cons, ?control, ?unit, ?channel, ?copy, ?record, ?recordBytes⟩
  case prod =>
    intro s path c v h hv d
    have hlt := lt_of_defined16 (definedBits_DMA_CHPROD c) hv
    have hc {e : Dev} (he : d.dmaProd c.val v.toNat = e) : Completes (.dmaProdWrite path c v) s e s.mem :=
      completes_live h.1 rfl (by rw [write_DMA_CHPROD c h hv, he])
    exact ⟨fun hb => hc (dmaProd_beyond hlt hb), fun hb => hc (dmaProd_within hlt hb)⟩
  case cons =>
    intro s path v h hv
    refine ⟨_, completes_live h.1 rfl (write_DMA_CQCONS h hv), keepReg_win .., keepReg_setBits_only _ Fld.DMA_CQCONS.Cons _ rfl, ?_⟩
    have hsame (w : Word) : bitsOf (setBits w 15 0 (bitsOf v.toNat 15 0)).toNat 15 0 = v.toNat % 65536 := by
      rw [bitsOf_setBits_same _ _ _ _ (by decide) (by decide), bitsOf_eq]
      simp
    rw [Dev.rd, show Fld.DMA_CQCONS.Cons.addr = Adr.DMA_CQCONS from rfl, keepReg_reg_same]
    exact hsame _
  case control =>
    intro s path c v
    constructor
    · intro h hv hno
      refine completes_live h.1 rfl ?_
      rw [writeBits_DMA_CHCTRL c (.inl rfl) h hv]
      exact dmaControl_resume (testBit_or_bits _ (by decide) (by decide)) hno
    · intro h hv hno d y
      refine ⟨?_, fun hp => dmaAbort_of_none hp, fun x hp hx => dmaAbort_of_trigger hp hx⟩
      have hy : dmaAbort d s.mem c.val = y := rfl
      clear_value y
      refine completes_live h.1 rfl ?_
      rw [writeBits_DMA_CHCTRL c (.inr rfl) h hv]
      exact (dmaControl_abort hno (testBit_or_bits _ (by decide) (by decide))).trans hy
  case unit =>
    intro s path u v h hv d y
    refine ⟨?_, resetUnit_crcUnit d u, resetUnit_state d u.val, resetUnit_reg d u.val⟩
    have hy : unitReset d s.mem u.val = y := rfl
    clear_value y
    refine completes_live h.1 rfl ?_
    rw [writeBits_CRC_CTRL u h hv]
    exact hy
  case channel =>
    intro s c finds t hr slot base x
    have hfetch {e : Dev} (he : dmaFetch s.dev s.mem c.val finds = (e, s.mem)) : Completes (.dmaDescFetch c finds) s e s.mem :=
      completes_live (f := fun d m => dmaFetch d m c.val finds) hr rfl he
    have htrigger {e : Dev} {m : Mem} (he : dmaTrigger s.dev s.mem c.val = (e, m)) : Completes (.dmaTrigger c) s e m :=
      completes_live (f := fun d m => dmaTrigger d m c.val) hr rfl he
    have htimer {e : Dev} {m : Mem} (he : dmaTimer s.dev s.mem t.val = (e, m)) : Completes (.dmaTimerExpiry t) s e m :=
      completes_live (f := fun d m => dmaTimer d m t.val) hr rfl he
    have hmoved {e : Dev} {m : Mem} (he : dmaComplete s.dev s.mem c.val finds = (e, m)) :
        Completes (.dmaComplete c finds) s e m :=
      completes_live (f := fun d m => dmaComplete d m c.val finds) hr rfl he
    refine ⟨fun h => hfetch (dmaFetch_of_busy h), fun hw hp hd => hfetch (dmaFetch_of_asleep hw hp hd),
      fun hw hp hd hring hbad hgood => ?_, fun h => htrigger (dmaTrigger_of_none h), fun x hx hp => ⟨?_, ?_, ?_⟩,
      fun h => htimer (dmaTimer_of_off h), fun h => htimer (dmaTimer_of_on h), fun h => hmoved (dmaComplete_of_idle h), ?_⟩
    · obtain ⟨e, he, hchan⟩ := dmaFetch_of_good hw hp c.isLt hd hring hbad rfl hgood
      exact ⟨e, hfetch he, hchan⟩
    · exact fun h0 h2 => htrigger (dmaTrigger_of_other hx hp h0 h2)
    · intro h0 hu hcheck
      refine htrigger ?_
      rw [dmaTrigger_of_immediate hx h0, dmaStart_of_no_unit hx hp hu, hcheck]
      exact dmaThen_nil ..
    · intro h0 hu st hcheck y
      have hy : dmaThen (dmaOutcome s.dev s.mem c.val x st 0 0 []) = y := rfl
      clear_value y
      refine htrigger ?_
      rw [dmaTrigger_of_immediate hx h0, dmaStart_of_no_unit hx hp hu, hcheck]
      exact hy
    · intro x hp hx he v y
      have hy : dmaThen (dmaMoved c.val x v (v.stop.getD 0)) = y := rfl
      clear_value y
      exact hmoved ((dmaComplete_of_moving hp hx he).trans hy)
  case copy =>
    intro d m finds x a hg hs hd hf hb v
    obtain ⟨hstop, hdone, hmem⟩ := dmaMove_of_copy (d := d) hg hs hd hf hb
    refine ⟨hstop, hdone, ?_⟩
    rw [hmem, Mem.byte_hostWrite, Mem.length_read]
    exact if_ctx_congr Iff.rfl (fun ha => m.getD_read _ _ _ (by omega)) fun _ => rfl
  case record =>
    intro s hr
    have hc {e : Dev} {m : Mem} (he : dmaRecordWrite s.dev s.mem = (e, m)) : Completes .dmaRecordWrite s e m :=
      completes_live (f := dmaRecordWrite) hr rfl he
    refine ⟨fun h => hc (dmaRecordWrite_of_waits h), ?_⟩
    intro c rest x o e m hw hf hx ho hrec he f y
    have hy := dmaRecordWrite_of_room hw hf hx ho hrec he
    exact hc hy
  case recordBytes =>
    intro d e m n c x o i he a bs ha hi
    obtain ⟨sec, hmem⟩ := writeRecord_mem (d := d) (m := m) (c := c) (x := x) (o := o) (a := a) rfl ha
    rw [he] at hmem
    have hn : n = (m.hostWrite [] sec a bs).1 := hmem
    have hl : bs.length = 16 := recordBytesOf_length d c x o
    rw [hn, Mem.byte_hostWrite, hl, if_pos ⟨by omega, by omega⟩, Nat.add_sub_cancel_left]

end

section
/-!
SUPPORT. Strip uses, the render budget and the raster pipeline (R49 to R57, R125 to R145, R165).
-/
namespace Sys2Proof.Machine

/-! ### A strip's header -/

/-- R51: a well-formed strip shows its LineCount. -/
theorem readableLines_of_good {limit plane off : Nat} {bs : Bytes} (h : stripFail limit plane off bs = none) :
    readableLines bs = some (stripHdr bs).lineCount := by
  unfold stripFail at h
  split at h
  · cases h
  · next hhead =>
    dsimp only at h
    split at h
    · cases h
    · split at h
      · cases h
      · next hcount =>
        have hrange : 1 ≤ leAt bs 6 2 ∧ leAt bs 6 2 ≤ 256 := by
          simp only [stripHdr] at hcount
          omega
        simp only [readableLines, hhead, hrange, and_self, if_true, stripHdr]

theorem key_of_page {d : Dev} {k : Nat} {p : Page} (h : d.page k = some p) : p.key = k := by
  simpa using List.find?_some h

/-! ### The dispatcher at a strip -/

section
variable {m : Mem} {finds : Finds} (h : m.sound finds)
include h

theorem badData_of_sound (off len : Nat) : m.badData finds off len = [] :=
  List.filter_eq_nil_iff.mpr (fun l _ => by simp [h.1 l])

omit h in
/-- R130: a cursor that stands at a strip which its page still needs opens that strip. -/
theorem decodeUseStart_at {d : Dev} {n : Nat} {p : Page} {c : DecodeCursor} (hc : (d.decode n).cursor = some c)
    (hu : ∀ u ∈ (d.decode n).uses, u.lines = []) (hp : d.page c.page = some p) (hcan : p.cancelled = false)
    (hneed : c.lines < d.needLines n p) (hleft : 0 < c.left) :
    d.decodeUseStart m finds n = d.openStrip m finds n p (d.needLines n p) c := by
  have hidle : (d.decode n).uses.any (fun u => !u.lines.isEmpty) = false := by
    simpa [List.any_eq_false] using hu
  have hstep : d.dispatchStep m finds n = (d.openStrip m finds n p (d.needLines n p) c, false) := by
    have hmore : ¬ (p.cancelled = true ∨ d.needLines n p ≤ c.lines) := by simp [hcan, hneed]
    unfold Dev.dispatchStep
    simp only [hidle, hc, hp, if_neg hmore, if_pos hleft, Bool.false_eq_true, if_false]
  unfold Dev.decodeUseStart
  dsimp only
  rw [Nat.add_comm, show 32 = 31 + 1 from rfl, ← Nat.add_assoc]
  simp only [Dev.dispatchLoop, hstep, Bool.false_eq_true, if_false]

/-- R51: a well-formed strip that does not pass Length starts its use. -/
theorem openStrip_of_good {d : Dev} {n need : Nat} {p : Page} {c : DecodeCursor}
    (hgood : stripFail d.jobLimit n c.strip (m.read c.strip 64) = none)
    (hlong : c.left = c.rep → c.lines + (stripHdr (m.read c.strip 64)).lineCount * c.rep ≤ need) :
    d.openStrip m finds n p need c = d.startUse m finds n need c.strip c (stripHdr (m.read c.strip 64)) := by
  have hfits : ¬ (c.left = c.rep ∧ need < c.lines + (stripHdr (m.read c.strip 64)).lineCount * c.rep) :=
    fun ⟨he, hlt⟩ => absurd (hlong he) (Nat.not_le.mpr hlt)
  unfold Dev.openStrip
  simp only [readAnswer_of_sound h, meetLines_of_sound h, readableLines_of_good hgood, Option.getD_some, if_neg hfits,
    hgood]

/-- R51, R55: a malformed strip that does not pass Length is reported and prints blank. -/
theorem openStrip_of_malformed {d : Dev} {n need f : Nat} {p : Page} {c : DecodeCursor} (hp : p.key = c.page)
    (hbad : stripFail d.jobLimit n c.strip (m.read c.strip 64) = some f)
    (hlong : c.left = c.rep → c.lines + (readableLines (m.read c.strip 64)).getD 0 * c.rep ≤ need) :
    d.openStrip m finds n p need c =
      (d.stripError c.page (noticeId (m.read c.strip 64)) c.strip f c.entryOff).addBlank n { c with left := c.left - 1 }
        need ((readableLines (m.read c.strip 64)).getD 0) := by
  have hfits : ¬ (c.left = c.rep ∧ need < c.lines + (readableLines (m.read c.strip 64)).getD 0 * c.rep) :=
    fun ⟨he, hlt⟩ => absurd (hlong he) (Nat.not_le.mpr hlt)
  unfold Dev.openStrip
  simp only [readAnswer_of_sound h, meetLines_of_sound h, if_neg hfits, hbad, hp]

section
variable {d : Dev} {n need off : Nat} {c : DecodeCursor} {x : StripHdr}

omit h in
theorem startUse_of_constant (he : x.enc = 2) :
    d.startUse m finds n need off c x =
      d.addUse n { c with left := c.left - 1 } (rawUse c.page c.lines 0 x.width (min x.lineCount (need - c.lines))
        (decide (min x.lineCount (need - c.lines) = x.lineCount)) x
        (List.replicate (min x.lineCount (need - c.lines) * x.width) (BitVec.ofNat 8 x.fill)) []) := by
  unfold Dev.startUse
  simp only [he, if_true]

theorem startUse_of_raw (he : x.enc = 0) :
    d.startUse m finds n need off c x =
      d.addUse n { c with left := c.left - 1 } (rawUse c.page c.lines (off + 64) x.width
        (min x.lineCount (need - c.lines)) (decide (min x.lineCount (need - c.lines) = x.lineCount)) x
        (m.read (off + 64) (min x.lineCount (need - c.lines) * x.width)) []) := by
  unfold Dev.startUse
  simp only [he, (by decide : ¬ ((0 : Nat) = 2)), (by decide : ¬ ((0 : Nat) = 1)), false_and, if_false, if_true,
    readAnswer_of_sound h, meetLines_of_sound h, badData_of_sound h]

theorem startUse_of_deflate {e : Nat} (he : x.enc = 1) (hc : x.continued = false) (hcopy : d.poolCopy off x = none)
    (hengine : d.ordinaryEngine = some e) :
    d.startUse m finds n need off c x =
      d.ordinaryUse m n off (min x.lineCount (need - c.lines)) { c with left := c.left - 1 } x [] e := by
  unfold Dev.startUse
  simp only [he, hc, (by decide : ¬ ((1 : Nat) = 2)), (by decide : ¬ ((1 : Nat) = 0)), and_self, if_false, if_true,
    hcopy, readAnswer_of_sound h, meetLines_of_sound h, badData_of_sound h, Bool.false_eq_true, hengine,
    Option.isSome_none]

end
end

/-! ### A use goes on and ends -/

/-- R125: the oldest use with lines left goes on filling the ring part. -/
theorem moveLines_of_front {d : Dev} {n : Nat} {u : Use} {us : List Use} (hu : (d.decode n).uses = u :: us)
    (hl : u.lines ≠ []) :
    d.moveLines n = d.setDecode n { d.decode n with
      ring := (d.fillRing n (d.decode n).ring u.lines).1
      uses := ({ u with lines := (d.fillRing n (d.decode n).ring u.lines).2 } :: us).filter (fun v => !v.spent) } := by
  have hfirst : (u :: us).findIdx? (fun v => !v.lines.isEmpty) = some 0 := by
    simp [List.findIdx?_cons, hl]
  unfold Dev.moveLines
  simp only [hu, hfirst, List.getElem?_cons_zero, List.set_cons_zero]

theorem decodeUseEnd_of_empty {d : Dev} {n : Nat} {u : Use} {us : List Use} (hu : (d.decode n).uses = u :: us)
    (hl : u.lines = []) :
    d.decodeUseEnd n = (d.setDecode n { d.decode n with uses := us }).useReports u.page u.finish := by
  unfold Dev.decodeUseEnd
  simp only [hu, hl, List.isEmpty_nil, if_true]

theorem decodeUseEnd_of_lines {d : Dev} {n : Nat} {u : Use} {us : List Use} (hu : (d.decode n).uses = u :: us)
    (hl : u.lines ≠ []) : d.decodeUseEnd n = d := by
  unfold Dev.decodeUseEnd
  simp only [hu, List.isEmpty_eq_false_iff.mpr hl, Bool.false_eq_true, if_false]

/-! ### Pre-expansion and the budget scan -/

theorem preExpansionDone_failed {d : Dev} {m : Mem} {x : PoolCopy} (hx : d.dec.pool.find? (fun y => !y.done) = some x) :
    d.preExpansionDone m false = { d with dec := { d.dec with pool := d.dec.pool.filter (fun y => y != x) } } := by
  unfold Dev.preExpansionDone
  simp only [hx, Bool.false_and, Bool.false_eq_true, if_false]

/-- R142: what makes a completed copy worth keeping, and the copy kept. -/
theorem preExpansionDone_good {d : Dev} {m : Mem} {x : PoolCopy} (hx : d.dec.pool.find? (fun y => !y.done) = some x)
    (hfit : x.fits x.offset (stripHdr (m.read x.offset 64)) = true)
    (hgood : stripFail d.jobLimit (stripHdr (m.read x.offset 64)).plane x.offset (m.read x.offset 64) = none)
    (he : (stripHdr (m.read x.offset 64)).enc = 1) (hc : (stripHdr (m.read x.offset 64)).continued = false)
    (hm : ∀ l, m.bad [] l = false) {o : InfOut}
    (ho : inflate Inf.fresh (m.read (x.offset + 64) (stripHdr (m.read x.offset 64)).comp)
      (stripHdr (m.read x.offset 64)).decoded false false = o)
    (herr : o.error = none) (hcrc : crc32c o.data = (stripHdr (m.read x.offset 64)).dataCrc) :
    d.preExpansionDone m true = Dev.bump { d with dec := { d.dec with
      pool := d.dec.pool.map (fun y => if y = x then { y with done := true, data := o.data } else y) } }
        Fld.DEC_EXPCNT.Count := by
  have hany : ∀ lines : List Nat, lines.any (m.bad []) = false := fun lines => by simp [hm]
  unfold Dev.preExpansionDone
  simp only [hx, hfit, hgood, he, hc, hany, ho, herr, hcrc, decide_true, Bool.not_false, Bool.and_self, if_true]

/-! The widths and times of the planes do not read the pages held. -/

section
variable (d : Dev) (k : Nat) (f : Page → Page)

theorem startCol_modPage (n : Nat) : ∀ h, (d.modPage k f).startCol n h = d.startCol n h
  | 0 => rfl
  | h + 1 => by
    simp only [Dev.startCol, startCol_modPage n h]
    rfl

theorem width_modPage (n : Nat) : (d.modPage k f).width n = d.width n := by
  unfold Dev.width
  rw [startCol_modPage]
  rfl

theorem windowTime_modPage (n : Nat) (b : BudgetWindow) : (d.modPage k f).windowTime n b = d.windowTime n b := by
  have htotal : (d.modPage k f).totalWidth = d.totalWidth := by
    simp only [Dev.totalWidth, width_modPage]
    rfl
  simp only [Dev.windowTime, width_modPage, htotal]
  rfl

theorem planeTime_modPage (n : Nat) (ws : List BudgetWindow) : (d.modPage k f).planeTime n ws = d.planeTime n ws := by
  simp only [Dev.planeTime, windowTime_modPage]

theorem overPlanes_modPage (ws : List (Nat × List BudgetWindow)) : (d.modPage k f).overPlanes ws = d.overPlanes ws := by
  simp only [Dev.overPlanes, planeTime_modPage]
  rfl

theorem misfit_modPage (n : Nat) (b : BudgetWindow) : (d.modPage k f).misfit n b = d.misfit n b := by
  simp only [Dev.misfit, windowTime_modPage]
  rfl

end

/-- R138 to R140: with no pool, a completed scan holds the charges of every window and judges them. -/
theorem budgetScanDone_of_no_pool {d : Dev} {m : Mem} {p : Page} {ws : List (Nat × List BudgetWindow)}
    (hp : d.job.pages.find? (fun q => q.budget.scanPending) = some p) (hpool : d.rd Fld.DEC_POOL.SizeGiB = 0)
    (hws : d.pageWindows m p = ws) :
    d.budgetScanDone m =
      Dev.budgetShort (d.modPage p.key (fun q => { q with budget := ⟨false, ws, false, 0⟩ })) p ws (d.overPlanes ws) := by
  have hpre : d.preExpand m p = d := by
    unfold Dev.preExpand
    rw [if_pos hpool]
  unfold Dev.budgetScanDone
  simp only [hp, hpre, hws, overPlanes_modPage]

theorem overPlanes_of_fits {d : Dev} {ws : List (Nat × List BudgetWindow)}
    (h : ∀ e ∈ ws, d.planeTime e.1 e.2 ≤ (d.planPeriod e.1 : Rat)) : d.overPlanes ws = [] := by
  unfold Dev.overPlanes
  rw [List.filter_map, List.map_eq_nil_iff, List.filter_eq_nil_iff]
  intro e he
  simpa using h e he

/-! ### The raster pipeline -/

section
variable {d : Dev} {n : Nat}

theorem rasterNow_of_single (hon : d.domOn 7 = true) (hmode : d.pair.mode = false) (hstate : d.pair.state ≠ .isolated) :
    d.rasterNow n = d.rasterLine n ∨ d.nextForm n = none ∧ d.rasterNow n = d := by
  unfold Dev.rasterNow Dev.rasterStep
  simp only [hon, if_true, if_neg hstate, hmode, Bool.false_and, Bool.false_eq_true, if_false]
  cases hf : d.nextForm n with
  | none => exact Or.inr ⟨rfl, rfl⟩
  | some f => exact Or.inl rfl

theorem rasterLine_of_full (h : ∃ p ∈ d.portsOf n, 4 ≤ (d.port p).queue.length) : d.rasterLine n = d := by
  have hfull : (d.portsOf n).any (fun p => decide (4 ≤ (d.port p).queue.length)) = true := by simpa using h
  unfold Dev.rasterLine
  rw [if_pos hfull]

theorem rasterLine_of_none (h : d.nextForm n = none) : d.rasterLine n = d := by
  unfold Dev.rasterLine
  simp only [h, ite_self]

/-- R165, R241: with room on every port and one page at the next event, its line is seen to and its entries formed. -/
theorem rasterLine_of_room {count : Int} {part : Nat × Nat} {e : Dev}
    (hroom : ∀ p ∈ d.portsOf n, (d.port p).queue.length < 4) (hnext : d.nextForm n = some (count, [part]))
    (hline : d.needLine n part = some e) :
    d.rasterLine n = (e.formEntry n [part] count).formed n [part] := by
  have hfull : (d.portsOf n).any (fun p => decide (4 ≤ (d.port p).queue.length)) = false := by simpa using hroom
  unfold Dev.rasterLine
  simp only [hfull, hnext, List.foldl_cons, List.foldl_nil, Option.bind_some, hline, Bool.false_eq_true, if_false]

theorem needLine_of_there {part : Nat × Nat} {p : Page} (hp : d.page part.1 = some p)
    (h : p.length ≤ part.2 - d.planeOffset n ∨
      (d.raster n).stag.any (fun l => l.page == part.1 && l.line == part.2 - d.planeOffset n) = true) :
    d.needLine n part = some d := by
  unfold Dev.needLine
  simp only [hp]
  rcases h with h | h
  · rw [if_pos h]
  · rw [if_pos h, ite_self]

theorem needLine_of_new {part : Nat × Nat} {p : Page} (hp : d.page part.1 = some p)
    (hlen : part.2 - d.planeOffset n < p.length)
    (hnew : (d.raster n).stag.any (fun l => l.page == part.1 && l.line == part.2 - d.planeOffset n) = false) :
    d.needLine n part = d.computeLine n p (part.2 - d.planeOffset n) := by
  unfold Dev.needLine
  simp only [hp, hnew, if_neg (Nat.not_le.mpr hlen), Bool.false_eq_true, if_false]

end
end Sys2Proof.Machine
end

section
open Sys2Proof Sys2Proof.Machine

/-- Settles O23: a cursor that stands at a strip opens it, and the strip's encoding says what its use is. -/
theorem decodeStartsStripUse : Obligations.DecodeStartsStripUse := by
  intro s n finds p c hr hon hmem hsound hc hu hp hcan hneed hleft raw h need keep next whole
  have hnow : s.dev.dispatchNow s.mem finds n.val = s.dev.openStrip s.mem finds n.val p need c := by
    unfold Dev.dispatchNow
    simp only [hc, Option.isNone_some, hon, hmem, Bool.false_and, Bool.not_true, Bool.false_eq_true, if_false]
    exact decodeUseStart_at hc hu hp hcan hneed hleft
  have hcomp {e : Dev} (he : s.dev.openStrip s.mem finds n.val p need c = e) :
      Completes (.decodeUseStart n finds) s e s.mem :=
    completes_live (f := fun d m => (d.dispatchNow m finds n.val, m)) hr rfl (by rw [hnow, he])
  refine ⟨fun hgood hlong => ?_, fun f hbad hlong => hcomp (openStrip_of_malformed hsound (key_of_page hp) hbad hlong)⟩
  have hopen := openStrip_of_good hsound (p := p) hgood hlong
  exact ⟨fun he => hcomp (hopen.trans (startUse_of_constant he)),
    fun he => hcomp (hopen.trans (startUse_of_raw hsound he)),
    fun e he hcont hcopy hengine => hcomp (hopen.trans (startUse_of_deflate hsound he hcont hcopy hengine))⟩

/-- Settles O24. That the end of a use changes nothing while it has lines left is the model's choice (log 17). -/
theorem decodeGoesOnAndEnds : Obligations.DecodeGoesOnAndEnds := by
  intro s n u us hr hu x
  have hend {e : Dev} (he : s.dev.decodeUseEnd n.val = e) : Completes (.decodeUseEnd n) s e s.mem :=
    completes_dev (f := fun d => d.decodeUseEnd n.val) hr rfl he
  refine ⟨fun hl => completes_dev (f := fun d => d.decodeResume n.val) hr rfl (moveLines_of_front hu hl),
    fun hl hq => hend ?_, fun k at_ hl hq => hend ?_, fun hl => hend (decodeUseEnd_of_lines hu hl), fun line => ?_⟩
  · rw [decodeUseEnd_of_empty hu hl, hq]
    rfl
  · rw [decodeUseEnd_of_empty hu hl, hq]
    rfl
  · exact ⟨_, completes_dev (f := fun d => d.endWait line) hr rfl rfl, rfl, rfl, rfl, rfl, rfl⟩

/-- Settles O25. -/
theorem preExpansionKeepsGoodCopies : Obligations.PreExpansionKeepsGoodCopies := by
  intro s x hr hx
  have hc (ok : Bool) {e : Dev} (he : s.dev.preExpansionDone s.mem ok = e) :
      Completes (.preExpansionDone ok) s e s.mem :=
    completes_live (f := fun d m => (d.preExpansionDone m ok, m)) hr rfl (by rw [he])
  refine ⟨hc false (preExpansionDone_failed hx), ?_⟩
  intro bs h o hfit hgood he hcont hm herr hcrc
  exact hc true (preExpansionDone_good hx hfit hgood he hcont hm rfl herr hcrc)

/-- Settles O26: a page within the plan period has no plane over it, one over it on a single plane has that one reported. -/
theorem budgetScanJudgesPage : Obligations.BudgetScanJudgesPage := by
  intro s p hr hp hpool ws d
  have hc {e : Dev} (he : d.budgetShort p ws (s.dev.overPlanes ws) = e) : Completes .budgetScanDone s e s.mem :=
    completes_live (f := fun d m => (d.budgetScanDone m, m)) hr rfl
      (by rw [budgetScanDone_of_no_pool hp hpool rfl]; exact congrArg (·, s.mem) he)
  refine ⟨fun hfit => hc (by rw [overPlanes_of_fits hfit]; rfl), ?_⟩
  intro n t hover mine
  refine hc ?_
  rw [hover]
  simp only [Dev.budgetShort, List.foldl_nil, d, misfit_modPage]
  rfl

/-- Settles O28: the pipeline stops on a full port and at the end of its runs, and else sees to the line of the next event. -/
theorem rasterFormsEntries : Obligations.RasterFormsEntries := by
  intro s n hr hon hmode hstate
  have hc {e : Dev} (he : s.dev.rasterNow n.val = e) : Completes (.rasterLine n) s e s.mem :=
    completes_dev (f := fun d => d.rasterNow n.val) hr rfl he
  have hnow := rasterNow_of_single (n := n.val) hon hmode hstate
  refine ⟨fun hfull => hc ?_, fun hnone => hc ?_, fun hroom count k e p hnext hp => ?_⟩
  · rcases hnow with h | ⟨-, h⟩
    · rw [h, rasterLine_of_full hfull]
    · exact h
  · rcases hnow with h | ⟨-, h⟩
    · rw [h, rasterLine_of_none hnone]
    · exact h
  · have hline : s.dev.rasterNow n.val = s.dev.rasterLine n.val :=
      hnow.resolve_right (fun ⟨h, _⟩ => by rw [hnext] at h; cases h)
    intro g there
    refine ⟨fun h => hc ?_, fun hlen hnew d hd => hc ?_⟩
    · exact hline.trans (rasterLine_of_room hroom hnext (needLine_of_there hp h))
    · exact hline.trans (rasterLine_of_room hroom hnext ((needLine_of_new hp hlen hnew).trans hd))

end

section
/-!
SUPPORT. Position channels and probes (R199 to R214).
-/
namespace Sys2Proof.Machine

section
variable {d : Dev} {c : Fin 4}

/-! ### Counting edges -/

theorem unit_eq (d : Dev) (c : Fin 4) (up : Bool) :
    d.unit c up = if xor up (decide (d.rd (Fld.LT_CHCFG.Invert c.val) = 1)) then 1 else -1 := rfl

theorem quadratureEdge_of_none {a b : Bool} {ns : Nat} (hm : d.mode c = 1) (ha : a = (d.chan c).a) (hb : b = (d.chan c).b) :
    d.quadratureEdge c a b ns = d.setChan c { d.chan c with a := a, b := b } := by
  have hmode : ¬ ((d.setChan c { d.chan c with a := a, b := b }).mode c ≠ 1) := not_not.mpr hm
  unfold Dev.quadratureEdge
  simp only [if_neg hmode]
  rw [if_neg (fun h => h.1 ha), if_pos ⟨ha, hb⟩]

theorem quadratureEdge_of_both {a b : Bool} {ns : Nat} (hm : d.mode c = 1) (ha : a ≠ (d.chan c).a) (hb : b ≠ (d.chan c).b) :
    d.quadratureEdge c a b ns = (d.setChan c { d.chan c with a := a, b := b }).doubleTransition c ns := by
  have hmode : ¬ ((d.setChan c { d.chan c with a := a, b := b }).mode c ≠ 1) := not_not.mpr hm
  unfold Dev.quadratureEdge
  simp only [if_neg hmode]
  rw [if_pos ⟨ha, hb⟩]

/-- R200: one line's change counts one step, in the direction that Swap and Invert give it. -/
theorem quadratureEdge_of_one {a b : Bool} {ns : Nat} (hm : d.mode c = 1)
    (h : xor (decide (a = (d.chan c).a)) (decide (b = (d.chan c).b)) = true) :
    d.quadratureEdge c a b ns = (d.setChan c { d.chan c with a := a, b := b }).count c
      (d.unit c (if d.rd (Fld.LT_CHCFG.Swap c.val) = 1 then xor b (d.chan c).a else xor a (d.chan c).b)) ns := by
  have hmode : ¬ ((d.setChan c { d.chan c with a := a, b := b }).mode c ≠ 1) := not_not.mpr hm
  have hboth : ¬ (a ≠ (d.chan c).a ∧ b ≠ (d.chan c).b) := fun ⟨ha, hb⟩ => by simp [ha, hb] at h
  have hnone : ¬ (a = (d.chan c).a ∧ b = (d.chan c).b) := fun ⟨ha, hb⟩ => by simp [ha, hb] at h
  unfold Dev.quadratureEdge
  simp only [if_neg hmode, if_neg hboth, if_neg hnone, decide_eq_true_eq]
  rfl

section
variable {rising dir changed : Bool} {ns : Nat} (hm : d.mode c = 2)

theorem stepEdge_of_inactive (h : (rising != decide (d.rd (Fld.LT_CHCFG.StepEdge c.val) = 1)) = false) :
    d.stepEdge c rising dir changed ns = d := by
  unfold Dev.stepEdge
  rw [if_pos (Or.inr (by simpa using h))]

include hm in
/-- R202: an accepted STEP edge counts by DIR, and is a double transition where DIR changed with it. -/
theorem stepEdge_of_active (h : (rising != decide (d.rd (Fld.LT_CHCFG.StepEdge c.val) = 1)) = true) :
    d.stepEdge c rising dir changed ns =
      if changed then d.doubleTransition c ns else d.count c (d.unit c dir) ns := by
  have hact : ¬ (d.mode c ≠ 2 ∨ rising = decide (d.rd (Fld.LT_CHCFG.StepEdge c.val) = 1)) := by
    rintro (hne | he)
    · exact hne hm
    · simp [he] at h
  unfold Dev.stepEdge
  rw [if_neg hact]

end

/-! ### Speed reports -/

theorem speedWindowEnd_of_still (h : (d.chan c).still = true) : d.speedWindowEnd c = d := if_pos h

theorem speedWindowEnd_of_moving (h : (d.chan c).still = false) :
    d.speedWindowEnd c = (((d.showSpeed c false false (wrap48 ((d.chan c).pos - (d.chan c).windowStart))).startWindow c
      (d.chan c).pos).judgeWarn.releaseOverspeed (d.chan c).windowAfterAbandon) := if_neg (by simp [h])

/-! ### SSI frames -/

section
variable {ns : Nat} (hm : d.mode c = 3)
include hm

theorem ssiFrameStart_eq : d.ssiFrameStart c ns =
    if d.clocksSsi then (d.setSsi c (fun q => { q with startNs := ns, dropped := false })).emit
      (.ssiClock c.val (d.rd (Fld.LT_SSI.Bits c.val)))
    else d.setSsi c (fun q => { q with startNs := ns, dropped := false }) := by
  unfold Dev.ssiFrameStart
  rw [if_neg (not_not.mpr hm)]
  rfl

omit hm in
theorem ssiFrame_of_dropped {raw : Nat} {high low : Bool} (hd : (d.chan c).ssi.dropped = true) :
    d.ssiFrame c raw high low ns = d := if_pos (Or.inr hd)

theorem ssiFrame_of_bad {raw : Nat} {high low : Bool} (hd : (d.chan c).ssi.dropped = false)
    (hbad : high = false ∨ low = false) :
    d.ssiFrame c raw high low ns = (d.sticky (Fld.LT_CHSTAT.FrameErr c.val)).faultMark c ns := by
  have hb : (!high || !low) = true := by rcases hbad with h | h <;> simp [h]
  unfold Dev.ssiFrame
  rw [if_neg (by simp [hm, hd]), if_pos hb]

/-- R204: the first good word loads the counter, a later one moves it by the signed difference. -/
theorem ssiFrame_of_good {raw w bits : Nat} {y : SsiSt} (hd : (d.chan c).ssi.dropped = false)
    (hbits : d.rd (Fld.LT_SSI.Bits c.val) = bits) (hy : (d.chan c).ssi = y)
    (hw : (if d.rd (Fld.LT_SSI.Gray c.val) = 1 then grayBinary (raw % 2 ^ bits) else raw % 2 ^ bits) = w) :
    d.ssiFrame c raw true true ns =
      if y.loaded then
        (d.setSsi c (fun q => { q with
          word := w, pos := wrap48 (y.pos + signedOf bits (patternOf bits ((w : Int) - y.word))),
          step := some (signedOf bits (patternOf bits ((w : Int) - y.word)), y.startNs - y.latchNs),
          latchNs := y.startNs, advancing := true })).moveChannel c
            (wrap48 (y.pos + signedOf bits (patternOf bits ((w : Int) - y.word)))) ns
      else d.ssiLoad c w := by
  unfold Dev.ssiFrame
  rw [if_neg (by simp [hm, hd])]
  simp only [hbits, hw, Bool.not_true, Bool.or_self, Bool.false_eq_true, if_false]
  subst hy
  rfl

/-- R204: within one Period of the last good frame the counter goes on at its speed. -/
theorem ssiCountAdvance_of_step {diff : Int} {t : Nat} (hs : (d.chan c).ssi.step = some (diff, t))
    (ha : (d.chan c).ssi.advancing = true) (ht : t ≠ 0)
    (hp : ns - (d.chan c).ssi.latchNs ≤ d.rd (Fld.LT_SSIPOLL.Period c.val) * 10) :
    d.ssiCountAdvance c ns = d.moveChannel c (wrap48 ((d.chan c).ssi.pos +
      Int.tdiv (diff * ((ns - (d.chan c).ssi.latchNs : Nat) : Int)) t)) ns := by
  have hgo : ¬ (d.mode c ≠ 3 ∨ (d.chan c).ssi.advancing = false ∨ t = 0 ∨
      d.rd (Fld.LT_SSIPOLL.Period c.val) * 10 < ns - (d.chan c).ssi.latchNs) := by
    simp [hm, ha, ht, hp]
  unfold Dev.ssiCountAdvance
  simp only [hs, if_neg hgo]

end

theorem ssiCountAdvance_of_none {ns : Nat} (hs : (d.chan c).ssi.step = none) : d.ssiCountAdvance c ns = d := by
  unfold Dev.ssiCountAdvance
  simp only [hs]

/-! ### Index, probes and LT_CHCTRL -/

theorem indexLatch_of_inactive {rising : Bool} (h : rising = decide (d.rd (Fld.LT_CHCFG.ZPol c.val) = 1)) :
    d.indexLatch c rising = d := if_pos (Or.inr h)

theorem index_apart : ∀ c : Fin 4, (Fld.LT_IDXDIST.Distance c.val).ok = true ∧
    (Fld.LT_IDXDIST.Distance c.val).apart (Fld.LT_CPR.Cpr c.val) = true := by decide

/-- R208: an active edge of Z latches the counter; a second one in the same direction with no reversal between shows the
distance, which without Cpr is not judged. -/
theorem indexLatch_of_active {rising : Bool} (hm : d.mode c = 1 ∨ d.mode c = 2)
    (h : rising = !decide (d.rd (Fld.LT_CHCFG.ZPol c.val) = 1))
    (hcpr : (d.chan c).idxSeen = false ∨ d.rd (Fld.LT_CPR.Cpr c.val) = 0) :
    d.indexLatch c rising =
      if (d.chan c).idxSeen && !(d.chan c).idxReversed && decide ((d.chan c).idxDir = (d.chan c).reverse) then
        (d.setChan c { d.chan c with
          idx := (d.chan c).pos, idxSeen := true, idxReversed := false, idxDir := (d.chan c).reverse }).wr (Fld.LT_IDXDIST.Distance c.val)
            (min 0xFFFFFFFF (wrap48 ((d.chan c).pos - (d.chan c).idx)).natAbs)
      else d.setChan c { d.chan c with
          idx := (d.chan c).pos, idxSeen := true, idxReversed := false, idxDir := (d.chan c).reverse } := by
  have hact : ¬ ((d.mode c ≠ 1 ∧ d.mode c ≠ 2) ∨ rising = decide (d.rd (Fld.LT_CHCFG.ZPol c.val) = 1)) := by
    rintro (⟨h1, h2⟩ | he)
    · exact hm.elim h1 h2
    · simp [h] at he
  unfold Dev.indexLatch
  rw [if_neg hact]
  dsimp only
  rcases hcpr with hs | h0
  · simp only [hs, Bool.false_and, Bool.not_false, if_true, Bool.false_eq_true, if_false]
  · have hz (e : Dev) (he : e.rd (Fld.LT_CPR.Cpr c.val) = 0) (v : Nat) :
        (e.wr (Fld.LT_IDXDIST.Distance c.val) v).rd (Fld.LT_CPR.Cpr c.val) = 0 :=
      (rd_wr_ne e _ _ v (index_apart c).1 (index_apart c).2).trans he
    simp only [hz _ (show (d.setChan c _).rd (Fld.LT_CPR.Cpr c.val) = 0 from h0), Nat.lt_irrefl, false_and, if_false,
      Bool.not_eq_true', Bool.eq_false_iff, ite_not]

theorem probe_apart : ∀ k : Fin 4, (Fld.LT_PRBCNT.Count k.val).ok = true ∧
    (Fld.LT_PRBCNT.Count k.val).apart (Fld.LT_PRBCFG.PageStart k.val) = true := by decide

theorem probeLatch_of_other {k : Fin 4} {rising : Bool} (h : probeTakes (d.rd (Fld.LT_PRBCFG.Edge k.val)) rising = false) :
    d.probeLatch k rising = d := if_neg (by simp [h])

/-- R205: an edge of the configured kind latches the counter and is counted; without PageStart that is all. -/
theorem probeLatch_of_taken {k : Fin 4} {rising : Bool} (h : probeTakes (d.rd (Fld.LT_PRBCFG.Edge k.val)) rising = true)
    (hs : d.rd (Fld.LT_PRBCFG.PageStart k.val) = 0) :
    d.probeLatch k rising = (d.setProbe k { d.lt.probes[k] with
      latch := (d.chan (Fin.ofNat 4 (d.rd (Fld.LT_PRBCFG.Channel k.val)))).pos }).bump (Fld.LT_PRBCNT.Count k.val) := by
  unfold Dev.probeLatch
  rw [if_pos h]
  exact if_pos ((rd_bump_ne _ _ _ (probe_apart k).1 (probe_apart k).2).trans hs)

/-- R412: where the planes are as they were, no line event triggers a descriptor. -/
theorem dmaPrintEvents_of_planes {d e : Dev} (m : Mem) (h : ∀ n, e.plane n = d.plane n) :
    dmaPrintEvents d (e, m) = (e, m) := by
  unfold dmaPrintEvents
  generalize List.range 8 = l
  induction l with
  | nil => rfl
  | cons n l ih =>
    rw [List.foldl_cons]
    simpa [h n] using ih

theorem setPos_of_busy (h : d.channelBusy c.val = true) : d.setPos c = d.sticky Fld.LT_ERR.CfgBusy := if_pos h

/-- R207: on a channel on which nothing prints, the counter, its high-water mark and its reversal state are loaded. -/
theorem setPos_of_free (h : d.channelBusy c.val = false) :
    let p := signedOf 48 (d.rd (Fld.LT_POSSETLO.SetLo c.val) + 2 ^ 32 * d.rd (Fld.LT_POSSETHI.SetHi c.val))
    ((d.setPos c).chan c).pos = p ∧ ((d.setPos c).chan c).hwm = p ∧ ((d.setPos c).chan c).reverse = false ∧
      ∀ k, k ≠ c → (d.setPos c).chan k = d.chan k := by
  intro p
  have he : d.setPos c = (d.setChan c { d.chan c with
      pos := p, hwm := p, mark := p, reverse := false,
      windowStart := wrap48 ((d.chan c).windowStart + (p - (d.chan c).pos)),
      ssi := { (d.chan c).ssi with pos := wrap48 ((d.chan c).ssi.pos + (p - (d.chan c).pos)) } }).wr
        (Fld.LT_CHSTAT.Reverse c.val) 0 := if_neg (by simp [h])
  have hwr (e : Dev) (f : FieldRef) (v : Nat) (k : Fin 4) : (e.wr f v).chan k = e.chan k := rfl
  rw [he]
  simp only [hwr, chan_setChan_same, true_and]
  exact fun k hk => chan_setChan_ne _ hk _

/-- R213: PageStart alone is a page-start event, on a device that is no keeper and takes no forwarded write. -/
theorem channelControl_pageStart {m : Mem} {path : Path} (hk : d.isKeeper = false) (hp : path ≠ .partner) :
    channelControl d m c path 4 = dmaPrintEvents d (d.pageStart c, m) := by
  unfold channelControl
  simp [hk, hp, show Nat.testBit 4 0 = false from rfl, show Nat.testBit 4 1 = false from rfl,
    show Nat.testBit 4 2 = true from rfl]

theorem readRow_LT_POSLO : ∀ c : Fin 4, ReadRow (Adr.LT_POSLO c.val) (Adr.LT_POSLO 0) c.val := by
  intro c
  fin_cases c <;> exact ⟨rfl, rfl, rfl, _, rfl, rfl⟩

theorem holds_LT_POSLO (c : Fin 4) (p : Part) : holdsRegister p (Adr.LT_POSLO c.val) = true := by
  cases p <;> fin_cases c <;> rfl

theorem silent_LT_POSLO (c : Fin 4) (p : Part) : silentRegister p (Adr.LT_POSLO c.val) = false := by
  cases p <;> fin_cases c <;> rfl

theorem LT_POSLO_ne_JNL_RDDATA : ∀ c : Fin 4, Adr.LT_POSLO c.val ≠ Adr.JNL_RDDATA := by decide

/-- R207: a read of LT_POSLO captures the high bits of the counter. -/
theorem readAccess_LT_POSLO (h : d.serviceReaches (Adr.LT_POSLO c.val) = true) :
    d.readAccess (Adr.LT_POSLO c.val) = d.posloRead c := by
  obtain ⟨r, hb, hr, he⟩ := readAccess_row (readRow_LT_POSLO c) h (holds_LT_POSLO c d.part) (silent_LT_POSLO c d.part)
  have hc : Fin.ofNat 4 c.val = c := Fin.ext (Nat.mod_eq_of_lt c.isLt)
  rw [he, if_neg (LT_POSLO_ne_JNL_RDDATA c), Dev.readEffect, hr]
  simp only [hb, if_true, hc]

end
end Sys2Proof.Machine
end

section
open Sys2Proof Sys2Proof.Machine

/-- Settles O31. The warning judged at a timeout (logs 55 and 143) and a window end that changes nothing while still
(log 17) are the model's choices. -/
theorem channelsCountAndReport : Obligations.ChannelsCountAndReport := by
  intro s c ns hr x inv
  refine ⟨fun a b hcount hm => ?quadrature, fun rising dir changed hcount hm => ?step, fun hon => ?speed⟩
  case quadrature =>
    have hc {e : Dev} (he : s.dev.quadratureEdge c a b ns = e) : Completes (.quadratureEdge c a b ns) s e s.mem :=
      completes_dev (f := fun d => d.ifCounting (fun d => d.quadratureEdge c a b ns)) hr rfl ((if_pos hcount).trans he)
    intro d up
    exact ⟨fun ha hb => hc (quadratureEdge_of_none hm ha hb), fun ha hb => hc (quadratureEdge_of_both hm ha hb),
      fun hx => hc (quadratureEdge_of_one hm hx)⟩
  case step =>
    have hc {e : Dev} (he : s.dev.stepEdge c rising dir changed ns = e) :
        Completes (.stepEdge c rising dir changed ns) s e s.mem :=
      completes_dev (f := fun d => d.ifCounting (fun d => d.stepEdge c rising dir changed ns)) hr rfl
        ((if_pos hcount).trans he)
    intro active
    exact ⟨fun h => hc (stepEdge_of_inactive h), fun h hch => hc ((stepEdge_of_active hm h).trans (if_pos hch)),
      fun h hch => hc ((stepEdge_of_active hm h).trans (if_neg (by simp [hch])))⟩
  case speed =>
    have hc {e : Dev} (he : s.dev.speedWindowEnd c = e) : Completes (.speedWindowEnd c) s e s.mem :=
      completes_dev (f := fun d => d.ifPosition (fun d => d.speedWindowEnd c)) hr rfl ((if_pos hon).trans he)
    exact ⟨fun h => hc (speedWindowEnd_of_still h), fun h => hc (speedWindowEnd_of_moving h),
      completes_dev (f := fun d => d.ifPosition (fun d => d.stillTimeout c)) hr rfl (if_pos hon)⟩

/-- Settles O32. A frame is bad where its start sample is low or its stop sample bad (the model's reading, log 159). -/
theorem ssiFramesMoveTheCounter : Obligations.SsiFramesMoveTheCounter := by
  intro s c ns hr hon hm bits y d
  have hpos (f : Dev → Dev) {e : Dev} (he : f s.dev = e) : s.dev.ifPosition f = e := (if_pos hon).trans he
  have hstart {e : Dev} (he : s.dev.ssiFrameStart c ns = e) : Completes (.ssiFrameStart c ns) s e s.mem :=
    completes_dev (f := fun d => d.ifPosition (fun d => d.ssiFrameStart c ns)) hr rfl (hpos _ he)
  have hframe {raw high low} {e : Dev} (he : s.dev.ssiFrame c raw high low ns = e) :
      Completes (.ssiFrame c raw high low ns) s e s.mem :=
    completes_dev (f := fun d => d.ifPosition (fun d => d.ssiFrame c raw high low ns)) hr rfl (hpos _ he)
  have hadvance {e : Dev} (he : s.dev.ssiCountAdvance c ns = e) : Completes (.ssiCountAdvance c ns) s e s.mem :=
    completes_dev (f := fun d => d.ifPosition (fun d => d.ssiCountAdvance c ns)) hr rfl (hpos _ he)
  refine ⟨fun h => hstart ((ssiFrameStart_eq hm).trans (if_pos h)),
    fun h => hstart ((ssiFrameStart_eq hm).trans (if_neg (by simp [h]))),
    fun hd raw high low => hframe (ssiFrame_of_dropped hd), fun hd raw high low hbad => hframe (ssiFrame_of_bad hm hd hbad),
    fun hd raw => ?_, fun diff t hs ha ht hp => hadvance (ssiCountAdvance_of_step hm hs ha ht hp),
    fun hs => hadvance (ssiCountAdvance_of_none hs),
    completes_dev (f := fun d => d.ifPosition (fun d => d.ssiHoldExpiry c)) hr rfl (hpos _ rfl)⟩
  intro w diff
  have hgood := ssiFrame_of_good (ns := ns) (raw := raw) (w := w) hm hd rfl rfl rfl
  exact ⟨fun hl => hframe (hgood.trans (if_neg (Bool.eq_false_iff.mp hl))),
    fun hl => hframe (hgood.trans (if_pos hl))⟩

/-- Settles O33. The distance taken without its sign is the model's choice (log 56). -/
theorem positionsLatchedAndLoaded : Obligations.PositionsLatchedAndLoaded := by
  refine ⟨?index, ?probe, ?poslo, ?setPos, ?clearFault, ?pageStart⟩
  case index =>
    intro s c rising hr hcount hm x d zpol
    have hc {e : Dev} (he : s.dev.indexLatch c rising = e) : Completes (.indexLatch c rising) s e s.mem :=
      completes_dev (f := fun d => d.ifCounting (fun d => d.indexLatch c rising)) hr rfl ((if_pos hcount).trans he)
    refine ⟨fun h => hc (indexLatch_of_inactive h), fun h hs => hc ?_, fun h hs hrev hdir h0 => hc ?_⟩
    · exact (indexLatch_of_active hm h (.inl hs)).trans (if_neg (by simp [show (s.dev.chan c).idxSeen = false from hs]))
    · exact (indexLatch_of_active hm h (.inr h0)).trans (if_pos (by
        simp [show (s.dev.chan c).idxSeen = true from hs, show (s.dev.chan c).idxReversed = false from hrev,
          show (s.dev.chan c).idxDir = (s.dev.chan c).reverse from hdir]))
  case probe =>
    intro s k rising ns hr hon d
    have hc {e : Dev} (he : d.probeLatch k rising = e) (hp : ∀ n, e.plane n = d.plane n) :
        Completes (.probeLatch k rising ns) s e s.mem :=
      completes_live (f := fun d m => probeEdge { d with lt := { d.lt with ns := max ns d.lt.ns } } m k rising) hr rfl
        ((if_pos (show d.domOn 13 = true from hon)).trans (by rw [he, dmaPrintEvents_of_planes _ hp]))
    exact ⟨fun h => hc (probeLatch_of_other h) (fun _ => rfl),
      fun h hs => hc (probeLatch_of_taken h hs) (fun _ => rfl)⟩
  case poslo =>
    intro s c hr hreach
    exact completes_dev (f := fun d => d.readAccess (Adr.LT_POSLO c.val)) hr rfl (readAccess_LT_POSLO hreach)
  case setPos =>
    intro s path c h d
    have hc {e : Dev} (he : d.setPos c = e) : Completes (.setPos path c) s e s.mem :=
      completes_live h.1 rfl ((write_LT_CHCTRL h rfl).trans (congrArg (·, s.mem) he))
    exact ⟨fun hb => hc (setPos_of_busy hb), fun hb => ⟨d.setPos c, hc rfl, setPos_of_free hb⟩⟩
  case clearFault =>
    intro s path c h d
    exact completes_live h.1 rfl (write_LT_CHCTRL h rfl)
  case pageStart =>
    intro s path c h d x hp hk
    have hkeep : d.isKeeper = false := (isKeeper_congr (met_pair ..)).trans hk
    have hx : channelControl d s.mem c path 4 = x := channelControl_pageStart hkeep hp
    clear_value x
    exact completes_live h.1 rfl ((write_LT_CHCTRL h rfl).trans hx)

end

section
/-!
SUPPORT. Head ports, lane deskew and the commit word (R231 to R262, R450 to R452).
-/
namespace Sys2Proof.Machine

section
variable {d : Dev} {p : Nat}

/-! ### Shifts -/

theorem shiftNow_of_on (h : d.domOn (8 + p / 16) = true) : d.shiftNow p = d.shiftStart p := if_pos (by rw [h]; rfl)

/-- R251: with which entry the bits returned during the present shift are compared. -/
def Port.toCompare (x : Port) : Option (Nat × Entry) := x.prev.bind (fun e => if x.whole then some (x.n, e) else none)

theorem shiftComplete_of_busy (h : (d.port p).shift = .busy) :
    d.shiftComplete p = d.setPort p { d.port p with shift := .done, compare := (d.port p).toCompare } := by
  have hcmp : (d.port p).toCompare = match (d.port p).prev with
      | some e => if (d.port p).whole then some ((d.port p).n, e) else none
      | none => none := by
    unfold Port.toCompare
    cases (d.port p).prev <;> rfl
  rw [hcmp]
  unfold Dev.shiftComplete
  simp only [h] <;> rfl

theorem toCompare_of_whole {x : Port} {e : Entry} (hp : x.prev = some e) (hw : x.whole = true) :
    x.toCompare = some (x.n, e) := by
  simp [Port.toCompare, hp, hw]

theorem toCompare_of_break {x : Port} (h : x.prev = none ∨ x.whole = false) : x.toCompare = none := by
  rcases h with h | h
  · simp [Port.toCompare, h]
  · cases hp : x.prev <;> simp [Port.toCompare, hp, h]

theorem shiftComplete_of_orphan (h : (d.port p).shift = .orphan) :
    d.shiftComplete p = d.setPort p { d.port p with shift := .none, prev := none, whole := false, compare := none } := by
  unfold Dev.shiftComplete
  simp only [h]

/-! ### The echo check and the latency search -/

/-- R327: a compare that adds no evidence states none. -/
theorem echoCompare_of_same {bits : List Bool} {e : Dev} (h : d.echoResult p bits = e)
    (hp : e.pair.evidence = d.pair.evidence) : d.echoCompare p bits = e := by
  unfold Dev.echoCompare
  simp only [h, hp, List.drop_length, List.foldl_nil]

theorem echoResult_of_none {bits : List Bool} (h : (d.port p).compare = none) : d.echoResult p bits = d := by
  unfold Dev.echoResult
  simp only [h]

section
variable {bits sent : List Bool} {k : Nat} {e : Entry} (hc : (d.port p).compare = some (k, e))
  (hs : d.laneBits e (k % d.laneCount e.plane) = sent)
include hc hs

/-- R252: outside a search the first bit that differs at the port's latency is reported. -/
theorem echoResult_of_check (hf : (d.port p).find.active = false) :
    d.echoResult p bits =
      match firstDiff sent bits.toArray (d.rd (Fld.HP_ECHO.Latency p)) with
      | none => d.setPort p { d.port p with compare := none }
      | some i => (d.setPort p { d.port p with compare := none }).echoMismatch p k (k % d.laneCount e.plane) i e := by
  subst hs
  unfold Dev.echoResult
  simp only [hc, hf, Bool.false_eq_true, if_false] <;> rfl

theorem echoResult_of_unfit (hf : (d.port p).find.active = true) (hq : lanQualifies sent = false) :
    d.echoResult p bits = d.setPort p { d.port p with compare := none } := by
  have hq' : lanQualifies ((d.setPort p { d.port p with compare := none }).laneBits e
      (k % (d.setPort p { d.port p with compare := none }).laneCount e.plane)) = false := by
    subst hs
    exact hq
  unfold Dev.echoResult
  simp only [hc, hf, hq', if_true, Bool.false_eq_true, if_false]

/-- R254: a lane that qualifies gives the search its latency, which ends where none matches or two have been found. -/
theorem echoResult_of_search (hf : (d.port p).find.active = true) (hq : lanQualifies sent = true) :
    d.echoResult p bits =
      match matchLatency sent bits.toArray with
      | none => (d.setPort p { d.port p with compare := none }).endFind p none
      | some l =>
        match (d.port p).find.last with
        | none => (d.setPort p { d.port p with compare := none }).setPort p
            { (d.setPort p { d.port p with compare := none }).port p with find := ⟨true, some l⟩ }
        | some m => (d.setPort p { d.port p with compare := none }).endFind p (if l = m then some l else none) := by
  have hq' : lanQualifies ((d.setPort p { d.port p with compare := none }).laneBits e
      (k % (d.setPort p { d.port p with compare := none }).laneCount e.plane)) = true := by
    subst hs
    exact hq
  subst hs
  unfold Dev.echoResult
  simp only [hc, hf, hq', if_true] <;> rfl

end

theorem endFind_pair (found : Option Nat) : (d.endFind p found).pair = d.pair := by
  cases found <;> rfl

/-- R327: a device outside a pair keeps no evidence. -/
theorem echoMismatch_pair {k lane i : Nat} {e : Entry} (h : d.inPair = false) :
    (d.echoMismatch p k lane i e).pair = d.pair := by
  unfold Dev.echoMismatch
  extract_lets a b _ c
  have ha : a.pair = d.pair := by
    dsimp only [a]
    split <;> rfl
  have hb : b.pair = d.pair := ha
  have hc : c.pair = d.pair := by
    have hin : b.inPair = false := by rw [Dev.inPair, hb]; exact h
    simp only [c, hin, Bool.false_eq_true, if_false, hb]
  clear_value c
  split
  · exact hc
  · split
    · exact hc
    · split
      · exact hc
      · exact (notice_pair ..).trans hc

theorem findTimeout_of_active (h : (d.port p).find.active = true) : d.findTimeout p = d.endFind p none := if_pos h

theorem findTimeout_of_idle (h : (d.port p).find.active = false) : d.findTimeout p = d := if_neg (by simp [h])

theorem bitRow_HP_ECHO (p : Fin 64) : BitRow (Adr.HP_ECHO p.val) (Adr.HP_ECHO 0) p.val 0x400 := by
  refine ⟨by revert p; decide, by revert p; decide, by decide, ?_⟩
  fin_cases p <;> exact ⟨_, _, rfl, rfl, by decide⟩

theorem HP_ECHO_apart : ∀ p : Fin 64, Adr.HP_ECHO p.val ≠ Adr.PWR_LASTWAKE ∧ Adr.HP_ECHO p.val ≠ Adr.PWR_WAKECNT := by
  decide

theorem block_HP_ECHO : ∀ p : Fin 64, Adr.HP_ECHO p.val / 0x10000 = 16 := by decide

theorem silent_HP_ECHO (p : Fin 64) (q : Part) (h : holdsRegister q (Adr.HP_ECHO p.val) = true) :
    silentRegister q (Adr.HP_ECHO p.val) = false := by
  cases q <;> revert p <;> decide

/-- R254: what a write of HP_ECHO with Find set does. -/
theorem writeBits_HP_ECHO {s : State} {path : Path} (p : Fin 64)
    (hold : holdsRegister s.dev.part (Adr.HP_ECHO p.val) = true)
    (h : Reaches s path (Adr.HP_ECHO p.val) (s.dev.reg (Adr.HP_ECHO p.val) ||| 0x400#32))
    (hv : BitVec.ofNat 32 ((s.dev.reg (Adr.HP_ECHO p.val) ||| 0x400#32).toNat &&& definedBits (Adr.HP_ECHO p.val)) =
      s.dev.reg (Adr.HP_ECHO p.val) ||| 0x400#32) :
    writeBits path (Adr.HP_ECHO p.val) 0x400 s.dev s.mem =
      (((s.dev.met path (Adr.HP_ECHO p.val) (s.dev.reg (Adr.HP_ECHO p.val) ||| 0x400#32)).echoEnableChanged p.val).echoFind
        p.val, s.mem) := by
  obtain ⟨r, hb, e⟩ := bits_act h (bitRow_HP_ECHO p) (HP_ECHO_apart p) hold (silent_HP_ECHO p _ hold) hv
    (fun e => absurd e (by decide)) (by decide)
  have hbit := testBit_or_bits (s.dev.reg (Adr.HP_ECHO p.val)) (bits := 0x400) (j := 10) (by decide) (by decide)
  rw [e, actOn, block_HP_ECHO p]
  simp only [actPrint, hb, hbit, if_true, (by decide : Adr.HP_ECHO 0 ≠ Adr.LT_CHCFG 0),
    (by decide : Adr.HP_ECHO 0 ≠ Adr.LT_CHCTRL 0), if_false]

theorem echoFind_of_on (h : d.rd (Fld.HP_ECHO.Enable p) = 1) :
    (d.echoEnableChanged p).echoFind p = d.setPort p { d.port p with find := ⟨true, none⟩ } := by
  unfold Dev.echoEnableChanged
  rw [if_pos h]
  exact if_pos h

theorem echoFind_of_off (h : d.rd (Fld.HP_ECHO.Enable p) = 0) :
    (d.echoEnableChanged p).echoFind p = (d.breakEcho p).endFind p none := by
  have h1 : ¬ (d.rd (Fld.HP_ECHO.Enable p) = 1) := by rw [h]; decide
  unfold Dev.echoEnableChanged
  rw [if_neg h1]
  exact if_neg h1

end

/-! ### Lane deskew -/

section
variable {s : State} {path : Path} (p : Fin 64) (all : Bool)

/-- R256: the word that a start of deskew writes has the port in its low six bits and All in the seventh. -/
theorem toNat_deskewWord : (BitVec.ofNat 32 (p.val + if all then 64 else 0)).toNat = p.val + if all then 64 else 0 := by
  rw [BitVec.toNat_ofNat]
  have := p.isLt
  split <;> omega

theorem deskewWord_fields :
    bitsOf (p.val + if all then 64 else 0) 6 6 = (if all then 1 else 0) ∧
      bitsOf (p.val + if all then 64 else 0) 5 0 = p.val ∧ (p.val + if all then 64 else 0).testBit 7 = false := by
  revert p all
  decide

theorem deskewWord_defined (v : Word) (hv : v = BitVec.ofNat 32 (p.val + if all then 64 else 0)) :
    BitVec.ofNat 32 (v.toNat &&& definedBits Adr.HP_DSKCTRL) = v := by
  subst hv
  revert p all
  decide

/-- R256: a write of HP_DSKCTRL without Start stores the port and All. -/
theorem write_HP_DSKCTRL (hp : p.val < s.dev.part.portCount)
    (h : Reaches s path Adr.HP_DSKCTRL (BitVec.ofNat 32 (p.val + if all then 64 else 0))) :
    writeAccess path [] Adr.HP_DSKCTRL (BitVec.ofNat 32 (p.val + if all then 64 else 0)) s.dev s.mem =
      ((s.dev.met path Adr.HP_DSKCTRL (BitVec.ofNat 32 (p.val + if all then 64 else 0))).keepReg Adr.HP_DSKCTRL
        (setBits (setBits ((s.dev.met path Adr.HP_DSKCTRL (BitVec.ofNat 32 (p.val + if all then 64 else 0))).reg
          Adr.HP_DSKCTRL) 6 6 (if all then 1 else 0)) 5 0 p.val), s.mem) := by
  obtain ⟨hall, hport, hstart⟩ := deskewWord_fields p all
  rw [writeAccess_row h rfl (by cases s.dev.part <;> rfl) (by cases s.dev.part <;> rfl) (deskewWord_defined p all _ rfl)
    rfl rfl rfl, writeReg_stores rfl (barPending_none _ rfl), toNat_deskewWord]
  have hst (old : Word) : storedWord (s.dev.met path Adr.HP_DSKCTRL
      (BitVec.ofNat 32 (p.val + if all then 64 else 0))).part
      ⟨"HP_DSKCTRL", 0x00100018, 1, 0x0, 1, 0x0, .none, [⟨7, 7, .wo, 0, none⟩, ⟨6, 6, .rw, 0, none⟩, ⟨5, 0, .rw, 0, none⟩]⟩ old
        (BitVec.ofNat 32 (p.val + if all then 64 else 0)) =
      setBits (setBits old 6 6 (if all then 1 else 0)) 5 0 p.val := by
    rw [met_part]
    unfold storedWord
    simp only [List.foldl_cons, List.foldl_nil, reduceCtorEq, if_false, if_true, toNat_deskewWord, hall, hport]
    cases hq : s.dev.part with
    | sn262 => rfl
    | sn131 =>
      rw [hq] at hp
      have hle : min p.val 31 = p.val := Nat.min_eq_left (Nat.le_of_lt_succ hp)
      simp [clampField, hle, Adr.RAS_REG, Adr.NET_PCTRL, Adr.HP_PLANE, Adr.HP_DSKCTRL, Adr.RAS_PEEKIDX, Adr.TEL_FCIDX,
        Adr.DD_FIRST, Adr.DD_LAST, Adr.MEM_RMREQ]
  rw [hst]
  simp only [actOn, show Adr.HP_DSKCTRL / 0x10000 = 16 from rfl, actPrint, hstart, Bool.false_eq_true, if_false]
  simp [Adr.HP_DSKCTRL, Adr.LT_CHCFG, Adr.LT_CHCTRL, Adr.HP_ECHO]

theorem deskewWrite_of_reaches {v : Word} (granted : Bool) {e : Dev}
    (hv : v = BitVec.ofNat 32 (p.val + if all then 64 else 0)) (h : Reaches s path Adr.HP_DSKCTRL v)
    (he : writeAccess path [] Adr.HP_DSKCTRL v s.dev s.mem = (e, s.mem)) :
    deskewWrite path all p granted s.dev s.mem = (e.deskewStart granted, s.mem) := by
  obtain ⟨-, hopen, hwaits, -⟩ := h
  unfold deskewWrite
  simp only [hopen, hwaits, ← hv, he, Bool.not_true, Bool.false_eq_true, if_false]

end

section
variable {d : Dev}

theorem deskewStart_of_single (granted : Bool) (hp : d.inPair = false) (hr : d.hp.deskew.running = false) :
    d.deskewStart granted =
      if d.pageInFlight then d.wr Fld.HP_DSKSTAT.Refused 1
      else ((Dev.wr { d with hp := { d.hp with deskew := { d.hp.deskew with running := true, ports := d.deskewPorts } } }
        Fld.HP_DSKSTAT.Refused 0).wr Fld.HP_DSKSTAT.CalRefMissing 0).wr Fld.HP_DSKSTAT.Busy 1 := by
  unfold Dev.deskewStart
  simp only [hp, hr, Bool.false_eq_true, if_false, false_and, or_false]

theorem deskewDone_of_idle {p : Nat} {calRef pass : Bool} (h : d.hp.deskew.running = false) :
    d.deskewDone p calRef pass = d := if_pos (by simp [h])

theorem deskewResult_ports (p : Nat) (pass : Bool) : (d.deskewResult p pass).hp.deskew.ports = d.hp.deskew.ports := by
  cases pass <;> rfl

/-- R257: the last port of a run takes its result, which without CALREF is a failure, and the run ends. -/
theorem deskewDone_of_last {p : Nat} {calRef pass : Bool} {e : Dev} (h : d.hp.deskew.running = true)
    (hp : d.hp.deskew.ports = [p])
    (he : (if calRef then d.deskewResult p pass else (d.deskewResult p false).wr Fld.HP_DSKSTAT.CalRefMissing 1) = e) :
    d.deskewDone p calRef pass =
      Dev.wr { e with hp := { e.hp with deskew := { e.hp.deskew with ports := [], running := false } } }
        Fld.HP_DSKSTAT.Busy 0 := by
  have hin : (!d.hp.deskew.running || !d.hp.deskew.ports.contains p) = false := by simp [h, hp]
  have hports : e.hp.deskew.ports = [p] := by
    rw [← he, ← hp]
    cases calRef
    · exact deskewResult_ports p false
    · exact deskewResult_ports p pass
  have hleft : (if calRef then delNat p e.hp.deskew.ports else []) = [] := by
    rw [hports]
    cases calRef <;> simp [delNat]
  have hrun : (if calRef then d.deskewResult p pass else
      (d.hp.deskew.ports.foldl (fun d q => d.deskewResult q false) d).wr Fld.HP_DSKSTAT.CalRefMissing 1) = e := by
    rw [hp]
    exact he
  unfold Dev.deskewDone
  rw [hin]
  simp only [Bool.false_eq_true, if_false, hrun, hleft, List.isEmpty_nil, Bool.not_true, if_true]

theorem deskewGrant_of_busy {p : Nat} (h : d.pageInFlight = true) :
    d.deskewGrant p = d.emit (.pair (.deskewGrant p false)) := by
  unfold Dev.deskewGrant
  simp only [h, Bool.not_true, Bool.false_eq_true, if_false]

theorem deskewGrant_of_quiet {p : Nat} (h : d.pageInFlight = false) :
    d.deskewGrant p =
      ((d.setPort p { d.port p with granted := true }).breakEcho p).emit (.pair (.deskewGrant p true)) := by
  unfold Dev.deskewGrant
  simp only [h, Bool.not_false, if_true]

end
end Sys2Proof.Machine
end

section
open Sys2Proof Sys2Proof.Machine

/-- Settles O35. -/
theorem headPortsShift : Obligations.HeadPortsShift := by
  intro s p hr x
  have hstart (hon : s.dev.domOn (8 + p.val / 16) = true) {e : Dev} (he : s.dev.shiftStart p.val = e) :
      Completes (.shiftStart p) s e s.mem :=
    completes_dev (f := fun d => d.shiftNow p.val) hr rfl ((shiftNow_of_on hon).trans he)
  have hdone {e : Dev} (he : s.dev.shiftComplete p.val = e) : Completes (.shiftComplete p) s e s.mem :=
    completes_dev (f := fun d => d.shiftComplete p.val) hr rfl he
  refine ⟨fun hon hshift hlat hmay => hstart hon (if_pos ⟨hshift, hlat, hmay⟩), fun hon hnot => hstart hon (if_neg ?_),
    fun e hbusy hprev hwhole => hdone ?_, fun hbusy hnone => hdone ?_, fun h => hdone (shiftComplete_of_orphan h)⟩
  · rintro ⟨hshift, hlat, hmay⟩
    rcases hnot with h | h | h
    · exact h hshift
    · rw [show x.latHigh = false from hlat] at h; cases h
    · rw [hmay] at h; cases h
  · rw [shiftComplete_of_busy hbusy, toCompare_of_whole hprev hwhole]
  · rw [shiftComplete_of_busy hbusy, toCompare_of_break hnone]

/-- Settles O36. That a timeout changes nothing with no search active is the model's choice (log 17). -/
theorem echoChecksAndSearches : Obligations.EchoChecksAndSearches := by
  refine ⟨?compare, ?timeout, ?find⟩
  case compare =>
    intro s p bits hr x
    have hc {e : Dev} (he : s.dev.echoResult p.val bits = e) (hp : e.pair = s.dev.pair) :
        Completes (.echoCompareResult p bits) s e s.mem :=
      completes_dev (f := fun d => d.echoCompare p.val bits) hr rfl (echoCompare_of_same he (by rw [hp]))
    refine ⟨fun h => hc (echoResult_of_none h) rfl, fun k e hcmp => ?_⟩
    intro d sent
    refine ⟨fun hf hdiff => hc ?_ rfl, fun hf hsingle i hdiff => hc ?_ (echoMismatch_pair hsingle),
      fun hf hq => hc (echoResult_of_unfit hcmp rfl hf hq) rfl, fun hf hq => ?_⟩
    · rw [echoResult_of_check hcmp rfl hf, show firstDiff _ _ _ = none from hdiff]
    · rw [echoResult_of_check hcmp rfl hf, show firstDiff _ _ _ = some i from hdiff]
    · have hsearch := echoResult_of_search (bits := bits) hcmp rfl hf hq
      refine ⟨fun hnone => hc ?_ (endFind_pair _), fun l hl => ⟨fun hlast => hc ?_ (endFind_pair _),
        fun m hlast hne => hc ?_ (endFind_pair _), fun hlast => hc ?_ rfl⟩⟩
      · rw [hsearch, show matchLatency _ _ = none from hnone]
      · rw [hsearch, show matchLatency _ _ = some l from hl]
        simp only [show (s.dev.port p.val).find.last = some l from hlast, if_true]
        rfl
      · rw [hsearch, show matchLatency _ _ = some l from hl]
        simp only [show (s.dev.port p.val).find.last = some m from hlast, if_neg hne]
        rfl
      · rw [hsearch, show matchLatency _ _ = some l from hl]
        simp only [show (s.dev.port p.val).find.last = none from hlast, port_setPort_same _ p.isLt]
        rfl
  case timeout =>
    intro s p hr
    have hc {e : Dev} (he : s.dev.findTimeout p.val = e) : Completes (.findTimeout p) s e s.mem :=
      completes_dev (f := fun d => d.findTimeout p.val) hr rfl he
    exact ⟨fun h => hc (findTimeout_of_active h), fun h => hc (findTimeout_of_idle h)⟩
  case find =>
    intro s p path hold v h hv d
    have hc {e : Dev} (he : (d.echoEnableChanged p.val).echoFind p.val = e) : Completes (.echoFind path p) s e s.mem :=
      completes_live h.1 rfl ((writeBits_HP_ECHO p hold h hv).trans (congrArg (·, s.mem) he))
    exact ⟨fun hon => hc (echoFind_of_on hon), fun hoff => hc (echoFind_of_off hoff)⟩

/-- Settles O37. That a port of no run changes nothing is the model's choice (log 17). -/
theorem deskewRunsAndIsGranted : Obligations.DeskewRunsAndIsGranted := by
  refine ⟨?start, ?done, ?grant⟩
  case start =>
    intro s path p all granted hsingle hport v h e d
    have hwrite : deskewWrite path all p granted s.dev s.mem = (d.deskewStart granted, s.mem) :=
      deskewWrite_of_reaches p all granted rfl h (write_HP_DSKCTRL p all hport h)
    have hc {f : Dev} (hf : d.deskewStart granted = f) : Completes (.deskewStart path all p granted) s f s.mem :=
      completes_live h.1 rfl (hwrite.trans (congrArg (·, s.mem) hf))
    have hsingle' : d.inPair = false := by
      have hpair : d.pair = s.dev.pair := (keepReg_pair ..).trans (met_pair ..)
      rw [Dev.inPair, hpair]
      exact hsingle
    refine ⟨fun hrun hbusy => hc ((deskewStart_of_single granted hsingle' hrun).trans (if_pos hbusy)),
      fun hrun hquiet => ⟨_, hc ((deskewStart_of_single granted hsingle' hrun).trans (if_neg (by simp [hquiet]))),
        rfl, ?_, ?_, ?_, ?_⟩⟩
    · have hpart : d.part = s.dev.part := (keepReg_part ..).trans (met_part ..)
      have hword : d.reg Adr.HP_DSKCTRL =
          setBits (setBits (e.reg Adr.HP_DSKCTRL) 6 6 (if all then 1 else 0)) 5 0 p.val := keepReg_reg_same ..
      have hall : d.rd Fld.HP_DSKCTRL.All = if all then 1 else 0 := by
        rw [Dev.rd, show Fld.HP_DSKCTRL.All = ⟨Adr.HP_DSKCTRL, 6, 6⟩ from rfl, hword,
          bitsOf_setBits_ne _ _ _ _ _ _ (by decide) (by decide) (by decide),
          bitsOf_setBits_same _ _ _ _ (by decide) (by decide)]
        cases all <;> rfl
      have hp : d.rd Fld.HP_DSKCTRL.Port = p.val := by
        rw [Dev.rd, show Fld.HP_DSKCTRL.Port = ⟨Adr.HP_DSKCTRL, 5, 0⟩ from rfl, hword,
          bitsOf_setBits_same _ _ _ _ (by decide) (by decide)]
        exact Nat.mod_eq_of_lt p.isLt
      show d.deskewPorts = _
      rw [Dev.deskewPorts, hall, hp, hpart]
      cases all <;> rfl
    · exact rd_wr_same _ _ _ rfl
    · rw [rd_wr_ne _ _ _ _ rfl rfl, rd_wr_ne _ _ _ _ rfl rfl, rd_wr_same _ _ _ rfl]
      rfl
    · rw [rd_wr_ne _ _ _ _ rfl rfl, rd_wr_same _ _ _ rfl]
      rfl
  case done =>
    intro s p pass hr
    have hc {calRef : Bool} {e : Dev} (he : s.dev.deskewDone p.val calRef pass = e) :
        Completes (.deskewPortDone p calRef pass) s e s.mem :=
      completes_dev (f := fun d => d.deskewDone p.val calRef pass) hr rfl he
    refine ⟨fun hrun calRef => hc (deskewDone_of_idle hrun), fun hrun hports => ?_⟩
    intro ended
    exact ⟨hc (deskewDone_of_last hrun hports rfl), hc (deskewDone_of_last hrun hports rfl)⟩
  case grant =>
    intro s p hr hpair
    have hc {e : Dev} (he : s.dev.deskewGrant p.val = e) : Completes (.deskewGrantRequest p) s e s.mem :=
      completes_dev (f := fun d => if d.pair.mode then d.deskewGrant p.val else d) hr rfl ((if_pos hpair).trans he)
    exact ⟨fun h => hc (deskewGrant_of_busy h), fun h => hc (deskewGrant_of_quiet h)⟩

/-- Settles O38: each bit of the commit word alone. -/
theorem commitTakesSnapshot : Obligations.CommitTakesSnapshot := by
  intro s path d
  refine ⟨fun h => completes_live h.1 rfl (write_CFG_COMMIT h rfl), fun h => completes_live h.1 rfl (write_CFG_COMMIT h rfl),
    fun h => completes_live h.1 rfl (write_CFG_COMMIT h rfl), fun h => completes_live h.1 rfl (write_CFG_COMMIT h rfl),
    fun h => completes_live h.1 rfl (write_CFG_COMMIT h rfl), fun h => ⟨_, completes_live h.1 rfl (write_CFG_CLAMPCTRL h),
      rfl, ?_, ?_, ?_⟩⟩
  · rw [Dev.clampClear, rd_wr_ne _ _ _ _ rfl rfl, rd_wr_same _ _ _ rfl]
    rfl
  · rw [Dev.clampClear, rd_wr_same _ _ _ rfl]
    rfl
  · exact onlyFields_cons _ _ (by simp) rfl (onlyFields_cons _ _ (by simp) rfl (OnlyFields.of_win rfl rfl))

end

section
/-!
SUPPORT. Drop detection (R263 to R278).
-/
namespace Sys2Proof.Machine

/-! ### Writes of DD_CTRL -/

theorem bitRow_DD_CTRL {bits : Nat} (hb : bits = 1 ∨ bits = 2) : BitRow Adr.DD_CTRL Adr.DD_CTRL 0 bits := by
  refine ⟨by decide, by decide, by decide, ?_⟩
  rcases hb with rfl | rfl <;> exact ⟨_, _, rfl, rfl, by decide⟩

/-- R274, R276: what a write of Start or Stop in DD_CTRL does. -/
theorem writeBits_DD_CTRL {s : State} {path : Path} {bits : Nat} (hbits : bits = 1 ∨ bits = 2) {v : Word}
    (hword : s.dev.reg Adr.DD_CTRL ||| BitVec.ofNat 32 bits = v) (h : Reaches s path Adr.DD_CTRL v)
    (hv : BitVec.ofNat 32 (v.toNat &&& definedBits Adr.DD_CTRL) = v) :
    writeBits path Adr.DD_CTRL bits s.dev s.mem =
      (let d := s.dev.met path Adr.DD_CTRL v
       let d := if v.toNat.testBit 0 then d.ddStart else d
       if v.toNat.testBit 1 then d.ddStop else d, s.mem) := by
  subst hword
  obtain ⟨r, hb, e⟩ := bits_act h (bitRow_DD_CTRL hbits) (by decide) (by cases s.dev.part <;> rfl)
    (by cases s.dev.part <;> rfl) hv (fun e => absurd e (by decide)) (by decide)
  rw [e, actOn, show Adr.DD_CTRL / 0x10000 = 17 from rfl]
  simp only [Dev.actRest, hb, if_true]

section
variable {d : Dev}

/-! ### Starting and stopping -/

theorem ddStart_of_refused (h : d.sweepRefused = true) : d.ddStart = d.sticky Fld.DD_ERR.Refused := if_pos h

/-- R274, R278: a sweep that may run begins the gates of the mask, or waits where the stoker sheds sweeps. -/
theorem ddStart_of_may {begun : Dev}
    (hb : { d with dd := { d.dd with running := true, stopping := false, rejected := false } } = begun)
    (h : d.sweepRefused = false) :
    d.ddStart = if 3 ≤ d.boot.level then { begun with dd := { begun.dd with held := true } }
      else begun.beginGates (d.rd Fld.DD_CTRL.GateMask) := by
  subst hb
  unfold Dev.ddStart
  rw [if_neg (Bool.eq_false_iff.mp h)]
  simp only [Dev.shedsSweeps, decide_eq_true_eq]
  rfl

theorem ddStop_of_idle (h : d.dd.running = false) : d.ddStop = d := if_pos (by simp [h])

/-- R276: a Stop with no gate in the sweep ends it at once. -/
theorem ddStop_of_no_gate (h : d.dd.running = true) (hg : ∀ g, (d.gate g).active = false) :
    d.ddStop.dd.running = false ∧ ∀ g, (d.ddStop.gate g).phase = .idle := by
  have hall : d.dd.gates.toList.all (fun x => !x.active) = true := by
    rw [List.all_eq_true]
    intro x hx
    obtain ⟨i, hi, rfl⟩ := List.mem_iff_getElem.mp hx
    have := hg ⟨i, by simpa using hi⟩
    simpa [Dev.gate] using this
  have hstop : d.ddStop = Dev.endSweep { d with dd := { d.dd with stopping := true, held := false } } := by
    unfold Dev.ddStop
    rw [if_neg (by simp [h])]
    have hg' (g : Fin 4) : (Dev.gate { d with dd := { d.dd with stopping := true, held := false } } g).active = false := hg g
    simp only [List.foldl_cons, List.foldl_nil, hg', Bool.false_and, Bool.false_eq_true, if_false]
  have hend : Dev.endSweep { d with dd := { d.dd with stopping := true, held := false } } =
      { d with dd := { d.dd with
        running := false, stopping := false, held := false, gates := d.dd.gates.map (fun x => { x with phase := .idle }) } } := by
    unfold Dev.endSweep
    rw [if_pos (by simpa [h] using hall)]
  rw [hstop, hend]
  exact ⟨rfl, fun g => by simp [Dev.gate]⟩

theorem sweepSchedule_of_off (h : d.rd Fld.DD_SCHED.Interval = 0) : d.sweepSchedule = d := if_pos (Or.inl h)

/-- R277: an automatic sweep is noted and begins with every gate whose plane is enabled. -/
theorem sweepSchedule_of_due {e : Dev}
    (he : { d.notice Nt.SweepStart [] with dd := { (d.notice Nt.SweepStart []).dd with
      running := true, stopping := false, rejected := false } } = e)
    (hi : d.rd Fld.DD_SCHED.Interval ≠ 0) (hl : d.boot.level < 3) (hs : d.job.seq = .idle) (hr : d.sweepRefused = false) :
    d.sweepSchedule = e.beginGates (maskOf 4 (fun g => !e.gateEmpty (Fin.ofNat 4 g))) := by
  subst he
  have hdue : ¬ (d.rd Fld.DD_SCHED.Interval = 0 ∨ d.shedsSweeps = true ∨
      (decide (d.job.seq = .idle) || (d.job.dry && d.allIdle)) = false ∨ d.sweepRefused = true) := by
    simp [hi, Dev.shedsSweeps, Nat.not_le.mpr hl, hs, hr]
  unfold Dev.sweepSchedule
  dsimp only
  rw [if_neg hdue]

/-! ### Firing -/

theorem carriageSettled_of_other {g : Fin 4} (h : (d.gate g).phase ≠ .settling) : d.carriageSettled g = d := if_pos h

theorem carriageSettled_of_nozzle {g : Fin 4} {z : Nat} {more : List Nat} (h : (d.gate g).phase = .settling)
    (ht : (d.gate g).todo = z :: more) :
    d.carriageSettled g = ((d.setGate g { d.gate g with phase := .firing }).wr (Fld.DD_PROG.Nozzle g.val) z).writeTest
      (d.gate g).plane z := by
  unfold Dev.carriageSettled
  dsimp only
  rw [if_neg (not_not.mpr h)]
  simp only [ht]

theorem gateTick_of_not_firing {ns : Nat} {g : Fin 4} (h : (d.gate g).phase ≠ .firing) : d.gateTick ns g = d := by
  unfold Dev.gateTick
  dsimp only
  split
  · next hp _ => exact absurd hp h
  · rfl

/-- Where no other gate fires before or after it, a tick is the tick of that one gate. -/
theorem pacerTick_of_one {ns : Nat} {g : Fin 4} (hd : ∀ h, h ≠ g → (d.gate h).phase ≠ .firing)
    (he : ∀ h, h ≠ g → ((d.gateTick ns g).gate h).phase ≠ .firing) : d.pacerTick ns = d.gateTick ns g := by
  have hbefore (h : Fin 4) (hh : h ≠ g) : d.gateTick ns h = d := gateTick_of_not_firing (hd h hh)
  have hafter (h : Fin 4) (hh : h ≠ g) : (d.gateTick ns g).gateTick ns h = d.gateTick ns g :=
    gateTick_of_not_firing (he h hh)
  unfold Dev.pacerTick
  simp only [List.foldl_cons, List.foldl_nil]
  have hall : g = 0 ∨ g = 1 ∨ g = 2 ∨ g = 3 := by clear hd he hbefore hafter; revert g; decide
  rcases hall with rfl | rfl | rfl | rfl
  · rw [hafter 1 (by decide), hafter 2 (by decide), hafter 3 (by decide)]
  · rw [hbefore 0 (by decide), hafter 2 (by decide), hafter 3 (by decide)]
  · rw [hbefore 0 (by decide), hbefore 1 (by decide), hafter 3 (by decide)]
  · rw [hbefore 0 (by decide), hbefore 1 (by decide), hbefore 2 (by decide)]

theorem pacerTick_of_none {ns : Nat} (h : ∀ g, (d.gate g).phase ≠ .firing) : d.pacerTick ns = d := by
  have h0 : d.gateTick ns 0 = d := gateTick_of_not_firing (h 0)
  rw [pacerTick_of_one (g := 0) (fun k _ => h k) (fun k _ => by rw [h0]; exact h k), h0]

section
variable {ns : Nat} {g : Fin 4} {z : Nat} {more : List Nat} (hp : (d.gate g).phase = .firing)
  (ht : (d.gate g).todo = z :: more)
include hp ht

theorem gateTick_of_unready (h : d.testReady (d.gate g).plane z = false) : d.gateTick ns g = d := by
  unfold Dev.gateTick
  simp only [hp, ht, h, or_true, if_true]

/-- R268, R269: a gate whose test line is ready fires it, and its next shot's line is formed. -/
theorem gateTick_of_ready (h : d.testReady (d.gate g).plane z = true) (hs : (d.gate g).shots ≠ [])
    (hmore : (d.gate g).shots.length + 1 < d.rd Fld.DD_PACER.Shots) :
    d.gateTick ns g = (((d.portsOf (d.gate g).plane).foldl Dev.latPulse d).setGate g
      { d.gate g with shots := (d.gate g).shots ++ [⟨ns + 30, none⟩] }).writeTest (d.gate g).plane z := by
  have hfire : ¬ (d.rd Fld.DD_PACER.Shots ≤ (d.gate g).shots.length ∨ d.testReady (d.gate g).plane z = false) := by
    rw [h]
    simp
    omega
  unfold Dev.gateTick
  simp only [hp, ht, if_neg hfire, List.isEmpty_eq_false_iff.mpr hs, Bool.false_eq_true, if_false, if_pos hmore]

end

theorem latPulse_dd (d : Dev) (p : Nat) : (d.latPulse p).dd = d.dd := by
  unfold Dev.latPulse
  dsimp only
  split
  · rfl
  · rfl

theorem writeTest_dd (d : Dev) (n z : Nat) : (d.writeTest n z).dd = d.dd := by
  unfold Dev.writeTest
  refine foldl_keeps (fun e : Dev => e.dd = d.dd) _ (fun e p he => ?_) _ d rfl
  dsimp only
  split
  · exact he
  · exact he

theorem gate_congr {e : Dev} (h : e.dd = d.dd) (g : Fin 4) : e.gate g = d.gate g := by
  unfold Dev.gate
  rw [h]

theorem gate_setGate_ne {g h : Fin 4} (hne : h ≠ g) (x : GateSt) : (d.setGate g x).gate h = d.gate h := by
  have hval : g.val ≠ h.val := fun e => hne (Fin.ext e.symm)
  unfold Dev.setGate Dev.gate
  simp [hval]

/-! ### Pulses and verdicts -/

theorem gatePulse_of_hit {g : Fin 4} {ns : Nat} {l : List TestShot}
    (h : hitShot (d.rd (Fld.DD_WIN.WinStart g.val)) (d.rd (Fld.DD_WIN.WinEnd g.val)) ns (d.gate g).shots = some l) :
    d.gatePulse g ns = d.setGate g { d.gate g with shots := l } := by
  unfold Dev.gatePulse
  simp only [h]

/-- R271: a pulse outside every window is counted, and against its gate where the gate fires. -/
theorem gatePulse_of_stray {g : Fin 4} {ns : Nat}
    (h : hitShot (d.rd (Fld.DD_WIN.WinStart g.val)) (d.rd (Fld.DD_WIN.WinEnd g.val)) ns (d.gate g).shots = none)
    (hs : (d.gate g).phase = .firing → (d.gate g).strays < 16) :
    d.gatePulse g ns =
      if (d.gate g).phase = .firing then
        (d.bump (Fld.DD_STRAY.Count g.val)).setGate g { d.gate g with strays := (d.gate g).strays + 1 }
      else d.bump (Fld.DD_STRAY.Count g.val) := by
  unfold Dev.gatePulse
  simp only [h]
  split
  · next hp => rw [if_neg (Nat.not_lt.mpr (hs hp))]
  · rfl

theorem setNozzleState_dd (d : Dev) (z : Nat) (st : BitVec 2) (source : Nat) :
    (d.setNozzleState z st source).dd = d.dd := by
  have hadopt (e : Dev) (n : Nat) : (e.adopt n).dd = e.dd := by
    unfold Dev.adopt
    extract_lets _ _ _ _ _ _ _ unc f
    have hf : f.dd = e.dd := rfl
    clear_value f unc
    cases unc with
    | nil => exact hf
    | cons z zs => simpa using hf
  unfold Dev.setNozzleState
  split
  · rfl
  · dsimp only
    split
    · rfl
    · split
      · rw [hadopt]
      · rfl

theorem writeVerdict_dd (d : Dev) (z : Nat) (v : BitVec 2) : (d.writeVerdict z v).dd = d.dd := by
  unfold Dev.writeVerdict
  dsimp only
  split
  · simp
  · split
    · rfl
    · split <;> simp [setNozzleState_dd]

/-- R272, Table 51: the verdict of a nozzle from its hits. -/
theorem verdict_eq (d : Dev) (shots : List TestShot) {hits : List Nat} {healthyMin late : Nat}
    (hh : shots.filterMap (fun t => t.hit) = hits)
    (hm : min (d.rd Fld.DD_VERDICT.HealthyMin) (d.rd Fld.DD_PACER.Shots) = healthyMin)
    (hl : d.rd Fld.DD_VERDICT.LateLimit = late) :
    d.verdict shots =
      if healthyMin ≤ hits.length ∧ (late = 0 ∨ hits.sum ≤ late * 1000 * hits.length) then 0
      else if min (d.rd Fld.DD_VERDICT.WeakMin) healthyMin ≤ hits.length then 1
      else 2 := by
  have hsum : hits.foldl (· + ·) 0 = hits.sum := by rw [List.foldl_eq_foldr, List.sum_eq_foldr]
  unfold Dev.verdict
  simp only [hh, hm, hl, hsum, Bool.or_eq_true, decide_eq_true_eq]
  rfl

section
variable {g : Fin 4}

theorem windowClose_of_not_firing (h : (d.gate g).phase ≠ .firing) : d.windowClose g = d := by
  unfold Dev.windowClose
  dsimp only
  split
  · next hp _ => exact absurd hp h
  · rfl

/-- R272: the close of a nozzle's last window gives its verdict and goes on to the segment's next nozzle. -/
theorem windowClose_of_next {z y : Nat} {more : List Nat} (hp : (d.gate g).phase = .firing)
    (ht : (d.gate g).todo = z :: y :: more) (hs : d.rd Fld.DD_PACER.Shots ≤ (d.gate g).shots.length)
    (hstop : d.dd.stopping = false) :
    d.windowClose g = (((d.setGate g { d.gate g with shots := [], todo := y :: more }).writeVerdict z
      (d.verdict (d.gate g).shots)).wr (Fld.DD_PROG.Nozzle g.val) y) := by
  have hgo (x : GateSt) (v : BitVec 2) : ((d.setGate g x).writeVerdict z v).dd.stopping = false := by
    rw [writeVerdict_dd]
    exact hstop
  unfold Dev.windowClose
  simp only [hp, ht, if_neg (Nat.not_lt.mpr hs), hgo, Bool.false_eq_true, if_false]

end
end
end Sys2Proof.Machine
end

section
open Sys2Proof Sys2Proof.Machine

/-- Settles O39. That a carriage, a tick or a window's close changes nothing out of its phase is the model's choice (log
17). -/
theorem sweepsRunAndJudge : Obligations.SweepsRunAndJudge := by
  refine ⟨?start, ?stop, ?schedule, ?gates⟩
  case start =>
    intro s path v h hv hno d begun
    have hbit : v.toNat.testBit 0 = true := testBit_or_bits _ (bits := 1) (by decide) (by decide)
    have hc {e : Dev} (he : d.ddStart = e) : Completes (.ddStart path) s e s.mem :=
      completes_live (f := writeBits path Adr.DD_CTRL 1) h.1 rfl (by
        rw [writeBits_DD_CTRL (.inl rfl) rfl h hv]
        simp only [show (s.dev.reg Adr.DD_CTRL ||| BitVec.ofNat 32 1) = v from rfl, hbit, hno, if_true,
          Bool.false_eq_true, if_false]
        exact congrArg (·, s.mem) he)
    exact ⟨fun hr => hc (ddStart_of_refused hr), fun hr hl => hc ((ddStart_of_may rfl hr).trans (if_pos hl)),
      fun hr hl => hc ((ddStart_of_may rfl hr).trans (if_neg (Nat.not_le.mpr hl)))⟩
  case stop =>
    intro s path v h hv hno d
    have hbit : v.toNat.testBit 1 = true := testBit_or_bits _ (bits := 2) (by decide) (by decide)
    have hc {e : Dev} (he : d.ddStop = e) : Completes (.ddStop path) s e s.mem :=
      completes_live (f := writeBits path Adr.DD_CTRL 2) h.1 rfl (by
        rw [writeBits_DD_CTRL (.inr rfl) rfl h hv]
        simp only [show (s.dev.reg Adr.DD_CTRL ||| BitVec.ofNat 32 2) = v from rfl, hbit, hno, if_true,
          Bool.false_eq_true, if_false]
        exact congrArg (·, s.mem) he)
    exact ⟨fun hi => hc (ddStop_of_idle hi), fun hr hg => ⟨_, hc rfl, ddStop_of_no_gate hr hg⟩⟩
  case schedule =>
    intro s hr
    have hc {e : Dev} (he : s.dev.sweepSchedule = e) : Completes .sweepSchedule s e s.mem :=
      completes_dev (f := Dev.sweepSchedule) hr rfl he
    exact ⟨fun h => hc (sweepSchedule_of_off h), fun hi hl hs href => hc (sweepSchedule_of_due rfl hi hl hs href)⟩
  case gates =>
    intro s g ns hr x
    have hsettled {e : Dev} (he : s.dev.carriageSettled g = e) : Completes (.carriageSettled g) s e s.mem :=
      completes_dev (f := fun d => d.carriageSettled g) hr rfl he
    have htick {e : Dev} (he : s.dev.pacerTick ns = e) : Completes (.pacerTick ns) s e s.mem :=
      completes_dev (f := fun d => d.pacerTick ns) hr rfl he
    have hpulse {e : Dev} (he : s.dev.gatePulse g ns = e) : Completes (.gatePulse g ns) s e s.mem :=
      completes_dev (f := fun d => d.gatePulse g ns) hr rfl he
    have hclose {e : Dev} (he : s.dev.windowClose g = e) : Completes (.windowClose g) s e s.mem :=
      completes_dev (f := fun d => d.windowClose g) hr rfl he
    refine ⟨fun h => hsettled (carriageSettled_of_other h), fun z more h ht => hsettled (carriageSettled_of_nozzle h ht),
      fun h => htick (pacerTick_of_none h), fun hd z more hp ht => ⟨fun hready => htick ?_, fun hready hs hmore => htick ?_⟩,
      fun l h => hpulse (gatePulse_of_hit h), fun h => ⟨fun hp => hpulse ?_, fun hp hs => hpulse ?_⟩,
      fun h => hclose (windowClose_of_not_firing h), fun z y more hp ht hs hstop => ?_⟩
    · have he := gateTick_of_unready (ns := ns) hp ht hready
      rw [pacerTick_of_one hd (fun k hk => by rw [he]; exact hd k hk), he]
    · have he := gateTick_of_ready (ns := ns) hp ht hready hs hmore
      rw [pacerTick_of_one hd (fun k hk => ?_), he]
      have hlat : ((s.dev.portsOf (s.dev.gate g).plane).foldl Dev.latPulse s.dev).dd = s.dev.dd :=
        foldl_keeps (fun e : Dev => e.dd = s.dev.dd) _ (fun e p h => (latPulse_dd e p).trans h) _ s.dev rfl
      rw [he, gate_congr (writeTest_dd ..), gate_setGate_ne hk, gate_congr hlat]
      exact hd k hk
    · rw [gatePulse_of_stray h (fun hq => absurd hq hp)]
      exact if_neg hp
    · rw [gatePulse_of_stray h (fun _ => hs)]
      exact if_pos hp
    · intro hits healthyMin late verdict
      exact hclose ((windowClose_of_next hp ht hs hstop).trans (by rw [verdict_eq s.dev _ rfl rfl rfl]))

end

section
/-!
SUPPORT. The motion axes: the commands by state, and what an axis event does (R280 to R302).
-/
namespace Sys2Proof.Machine

section
variable {d : Dev} {a : Fin 8} {x : AxisSt}

/-! ### What an axis shows -/

theorem reg_showAxis_ne {b : Nat} (h : b ≠ Adr.MOT_STAT a.val) : (d.showAxis a).reg b = d.reg b := by
  unfold Dev.showAxis
  dsimp only
  rw [reg_wr_ne _ _ (show b ≠ (Fld.MOT_STAT.OwnerLost a.val).addr from h),
    reg_wr_ne _ _ (show b ≠ (Fld.MOT_STAT.Homed a.val).addr from h),
    reg_wr_ne _ _ (show b ≠ (Fld.MOT_STAT.State a.val).addr from h)]

theorem rd_showAxis_ne {f : FieldRef} (h : f.addr ≠ Adr.MOT_STAT a.val) : (d.showAxis a).rd f = d.rd f := by
  unfold Dev.rd
  rw [reg_showAxis_ne h]

theorem MOT_STAT_apart : ∀ a : Fin 8, Adr.MOT_LIMPOL ≠ Adr.MOT_STAT a.val ∧
    (Fld.MOT_AXCFG.LimHi a.val).addr ≠ Adr.MOT_STAT a.val ∧ (Fld.MOT_AXCFG.LimLo a.val).addr ≠ Adr.MOT_STAT a.val ∧
    (Fld.MOT_STALL.StallAngle a.val).addr ≠ Adr.MOT_STAT a.val := by decide

theorem limitRefuses_showAxis (up : Bool) : (d.showAxis a).limitRefuses a up = d.limitRefuses a up := by
  obtain ⟨hpol, hhi, hlo, -⟩ := MOT_STAT_apart a
  unfold Dev.limitRefuses Dev.limitActive Dev.limitInputOf
  rw [rd_showAxis_ne hhi, rd_showAxis_ne hlo, rd_showAxis_ne (f := Fld.MOT_LIMPOL.Polarity) hpol]
  rfl

theorem reportAxis_of_single {before : Dev} (h : d.inPair = false) : before.reportAxis d a = d := by
  unfold Dev.reportAxis
  simp only [h, Bool.false_and, Bool.false_eq_true, if_false]

theorem inPair_congr {e : Dev} (h : e.pair = d.pair) : e.inPair = d.inPair := by
  unfold Dev.inPair
  rw [h]

theorem axis_congr {e : Dev} (h : e.mot = d.mot) (b : Fin 8) : e.axis b = d.axis b := by
  unfold Dev.axis
  rw [h]

theorem ownsAxis_of_single (h : d.single) : d.ownsAxis a = true := by
  unfold Dev.ownsAxis
  rw [h.1]
  rfl

/-! ### Moves by state (Table 55) -/

theorem moveTo_of_unable {t : Int} (hx : d.axis a = x)
    (hs : x.state = .disabled ∨ x.state = .stopping ∨ x.state = .homing) :
    d.moveTo a t = d.sticky Fld.MOT_ERR.Refused := by
  subst hx
  exact if_pos hs

section
variable {t : Int} (hx : d.axis a = x) (hs : x.state = .rest ∨ x.state = .standstill ∨ x.state = .moving)
include hx hs

/-- R290, R294, R298: what refuses a move of an axis that could begin one. -/
theorem moveTo_of_able : d.moveTo a t =
    if d.interlocked a then (d.sticky Fld.MOT_ERR.Refused).sticky Fld.MOT_ERR.LiftBusy
    else if d.bothLimits a || (decide (d.toTarget a t ≠ 0) && d.limitRefuses a (decide (0 < d.toTarget a t))) then
      (d.sticky Fld.MOT_ERR.Refused).sticky Fld.MOT_ERR.LimitRefused
    else if x.state = .moving then d.retarget a t
    else d.moveFromRest a t := by
  subst hx
  have hable : ¬ ((d.axis a).state = .disabled ∨ (d.axis a).state = .stopping ∨ (d.axis a).state = .homing) := by
    rcases hs with h | h | h <;> simp [h]
  unfold Dev.moveTo
  dsimp only
  rw [if_neg hable]
  rfl

theorem moveTo_of_interlocked (hi : d.interlocked a = true) :
    d.moveTo a t = (d.sticky Fld.MOT_ERR.Refused).sticky Fld.MOT_ERR.LiftBusy := (moveTo_of_able hx hs).trans (if_pos hi)

section
variable (hi : d.interlocked a = false)
include hi

theorem moveTo_of_limit (hl : d.bothLimits a = true ∨
      (d.toTarget a t ≠ 0 ∧ d.limitRefuses a (decide (0 < d.toTarget a t)) = true)) :
    d.moveTo a t = (d.sticky Fld.MOT_ERR.Refused).sticky Fld.MOT_ERR.LimitRefused := by
  rw [moveTo_of_able hx hs, if_neg (Bool.eq_false_iff.mp hi), if_pos]
  rcases hl with h | ⟨h0, h⟩
  · simp [h]
  · simp [h0, h]

theorem moveTo_of_free (hb : d.bothLimits a = false)
    (hl : d.toTarget a t = 0 ∨ d.limitRefuses a (decide (0 < d.toTarget a t)) = false) :
    d.moveTo a t = if x.state = .moving then d.retarget a t else d.moveFromRest a t := by
  rw [moveTo_of_able hx hs, if_neg (Bool.eq_false_iff.mp hi), if_neg]
  rcases hl with h | h <;> simp [h, hb]

end
end

theorem moveFromRest_of_there {t : Int} (h : d.toTarget a t = 0) : d.moveFromRest a t = d.toRest a := if_pos h

theorem moveFromRest_of_away {t : Int} (h : d.toTarget a t ≠ 0) :
    d.moveFromRest a t = d.beginPlan a .moving ⟨(d.limitsOf a).shape, d.axisPos a, decide (0 < d.toTarget a t),
      (d.limitsOf a).parts 0 (d.toTarget a t).natAbs, some (d.toTarget a t).natAbs, 0, none⟩ := if_neg h

theorem stopAxis_of_moving (hx : d.axis a = x) (h : x.state = .moving ∨ x.state = .homing) :
    d.stopAxis a = d.rampToRest a := by
  subst hx
  unfold Dev.stopAxis
  rcases h with h | h <;> simp only [h]

theorem stopAxis_of_other (hx : d.axis a = x) (h1 : x.state ≠ .moving) (h2 : x.state ≠ .homing) : d.stopAxis a = d := by
  subst hx
  unfold Dev.stopAxis
  split
  · next h => exact absurd h h1
  · next h => exact absurd h h2
  · rfl

theorem homeAxis_of_unable (hx : d.axis a = x) (h1 : x.state ≠ .rest) (h2 : x.state ≠ .standstill) :
    d.homeAxis a = d.sticky Fld.MOT_ERR.Refused := by
  subst hx
  exact if_pos ⟨h1, h2⟩

section
variable (hx : d.axis a = x) (hs : x.state = .rest ∨ x.state = .standstill) (hi : d.interlocked a = false)
  (hb : d.bothLimits a = false)
include hx hs hi hb

/-- R297: Home in Rest or Standstill with nothing in its way fails, finds its home at once, or searches. -/
theorem homeAxis_of_able {e : Dev} (he : (d.setAxis a { x with homed := false }).showAxis a = e) : d.homeAxis a =
    if d.rd (Fld.MOT_HOME.HomeMode a.val) = 0 ∧ d.rd (Fld.MOT_STALL.StallAngle a.val) = 0 then e.homeFail a
    else if d.rd (Fld.MOT_HOME.HomeMode a.val) = 1 ∧
      d.limitRefuses a (decide (d.rd (Fld.MOT_HOME.HomeDir a.val) = 1)) = true then e.homeFound a
    else e.beginPlan a .homing ⟨(e.limitsOf a).shape, e.axisPos a, decide (d.rd (Fld.MOT_HOME.HomeDir a.val) = 1),
      [⟨0, e.homeSpeed a, (e.limitsOf a).time (e.homeSpeed a)⟩,
        ⟨e.homeSpeed a, e.homeSpeed a, ceilDiv (2 ^ 33 * 1000000000) (max (e.homeSpeed a) 1)⟩], none, 0, none⟩ := by
  subst hx
  have hable : ¬ ((d.axis a).state ≠ .rest ∧ (d.axis a).state ≠ .standstill) := by
    rcases hs with h | h <;> simp [h]
  have hangle : e.rd (Fld.MOT_STALL.StallAngle a.val) = d.rd (Fld.MOT_STALL.StallAngle a.val) := by
    rw [← he]
    exact rd_showAxis_ne (MOT_STAT_apart a).2.2.2
  have hlimit (up : Bool) : e.limitRefuses a up = d.limitRefuses a up := by
    rw [← he]
    exact limitRefuses_showAxis up
  rw [← hangle, ← hlimit]
  subst he
  unfold Dev.homeAxis
  dsimp only
  rw [if_neg hable, if_neg (Bool.eq_false_iff.mp hi), if_neg (Bool.eq_false_iff.mp hb)]

end

theorem disableAxis_of_disabled (hx : d.axis a = x) (h : x.state = .disabled) : d.disableAxis a = d := by
  subst hx
  exact if_pos h

theorem disableAxis_of_enabled (hx : d.axis a = x) (h : x.state ≠ .disabled) :
    d.disableAxis a = ((d.setAxisVel a 0).setAxis a { x.energised with
      state := .disabled, homed := x.homed && decide (x.state = .rest ∨ x.state = .standstill), plan := none,
      waiting := false, backing := false, deltas := [], overshoot := 0 }).showAxis a := by
  subst hx
  rw [Bool.decide_or]
  exact if_neg h

theorem enableAxis_of_disabled (hx : d.axis a = x) (h : x.state = .disabled) :
    d.enableAxis a = (d.setAxis a { x.energised with state := .rest }).showAxis a := by
  subst hx
  exact if_pos h

theorem enableAxis_of_enabled (hx : d.axis a = x) (h : x.state ≠ .disabled) : d.enableAxis a = d := by
  subst hx
  exact if_neg h

theorem goTo_of_not_homed {t : Int} (hx : d.axis a = x) (h1 : x.state ≠ .disabled) (h2 : x.homed = false) :
    d.goTo a t = (d.sticky Fld.MOT_ERR.Refused).sticky Fld.MOT_ERR.NotHomed := by
  subst hx
  exact if_pos ⟨h1, h2⟩

theorem goTo_of_homed {t : Int} (hx : d.axis a = x) (h : x.homed = true) : d.goTo a t = d.moveTo a t := by
  subst hx
  exact if_neg (fun hn => by rw [h] at hn; cases hn.2)

/-! ### The pair's state is none of an axis's -/

theorem refuseMove_pair (f : Option FieldRef) : (d.refuseMove f).pair = d.pair := by
  cases f <;> rfl

theorem moveFromRest_pair (t : Int) : (d.moveFromRest a t).pair = d.pair := by
  unfold Dev.moveFromRest
  dsimp only
  split <;> rfl

theorem moveTo_pair (t : Int) : (d.moveTo a t).pair = d.pair := by
  unfold Dev.moveTo
  dsimp only
  split
  · exact refuseMove_pair _
  · split
    · exact refuseMove_pair _
    · split
      · exact refuseMove_pair _
      · split
        · unfold Dev.retarget
          dsimp only
          split
          · exact moveFromRest_pair t
          · rfl
        · exact moveFromRest_pair t

theorem homeFail_pair : (d.homeFail a).pair = d.pair := by
  unfold Dev.homeFail
  simp

theorem homeFound_pair : (d.homeFound a).pair = d.pair := by
  unfold Dev.homeFound
  dsimp only
  split <;> rfl

theorem homeAxis_pair : (d.homeAxis a).pair = d.pair := by
  unfold Dev.homeAxis
  dsimp only
  split
  · exact refuseMove_pair _
  · split
    · exact refuseMove_pair _
    · split
      · exact refuseMove_pair _
      · split
        · exact homeFail_pair
        · split
          · exact homeFound_pair
          · rfl

/-- R283, R288: a single device performs the command itself, and reports to no partner. -/
theorem axisCommand_of_single {op : Nat} {e : Dev} (hs : d.single) (hop : d.axisOp a op = d.reportAxis e a)
    (hp : e.pair = d.pair) : d.axisCommand a op = e := by
  unfold Dev.axisCommand
  rw [if_pos (ownsAxis_of_single hs), hop, reportAxis_of_single ((inPair_congr hp).trans hs.2)]

theorem stopAxis_pair : (d.stopAxis a).pair = d.pair := by
  unfold Dev.stopAxis
  split <;> rfl

theorem disableAxis_pair : (d.disableAxis a).pair = d.pair := by
  unfold Dev.disableAxis
  dsimp only
  split <;> rfl

theorem enableAxis_pair : (d.enableAxis a).pair = d.pair := by
  unfold Dev.enableAxis
  dsimp only
  split <;> rfl

theorem goTo_pair (t : Int) : (d.goTo a t).pair = d.pair := by
  unfold Dev.goTo
  split
  · exact refuseMove_pair _
  · exact moveTo_pair t

end
end Sys2Proof.Machine
end

section
open Sys2Proof Sys2Proof.Machine

/-- Settles O40: each command by the axis's state, on the device as its write finds it. -/
theorem axisCommandsByState : Obligations.AxisCommandsByState := by
  intro s path a hs d x refused
  have hsingle (v : Word) : (d v).single :=
    ⟨(congrArg (·.mode) (met_pair ..)).trans hs.1, (inPair_congr (met_pair ..)).trans hs.2⟩
  have hx (v : Word) : (d v).axis a = x := axis_congr (met_mot ..) a
  have hc {v : Word} {i : Instr} {e f : Dev} (h : Reaches s path (Adr.MOT_CMD a.val) v)
      (hv : BitVec.ofNat 32 (v.toNat &&& 7) = v)
      (hi : exec i s = live s (writeAccess path [] (Adr.MOT_CMD a.val) v))
      (hop : (d v).axisOp a v.toNat = (d v).reportAxis f a) (hp : f.pair = (d v).pair) (hf : f = e) : Completes i s e s.mem :=
    completes_live h.1 hi (by
      rw [write_MOT_CMD h hv, axisCommand_of_single (hsingle v) hop hp, hf])
  refine ⟨fun h => ?move, fun h => ?stop, fun h => ?home, fun h => ?disable, fun h => ?enable, fun h => ?print, fun h => ?service⟩
  case move =>
    intro t dist
    have hm {e : Dev} (he : (d 1).moveTo a t = e) : Completes (.move path a) s e s.mem := hc h rfl rfl rfl (moveTo_pair _) he
    refine ⟨fun hst => hm (moveTo_of_unable (hx 1) hst), fun hst => ⟨fun hi => hm (moveTo_of_interlocked (hx 1) hst hi),
      fun hi => ⟨fun hl => hm (moveTo_of_limit (hx 1) hst hi hl), fun hb hl => ?_⟩⟩⟩
    have hfree := moveTo_of_free (hx 1) hst hi hb hl
    exact ⟨fun h1 => hm (hfree.trans (if_pos h1)),
      fun h1 h0 => hm ((hfree.trans (if_neg h1)).trans (moveFromRest_of_there h0)),
      fun h1 h0 => hm ((hfree.trans (if_neg h1)).trans (moveFromRest_of_away h0))⟩
  case stop =>
    exact ⟨fun hst => hc h rfl rfl rfl stopAxis_pair (stopAxis_of_moving (hx 2) hst),
      fun h1 h2 => hc h rfl rfl rfl stopAxis_pair (stopAxis_of_other (hx 2) h1 h2)⟩
  case home =>
    have hh {e : Dev} (he : (d 3).homeAxis a = e) : Completes (.home path a) s e s.mem := hc h rfl rfl rfl homeAxis_pair he
    refine ⟨fun h1 h2 => hh (homeAxis_of_unable (hx 3) h1 h2), fun hst hi hb => ?_⟩
    have hable := homeAxis_of_able (hx 3) hst hi hb rfl
    intro up e
    refine ⟨fun hmode hl => hh (hable.trans ?_), fun hmode hangle => hh (hable.trans (if_pos ⟨hmode, hangle⟩))⟩
    rw [if_neg (fun h0 => absurd (hmode.symm.trans h0.1) (by decide)), if_pos ⟨hmode, hl⟩]
  case disable =>
    exact ⟨fun hst => hc h rfl rfl rfl disableAxis_pair (disableAxis_of_disabled (hx 4) hst),
      fun hst => hc h rfl rfl rfl disableAxis_pair (disableAxis_of_enabled (hx 4) hst)⟩
  case enable =>
    exact ⟨fun hst => hc h rfl rfl rfl enableAxis_pair (enableAxis_of_disabled (hx 5) hst),
      fun hst => hc h rfl rfl rfl enableAxis_pair (enableAxis_of_enabled (hx 5) hst)⟩
  case print =>
    exact ⟨fun hst hn => hc h rfl rfl rfl (goTo_pair _) (goTo_of_not_homed (hx 6) hst hn),
      fun hn => hc h rfl rfl rfl (goTo_pair _) (goTo_of_homed (hx 6) hn)⟩
  case service =>
    exact ⟨fun hst hn => hc h rfl rfl rfl (goTo_pair _) (goTo_of_not_homed (hx 7) hst hn),
      fun hn => hc h rfl rfl rfl (goTo_pair _) (goTo_of_homed (hx 7) hn)⟩

end

section
/-!
SUPPORT. Axis events: the PWM period, the ends of moves, limits and the calibration of the ADCs (R283 to R302).
-/
namespace Sys2Proof.Machine

/-! ### Masks -/

theorem maskOf_succ (n : Nat) (p : Nat → Bool) : maskOf (n + 1) p = if p n then maskOf n p + 2 ^ n else maskOf n p := by
  unfold maskOf
  rw [List.range_succ, List.foldl_append, List.foldl_cons, List.foldl_nil]

theorem maskOf_lt (n : Nat) (p : Nat → Bool) : maskOf n p < 2 ^ n := by
  induction n with
  | zero => simp [maskOf]
  | succ n ih =>
    rw [maskOf_succ, Nat.pow_succ]
    split <;> omega

theorem testBit_maskOf (n : Nat) (p : Nat → Bool) (i : Nat) : (maskOf n p).testBit i = (decide (i < n) && p i) := by
  induction n with
  | zero => simp [maskOf]
  | succ n ih =>
    have hlt := maskOf_lt n p
    have hi : decide (i < n + 1) = (decide (i < n) || decide (n = i)) := by
      rw [← Bool.decide_or]
      exact decide_eq_decide.mpr (by omega)
    rw [maskOf_succ, hi]
    by_cases hp : p n = true
    · have hor : maskOf n p + 2 ^ n = 2 ^ n ||| maskOf n p := by
        have := Nat.two_pow_add_eq_or_of_lt hlt 1
        rw [Nat.mul_one] at this
        rw [Nat.add_comm, this]
      rw [if_pos hp, hor, Nat.testBit_or, Nat.testBit_two_pow, ih]
      by_cases hn : n = i
      · subst hn
        simp [hp]
      · simp [hn]
    · rw [if_neg hp, ih]
      by_cases hn : n = i
      · subst hn
        simp [hp]
      · simp [hn]

theorem foldl_of_none {α β : Type} {f : α → β → α} {e : α} : ∀ l : List β, (∀ b ∈ l, f e b = e) → l.foldl f e = e
  | [], _ => rfl
  | b :: l, h => by
    rw [List.foldl_cons, h b (List.mem_cons_self ..)]
    exact foldl_of_none l (fun c hc => h c (List.mem_cons_of_mem _ hc))

/-- A fold whose step does something at one member alone is that step. -/
theorem foldl_of_one {α β : Type} [DecidableEq β] {f : α → β → α} {a : β} :
    ∀ {l : List β} {d : α}, l.Nodup → a ∈ l → (∀ b, b ≠ a → f d b = d) → (∀ b, b ≠ a → f (f d a) b = f d a) →
      l.foldl f d = f d a
  | [], _, _, h, _, _ => absurd h (by simp)
  | b :: l, d, hn, h, h1, h2 => by
    obtain ⟨hb, hl⟩ := List.nodup_cons.mp hn
    rw [List.foldl_cons]
    by_cases hba : b = a
    · subst hba
      exact foldl_of_none l (fun c hc => h2 c (fun e => hb (e ▸ hc)))
    · rw [h1 b hba]
      exact foldl_of_one hl ((List.mem_cons.mp h).resolve_left (fun e => hba e.symm)) h1 h2

section
variable {d : Dev} {a : Fin 8}

theorem axis_setAxis_ne {b : Fin 8} (h : b ≠ a) (x : AxisSt) : (d.setAxis a x).axis b = d.axis b := by
  have hval : a.val ≠ b.val := fun e => h (Fin.ext e.symm)
  unfold Dev.setAxis Dev.axis
  simp [hval]

/-! ### Energising, standstill, regulation and the end of a move -/

theorem energiseDelay_of_waiting (h : (d.axis a).waiting = true) :
    d.energiseDelay a = d.setAxis a { d.axis a with waiting := false } := if_pos h

theorem energiseDelay_of_none (h : (d.axis a).waiting = false) : d.energiseDelay a = d := if_neg (Bool.eq_false_iff.mp h)

theorem standstill_of_rest (h : (d.axis a).state = .rest) :
    d.standstill a = (d.setAxis a { d.axis a with state := .standstill }).showAxis a := if_pos h

theorem standstill_of_other (h : (d.axis a).state ≠ .rest) : d.standstill a = d := if_neg h

theorem pwmPeriod_of_off {ia ib va vb : Int} (h : d.domOn 12 = false) : d.pwmPeriod a ia ib va vb = d := if_pos (by simp [h])

/-- R285, R286: the currents of an axis at rest are regulated by its two phases. -/
theorem regulateAxis_of_rest (h : (d.axis a).state = .rest) (ia ib : Int) :
    d.regulateAxis a ia ib = d.setAxis a { d.axis a with
      ia := ia, ib := ib
      accA := (d.regulate a (d.iref a (d.phases a (d.axisPos a)).1) ia (d.axis a).accA).1
      dutyA := (d.regulate a (d.iref a (d.phases a (d.axisPos a)).1) ia (d.axis a).accA).2
      accB := (d.regulate a (d.iref a (d.phases a (d.axisPos a)).2) ib (d.axis a).accB).1
      dutyB := (d.regulate a (d.iref a (d.phases a (d.axisPos a)).2) ib (d.axis a).accB).2 } := by
  have hoff : d.coilsOff a = false := by simp [Dev.coilsOff, h]
  unfold Dev.regulateAxis
  simp only [hoff, Bool.false_eq_true, if_false]

/-- R285: a period of an axis at rest regulates its currents and does nothing more. -/
theorem pwmPeriod_of_rest {ia ib va vb : Int} (hs : d.single) (hon : d.domOn 12 = true) (hst : (d.axis a).state = .rest)
    (hp : (d.axis a).plan = none) : d.pwmPeriod a ia ib va vb = d.regulateAxis a (ia - 2048) (ib - 2048) := by
  rw [regulateAxis_of_rest hst]
  generalize hx : ({ d.axis a with ia := ia - 2048, ib := ib - 2048, accA := _, dutyA := _, accB := _, dutyB := _ } :
    AxisSt) = x
  have hplan : ((d.setAxis a x).axis a).plan = none := by
    rw [axis_setAxis_same, ← hx]
    exact hp
  have hadvance : (d.setAxis a x).advanceAxis a = d.setAxis a x := by
    unfold Dev.advanceAxis
    simp only [hplan]
  have hrange : (d.setAxis a x).homeRangeOver a = false := by
    unfold Dev.homeRangeOver
    simp only [hplan]
  have hreg : d.regulateAxis a (ia - 2048) (ib - 2048) = d.setAxis a x := by
    rw [regulateAxis_of_rest hst, ← hx]
  unfold Dev.pwmPeriod
  simp only [ownsAxis_of_single hs, hon, hst, hreg, hadvance, hrange, Bool.not_true, Bool.or_self, Bool.false_eq_true,
    if_false, reduceCtorEq, or_self, decide_false, Bool.and_false]
  exact reportAxis_of_single hs.2

/-- R276, R265: no gate that is idle waits for an axis. -/
theorem gatesAfterMove_of_idle (h : ∀ g, (d.gate g).phase = .idle) : d.gatesAfterMove a = d := by
  unfold Dev.gatesAfterMove
  split
  · rfl
  · simp [h]

theorem axisFault_of_idle (h : ∀ g, (d.gate g).phase = .idle) : d.axisFault a = d := by
  unfold Dev.axisFault
  simp [h, GateSt.active]

/-- R290: a move that has ended leaves its axis on the target, at rest. -/
theorem moveComplete_of_ended {p : Plan} {n : Nat} (hs : d.single) (hp : (d.axis a).plan = some p) (he : p.ended = true)
    (hr : p.reach = some n) (hn : p.next = none) (hw : (d.axis a).waiting = false) (hb : (d.axis a).backing = false)
    (hg : ∀ g, (d.gate g).phase = .idle) :
    d.moveComplete a = (d.setAxisPos a (if p.up then p.start + n else p.start - n)).toRest a := by
  have hsettle : d.settleAxis a = (d.setAxisPos a (if p.up then p.start + n else p.start - n)).toRest a := by
    unfold Dev.settleAxis
    simp only [hp, he, hw, hr, hn, hb, Bool.not_true, Bool.or_self, Bool.false_eq_true, if_false]
  unfold Dev.moveComplete
  rw [hsettle]
  have hgates := gatesAfterMove_of_idle (a := a)
    (d := (d.setAxisPos a (if p.up then p.start + n else p.start - n)).toRest a) hg
  exact (reportAxis_of_single (by rw [hgates]; exact hs.2)).trans hgates

/-! ### Limits -/

/-- R294: what one axis does when the limit inputs have changed. -/
def Dev.limitStep (was : Nat) (d : Dev) (b : Fin 8) : Dev :=
  match (d.axis b).plan with
  | none => d
  | some p => if was.testBit (d.limitInputOf b p.up) then d else d.checkLimit b

theorem limitsChanged_eq (was : Nat) : d.limitsChanged was = axes8.foldl (Dev.limitStep was) d := rfl

theorem limitStep_of_none {was : Nat} (h : (d.axis a).plan = none) : Dev.limitStep was d a = d := by
  unfold Dev.limitStep
  simp only [h]

theorem limitsChanged_of_none {was : Nat} (h : ∀ b, (d.axis b).plan = none) : d.limitsChanged was = d :=
  foldl_keeps (fun e => e = d) _ (fun e b he => by rw [he]; exact limitStep_of_none (h b)) axes8 d rfl

/-- R294: the limit towards which an axis moves, newly active, stops it and is reported. -/
theorem limitStep_of_hit {was k : Nat} {p : Plan} (hs : d.single) (hp : (d.axis a).plan = some p)
    (hm : (d.axis a).state = .moving) (hg : ∀ g, (d.gate g).phase = .idle) (hk : d.limitInputOf a p.up = k)
    (hwas : was.testBit k = false) (hact : d.limitActive k = true) :
    Dev.limitStep was d a = (((d.haltAxis a).sticky (Fld.MOT_STAT.LimitHit a.val)).sticky Fld.MOT_ERR.LimitHit).notice
      Nt.LimitHit [(1, a.val), (1, k)] := by
  generalize he : (((d.haltAxis a).sticky (Fld.MOT_STAT.LimitHit a.val)).sticky Fld.MOT_ERR.LimitHit).notice
    Nt.LimitHit [(1, a.val), (1, k)] = e
  have hidle : ∀ g, (e.gate g).phase = .idle := fun g => by
    rw [← he, gate_congr (notice_dd ..)]
    exact hg g
  have hpair : e.pair = d.pair := by
    rw [← he]
    exact notice_pair ..
  have hhit : d.limitHit a k = e := by
    have hhome : ¬ ((d.axis a).state = .homing ∧ (d.axis a).backing = false ∧ d.rd (Fld.MOT_HOME.HomeMode a.val) = 1) := by
      simp [hm]
    unfold Dev.limitHit
    simp only [if_neg hhome, he]
    exact axisFault_of_idle hidle
  unfold Dev.limitStep
  simp only [hp, hk, hwas, Bool.false_eq_true, if_false]
  unfold Dev.checkLimit
  simp only [hp, hk, hm, hact, ownsAxis_of_single hs, hhit, true_or, decide_true, Bool.and_self, if_true]
  exact reportAxis_of_single ((inPair_congr hpair).trans hs.2)

/-- R293: a level of a limit input, and what the axes do at it. -/
theorem limitInput_eq {k : Fin 16} {level : Bool} {e : Dev}
    (he : { d with mot := { d.mot with limits := BitVec.ofNat 16 (if level then
      (if d.mot.limits.toNat.testBit k.val then d.mot.limits.toNat - 2 ^ k.val else d.mot.limits.toNat) + 2 ^ k.val
      else (if d.mot.limits.toNat.testBit k.val then d.mot.limits.toNat - 2 ^ k.val else d.mot.limits.toNat)) } } = e) :
    d.limitInput k level = e.limitsChanged d.limitMask := by
  subst he
  rfl

theorem axes8_nodup : axes8.Nodup := by decide

theorem mem_axes8 (a : Fin 8) : a ∈ axes8 := by
  revert a
  decide

theorem haltAxis_axis_ne {b : Fin 8} (h : b ≠ a) : (d.haltAxis a).axis b = d.axis b :=
  (axis_congr (d := (d.setAxisVel a 0).setAxis a _) rfl b).trans (axis_setAxis_ne h _)

/-- R294: one axis that runs towards a limit newly active, with no other moving, is stopped. -/
theorem limitsChanged_of_hit {was k : Nat} {p : Plan} (hs : d.single) (hother : ∀ b, b ≠ a → (d.axis b).plan = none)
    (hp : (d.axis a).plan = some p) (hm : (d.axis a).state = .moving) (hg : ∀ g, (d.gate g).phase = .idle)
    (hk : d.limitInputOf a p.up = k) (hwas : was.testBit k = false) (hact : d.limitActive k = true) :
    d.limitsChanged was = (((d.haltAxis a).sticky (Fld.MOT_STAT.LimitHit a.val)).sticky Fld.MOT_ERR.LimitHit).notice
      Nt.LimitHit [(1, a.val), (1, k)] := by
  have hstep := limitStep_of_hit (was := was) hs hp hm hg hk hwas hact
  rw [limitsChanged_eq, foldl_of_one axes8_nodup (mem_axes8 a) (fun b hb => limitStep_of_none (hother b hb))
    (fun b hb => limitStep_of_none ?_), hstep]
  rw [hstep, axis_congr (notice_mot ..)]
  exact (congrArg (·.plan) (haltAxis_axis_ne hb)).trans (hother b hb)

/-! ### The calibration of the ADCs -/

theorem adcCalStart_of_running (h : d.mot.calRun ≠ none) : d.adcCalStart = d := if_pos (Option.isSome_iff_ne_none.mpr h)

/-- R301: no axis of the mask is energised. -/
theorem any_energised_iff {mask : Nat} :
    (List.range 8).any (fun i => mask.testBit i && !d.coilsOff (Fin.ofNat 8 i)) = true ↔
      ∃ b : Fin 8, mask.testBit b.val = true ∧ d.coilsOff b = false := by
  have hfin (b : Fin 8) : Fin.ofNat 8 b.val = b := Fin.ext (Nat.mod_eq_of_lt b.isLt)
  simp only [List.any_eq_true, List.mem_range, Bool.and_eq_true, Bool.not_eq_true']
  constructor
  · rintro ⟨i, hi, hm, hc⟩
    exact ⟨⟨i, hi⟩, hm, by rwa [← hfin ⟨i, hi⟩]⟩
  · rintro ⟨b, hm, hc⟩
    exact ⟨b.val, b.isLt, hm, by rwa [hfin]⟩

theorem adcCalStart_of_energised (h : d.mot.calRun = none)
    (he : ∃ b : Fin 8, (d.rd Fld.CAL_ADCCTRL.Mask).testBit b.val = true ∧ d.coilsOff b = false) :
    d.adcCalStart = d.wr Fld.CAL_ADCSTAT.Refused 1 := by
  unfold Dev.adcCalStart
  simp only [h, any_energised_iff.mpr he, Option.isSome_none, Bool.false_eq_true, if_false, if_true]

theorem adcCalStart_of_free (h : d.mot.calRun = none)
    (he : ∀ b : Fin 8, (d.rd Fld.CAL_ADCCTRL.Mask).testBit b.val = true → d.coilsOff b = true) :
    d.adcCalStart =
      ((Dev.wr { d with mot := { d.mot with calRun := some (BitVec.ofNat 8 (d.rd Fld.CAL_ADCCTRL.Mask)) } }
        Fld.CAL_ADCSTAT.Refused 0).wr Fld.CAL_ADCSTAT.VcalMissing 0).wr Fld.CAL_ADCSTAT.Busy 1 := by
  have hany : ¬ ((List.range 8).any (fun i => (d.rd Fld.CAL_ADCCTRL.Mask).testBit i && !d.coilsOff (Fin.ofNat 8 i)) = true) := by
    rw [any_energised_iff]
    rintro ⟨b, hm, hc⟩
    rw [he b hm] at hc
    cases hc
  unfold Dev.adcCalStart
  simp only [h, Option.isSome_none, Bool.false_eq_true, if_false]
  rw [if_neg hany]

section
variable (mask : BitVec 8)

theorem toNat_adcWord : (BitVec.ofNat 32 (256 + mask.toNat)).toNat = 256 + mask.toNat := by
  have := mask.isLt
  rw [BitVec.toNat_ofNat]
  omega

theorem adcWord_fields : bitsOf (256 + mask.toNat) 7 0 = mask.toNat ∧ (256 + mask.toNat).testBit 8 = true := by
  have hlt := mask.isLt
  constructor
  · rw [bitsOf_eq]
    omega
  · rw [Nat.testBit_eq_decide_div_mod_eq]
    simp only [decide_eq_true_eq]
    omega

theorem adcWord_defined (v : Word) (hv : v.toNat = 256 + mask.toNat) :
    BitVec.ofNat 32 (v.toNat &&& definedBits Adr.CAL_ADCCTRL) = v := by
  have hlt := mask.isLt
  have hand : (256 + mask.toNat) &&& definedBits Adr.CAL_ADCCTRL = 256 + mask.toNat := by
    rw [show definedBits Adr.CAL_ADCCTRL = 2 ^ 9 - 1 from rfl, Nat.and_two_pow_sub_one_eq_mod]
    omega
  rw [hv, hand, ← hv]
  exact BitVec.ofNat_toNat ..

/-- R301: a write of CAL_ADCCTRL with Start stores the mask and starts a run. -/
theorem write_CAL_ADCCTRL {s : State} {path : Path} {v : Word} (hv : v.toNat = 256 + mask.toNat)
    (h : Reaches s path Adr.CAL_ADCCTRL v) :
    writeAccess path [] Adr.CAL_ADCCTRL v s.dev s.mem =
      (((s.dev.met path Adr.CAL_ADCCTRL v).keepReg Adr.CAL_ADCCTRL
        (setBits ((s.dev.met path Adr.CAL_ADCCTRL v).reg Adr.CAL_ADCCTRL) 7 0 mask.toNat)).adcCalStart, s.mem) := by
  obtain ⟨hmask, hstart⟩ := adcWord_fields mask
  have hst (p : Part) (old : Word) : storedWord p
      ⟨"CAL_ADCCTRL", 0x00130000, 1, 0x0, 1, 0x0, .none, [⟨8, 8, .wo, 0, none⟩, ⟨7, 0, .rw, 0, none⟩]⟩ old v =
      setBits old 7 0 mask.toNat := by
    unfold storedWord
    simp only [List.foldl_cons, List.foldl_nil, reduceCtorEq, if_false, if_true, hv, hmask]
    cases p <;> rfl
  rw [writeAccess_row h rfl (by cases s.dev.part <;> rfl) (by cases s.dev.part <;> rfl) (adcWord_defined mask v hv)
    rfl rfl rfl, writeReg_stores rfl (barPending_none _ rfl), hst, hv]
  simp only [actOn, show Adr.CAL_ADCCTRL / 0x10000 = 19 from rfl, Dev.actRest, hstart, if_true]
  simp [Adr.CAL_ADCCTRL, Adr.DD_CTRL, Adr.MOT_CMD, Adr.MOT_LIMPOL]

end

theorem adcCalDone_of_none {vcal : Bool} {results : List AdcResult} (h : d.mot.calRun = none) :
    d.adcCalDone vcal results = d := by
  unfold Dev.adcCalDone
  simp only [h]

/-- R301, R302: what a completed run records. -/
theorem adcCalDone_of_some {vcal : Bool} {results : List AdcResult} {mask : BitVec 8} (h : d.mot.calRun = some mask) :
    (d.adcCalDone vcal results).mot.calRun = none ∧ (d.adcCalDone vcal results).rd Fld.CAL_ADCSTAT.Busy = 0 ∧
      (d.adcCalDone vcal results).rd Fld.CAL_ADCDONE.Done = d.rd Fld.CAL_ADCDONE.Done ||| mask.toNat ∧
      (vcal = false → (d.adcCalDone vcal results).rd Fld.CAL_ADCSTAT.VcalMissing = 1) := by
  have hor : (d.rd Fld.CAL_ADCDONE.Done ||| mask.toNat) % 2 ^ 8 = d.rd Fld.CAL_ADCDONE.Done ||| mask.toNat :=
    Nat.mod_eq_of_lt (Nat.or_lt_two_pow (rd_lt d Fld.CAL_ADCDONE.Done) mask.isLt)
  unfold Dev.adcCalDone
  simp only [h]
  generalize hf : Dev.wr (d.wr Fld.CAL_ADCDONE.Done _) Fld.CAL_ADCPASS.Pass _ = f
  have hdone : f.rd Fld.CAL_ADCDONE.Done = d.rd Fld.CAL_ADCDONE.Done ||| mask.toNat := by
    rw [← hf, rd_wr_ne _ _ _ _ rfl rfl, rd_wr_same _ _ _ rfl]
    exact hor
  generalize he : (if vcal = true then f else f.wr Fld.CAL_ADCSTAT.VcalMissing 1) = e
  have hkeep : e.rd Fld.CAL_ADCDONE.Done = f.rd Fld.CAL_ADCDONE.Done := by
    rw [← he]
    split
    · rfl
    · exact rd_wr_ne _ _ _ _ rfl rfl
  have hmissing (hv : vcal = false) : e.rd Fld.CAL_ADCSTAT.VcalMissing = 1 := by
    rw [← he, if_neg (Bool.eq_false_iff.mp hv), rd_wr_same _ _ _ rfl]
    rfl
  refine ⟨rfl, (rd_wr_same _ _ _ rfl).trans rfl, ?_, fun hv => ?_⟩
  · rw [rd_wr_ne _ _ _ _ rfl rfl]
    exact (hkeep.trans hdone)
  · rw [rd_wr_ne _ _ _ _ rfl rfl]
    exact hmissing hv

theorem axisReport_of_other {pos vel load stat : Word} (h : d.ownsAxis a = false) :
    d.axisReport a pos vel load stat =
      (((d.setReg (Adr.MOT_POS a.val) pos).setReg (Adr.MOT_VEL a.val) vel).setReg (Adr.MOT_LOAD a.val) load).setReg
        (Adr.MOT_STAT a.val) stat := if_neg (Bool.eq_false_iff.mp h)

theorem axisRegs_apart : ∀ a : Fin 8, (Adr.MOT_POS a.val ≠ Adr.MOT_VEL a.val ∧ Adr.MOT_POS a.val ≠ Adr.MOT_LOAD a.val ∧
    Adr.MOT_POS a.val ≠ Adr.MOT_STAT a.val) ∧ (Adr.MOT_VEL a.val ≠ Adr.MOT_LOAD a.val ∧
    Adr.MOT_VEL a.val ≠ Adr.MOT_STAT a.val) ∧ Adr.MOT_LOAD a.val ≠ Adr.MOT_STAT a.val := by
  decide

/-- R283: the owner's report is what the four registers of the axis then show. -/
theorem axisReport_regs {e : Dev} {pos vel load stat : Word}
    (he : (((d.setReg (Adr.MOT_POS a.val) pos).setReg (Adr.MOT_VEL a.val) vel).setReg (Adr.MOT_LOAD a.val) load).setReg
      (Adr.MOT_STAT a.val) stat = e) :
    e.reg (Adr.MOT_POS a.val) = pos ∧ e.reg (Adr.MOT_VEL a.val) = vel ∧ e.reg (Adr.MOT_LOAD a.val) = load ∧
      e.reg (Adr.MOT_STAT a.val) = stat := by
  obtain ⟨⟨h12, h13, h14⟩, ⟨h23, h24⟩, h34⟩ := axisRegs_apart a
  subst he
  refine ⟨?_, ?_, ?_, reg_setReg_same ..⟩
  · rw [reg_setReg_ne _ _ h14, reg_setReg_ne _ _ h13, reg_setReg_ne _ _ h12, reg_setReg_same]
  · rw [reg_setReg_ne _ _ h24, reg_setReg_ne _ _ h23, reg_setReg_same]
  · rw [reg_setReg_ne _ _ h34, reg_setReg_same]

end
end Sys2Proof.Machine
end

section
open Sys2Proof Sys2Proof.Machine

/-- Settles O41. A second start while a run is under way is ignored by the model's choice (log 73), and an energising delay,
a standstill or a completion that nothing waits for changes nothing (log 17). -/
theorem axesMoveAndStop : Obligations.AxesMoveAndStop := by
  refine ⟨?axis, ?limit, ?start, ?done, ?forward⟩
  case axis =>
    intro s a hr hs x
    have hdelay {e : Dev} (he : s.dev.energiseDelay a = e) : Completes (.energiseDelay a) s e s.mem :=
      completes_dev (f := fun d => d.energiseDelay a) hr rfl he
    have hstand {e : Dev} (he : s.dev.standstill a = e) : Completes (.standstill a) s e s.mem :=
      completes_dev (f := fun d => d.standstill a) hr rfl he
    refine ⟨fun h => hdelay (energiseDelay_of_waiting h), fun h => hdelay (energiseDelay_of_none h),
      fun h => hstand (standstill_of_rest h), fun h => hstand (standstill_of_other h), fun ia ib va vb => ?_,
      fun p n hp he hreach hn hw hb hg => completes_dev (f := fun d => d.moveComplete a) hr rfl
        (moveComplete_of_ended hs hp he hreach hn hw hb hg)⟩
    have hpwm {e : Dev} (he : s.dev.pwmPeriod a ia ib va vb = e) : Completes (.pwmPeriod a ia ib va vb) s e s.mem :=
      completes_dev (f := fun d => d.pwmPeriod a ia ib va vb) hr rfl he
    exact ⟨fun h => hpwm (pwmPeriod_of_off h),
      fun hon hst hp => hpwm ((pwmPeriod_of_rest hs hon hst hp).trans (regulateAxis_of_rest hst _ _))⟩
  case limit =>
    intro s k level hr hs l cleared d
    have hc {e : Dev} (he : d.limitsChanged s.dev.limitMask = e) : Completes (.limitInput k level) s e s.mem :=
      completes_dev (f := fun d => d.limitInput k level) hr rfl ((limitInput_eq rfl).trans he)
    refine ⟨fun h => hc (limitsChanged_of_none h), fun a p hother hp hm hg hk hwas hact => hc ?_⟩
    refine limitsChanged_of_hit (d := d) hs hother hp hm hg hk ?_ hact
    rw [Dev.limitMask, testBit_maskOf, hwas, Bool.and_false]
  case start =>
    intro s path mask v h e d
    have hv : v.toNat = 256 + mask.toNat := toNat_adcWord mask
    have hc {f : Dev} (hf : d.adcCalStart = f) : Completes (.adcCalStart path mask) s f s.mem :=
      completes_live h.1 rfl ((write_CAL_ADCCTRL mask hv h).trans (congrArg (·, s.mem) hf))
    have hmask : d.rd Fld.CAL_ADCCTRL.Mask = mask.toNat := by
      rw [Dev.rd, show Fld.CAL_ADCCTRL.Mask = ⟨Adr.CAL_ADCCTRL, 7, 0⟩ from rfl, keepReg_reg_same,
        bitsOf_setBits_same _ _ _ _ (by decide) (by decide)]
      exact Nat.mod_eq_of_lt mask.isLt
    refine ⟨fun hrun => hc (adcCalStart_of_running hrun), fun hrun hen => hc (adcCalStart_of_energised hrun (by rwa [hmask])),
      fun hrun hfree => ⟨_, hc (adcCalStart_of_free hrun (by rwa [hmask])), ?_, ?_, ?_, ?_⟩⟩
    · show some (BitVec.ofNat 8 (d.rd Fld.CAL_ADCCTRL.Mask)) = some mask
      rw [hmask, BitVec.ofNat_toNat, BitVec.setWidth_eq]
    · rw [rd_wr_same _ _ _ rfl]
      rfl
    · rw [rd_wr_ne _ _ _ _ rfl rfl, rd_wr_ne _ _ _ _ rfl rfl, rd_wr_same _ _ _ rfl]
      rfl
    · rw [rd_wr_ne _ _ _ _ rfl rfl, rd_wr_same _ _ _ rfl]
      rfl
  case done =>
    intro s vcal results hr
    have hc {e : Dev} (he : s.dev.adcCalDone vcal results = e) : Completes (.adcCalDone vcal results) s e s.mem :=
      completes_dev (f := fun d => d.adcCalDone vcal results) hr rfl he
    exact ⟨fun h => hc (adcCalDone_of_none h), fun mask h => ⟨_, hc rfl, adcCalDone_of_some h⟩⟩
  case forward =>
    intro s a hr hmode
    refine ⟨fun op hown => completes_dev (f := fun d => if d.pair.mode then d.axisForward a op.toNat else d) hr rfl
      ((if_pos hmode).trans (if_pos hown)), fun pos vel load stat hown => ⟨_,
      completes_dev (f := fun d => if d.pair.mode then d.axisReport a pos vel load stat else d) hr rfl
        ((if_pos hmode).trans (axisReport_of_other hown)), axisReport_regs rfl⟩⟩

end

section
/-!
SUPPORT. Reset, start-up and the stoker (R436, R437, R455 to R457).
-/
namespace Sys2Proof.Machine

section
variable {d : Dev}

/-! ### Reset -/

/-- R436: only the journal's wear registers keep what they held. -/
theorem reg_resetAssert (a : Nat) : d.resetAssert.reg a =
    if a = Adr.JNL_MAXWR ∨ a = Adr.JNL_SPARES then d.reg a else resetWord d.part a := by
  show spGet (resetWord d.part a) (d.win.filter (fun e => e.1 == Adr.JNL_MAXWR || e.1 == Adr.JNL_SPARES)) a = _
  by_cases ha : a = Adr.JNL_MAXWR ∨ a = Adr.JNL_SPARES
  · rw [if_pos ha]
    exact spGet_filter _ a (fun b => b == Adr.JNL_MAXWR || b == Adr.JNL_SPARES) _ (by simpa using ha)
  · rw [if_neg ha]
    exact spGet_filter_none _ a (fun b => b == Adr.JNL_MAXWR || b == Adr.JNL_SPARES) _ (by simpa using ha)

theorem sendOff_jnl (before : Dev) : (Dev.sendOff before d).jnl = d.jnl := by
  unfold Dev.sendOff
  refine foldl_keeps (fun e : Dev => e.jnl = d.jnl) _ (fun e o he => ?_) _ _ rfl
  unfold Dev.sendOne
  split
  · split
    · exact he
    · exact he
  · exact he

theorem powerLost_jnl : d.powerLost.jnl = { d.jnl with queue := [] } := by
  have hj (e : Dev) : e.resetAssert.jnl = { e.jnl with queue := [] } := rfl
  unfold Dev.powerLost
  rw [hj, sendOff_jnl]
  split <;> rfl

/-! ### The release of reset -/

/-- R437 steps 1 and 2: the device as reset's release finds it, before an image is judged. -/
def Dev.released (d : Dev) (devsel : Bool) : Dev :=
  let d := { d with devNum := if devsel then 1 else 0, boot := { d.boot with inReset := false } }
  let d := (d.setReg Adr.CFG_DIEIDLO (Config.dieIdentity 0)).setReg Adr.CFG_DIEIDHI (Config.dieIdentity 1)
  let j := d.jnl.area
  { d with rep := { d.rep with ring := j.trouble, nextSeq := seqAdd j.lastSeq 1, lastSeq := j.lastSeq } }

section
variable {devsel : Bool} {a b : Bytes}

theorem resetRelease_of_running (h : d.boot.inReset = false) : d.resetRelease devsel a b = d := by
  unfold Dev.resetRelease
  rw [h]
  rfl

/-- R437 step 3: image A where it is whole, image B where only that is, and otherwise no image. -/
def Dev.imageChosen (d : Dev) (failA failB : Nat) (a b : Bytes) : Dev :=
  if failA = 0 then d.takeImage false a
  else
    let d := d.wr Fld.CFG_BOOTSTAT.FailB failB
    if failB = 0 then d.takeImage true b else { d with boot := { d.boot with phase := .noImage } }

theorem resetRelease_of_reset (h : d.boot.inReset = true) :
    ∃ r : Dev, r.boot.inReset = false ∧ r.devNum = (if devsel then 1 else 0) ∧ r.rd Fld.CFG_BOOTSTAT.NvmReleased = 1 ∧
      d.resetRelease devsel a b =
        r.imageChosen (imageFail d.part d.boot.fuseHash a) (imageFail d.part d.boot.fuseHash b) a b := by
  have hr : ¬ ((!d.boot.inReset) = true) := by simp [h]
  have hin : (d.released devsel).boot.inReset = false := rfl
  have hnum : (d.released devsel).devNum = if devsel then 1 else 0 := rfl
  have hpart : (d.released devsel).part = d.part := rfl
  have hfuse : (d.released devsel).boot.fuseHash = d.boot.fuseHash := rfl
  refine ⟨((d.released devsel).wr Fld.CFG_BOOTSTAT.FailA (imageFail d.part d.boot.fuseHash a)).wr
    Fld.CFG_BOOTSTAT.NvmReleased 1, ?_, ?_, (rd_wr_same _ _ _ rfl).trans rfl, ?_⟩
  · rw [wr_boot, wr_boot, hin]
  · rw [wr_devNum, wr_devNum, hnum]
  · unfold Dev.resetRelease
    rw [if_neg hr]
    change (let e := d.released devsel
      let fa := imageFail e.part e.boot.fuseHash a
      let e := (e.wr Fld.CFG_BOOTSTAT.FailA fa).wr Fld.CFG_BOOTSTAT.NvmReleased 1
      if fa = 0 then e.takeImage false a
      else
        let fb := imageFail e.part e.boot.fuseHash b
        let e := e.wr Fld.CFG_BOOTSTAT.FailB fb
        if fb = 0 then e.takeImage true b else { e with boot := { e.boot with phase := .noImage } }) = _
    dsimp only
    rw [wr_part, wr_part, wr_boot, wr_boot, hpart, hfuse, Dev.imageChosen]

theorem takeImage_boot (b : Bool) (bs : Bytes) : (d.takeImage b bs).boot =
    { d.boot with records := configRecords (parseImage bs).records, phase := if b then .readingB else .readingA } := by
  cases b <;> rfl

theorem takeImage_devNum (b : Bool) (bs : Bytes) : (d.takeImage b bs).devNum = d.devNum := by
  cases b <;> rfl

/-- The device with the words of an image's header shown. -/
def Dev.headerShown (d : Dev) (header : CfgRecord) : Dev :=
  ((d.setReg Adr.CFG_FWVER (BitVec.ofNat 32 ((header.num 4 4).getD 0))).setReg Adr.CFG_IMAGEGEN
    (BitVec.ofNat 32 ((header.num 5 4).getD 0))).setReg Adr.CFG_CONFIGID (BitVec.ofNat 32 ((header.num 6 4).getD 0))

theorem headerShown_nvm (header : CfgRecord) :
    (d.headerShown header).rd Fld.CFG_BOOTSTAT.NvmReleased = d.rd Fld.CFG_BOOTSTAT.NvmReleased := by
  unfold Dev.headerShown Dev.rd
  rw [reg_setReg_ne _ _ (by decide), reg_setReg_ne _ _ (by decide), reg_setReg_ne _ _ (by decide)]

theorem takeImage_rd (b : Bool) (bs : Bytes) (f : FieldRef) : (d.takeImage b bs).rd f =
    (if b then ((d.headerShown ((parseImage bs).records.headD ⟨0, []⟩)).sticky Fld.CFG_ERR.ImageB).wr
      Fld.CFG_BOOTSTAT.Image 1 else d.headerShown ((parseImage bs).records.headD ⟨0, []⟩)).rd f :=
  by
  unfold Dev.takeImage
  dsimp only
  rw [← Dev.headerShown]
  generalize d.headerShown _ = e
  exact rd_congr rfl rfl f

theorem takeImage_nvm (b : Bool) (bs : Bytes) :
    (d.takeImage b bs).rd Fld.CFG_BOOTSTAT.NvmReleased = d.rd Fld.CFG_BOOTSTAT.NvmReleased := by
  rw [takeImage_rd]
  cases b
  · exact headerShown_nvm _
  · exact ((rd_wr_ne _ _ _ _ rfl rfl).trans (rd_sticky_ne _ _ _ rfl rfl)).trans (headerShown_nvm _)

theorem takeImage_imageB (bs : Bytes) :
    (d.takeImage true bs).rd Fld.CFG_ERR.ImageB = 1 ∧ (d.takeImage true bs).rd Fld.CFG_BOOTSTAT.Image = 1 := by
  rw [takeImage_rd, takeImage_rd, if_pos rfl]
  exact ⟨(rd_wr_ne _ _ _ _ rfl rfl).trans (rd_sticky_same _ _ rfl), (rd_wr_same _ _ _ rfl).trans rfl⟩

/-- R437 step 3: what the choice of the image leaves. -/
theorem imageChosen_leaves {failA failB : Nat} {n : Nat} (hin : d.boot.inReset = false) (hnum : d.devNum = n)
    (hnvm : d.rd Fld.CFG_BOOTSTAT.NvmReleased = 1) {e : Dev} (he : d.imageChosen failA failB a b = e) :
    e.boot.inReset = false ∧ e.devNum = n ∧ e.rd Fld.CFG_BOOTSTAT.NvmReleased = 1 ∧
      (failA = 0 → e.boot.phase = .readingA ∧ e.boot.records = configRecords (parseImage a).records) ∧
      (failA ≠ 0 → failB = 0 → e.boot.phase = .readingB ∧ e.rd Fld.CFG_ERR.ImageB = 1 ∧
        e.rd Fld.CFG_BOOTSTAT.Image = 1 ∧ e.boot.records = configRecords (parseImage b).records) ∧
      (failA ≠ 0 → failB ≠ 0 → e.boot.phase = .noImage) := by
  unfold Dev.imageChosen at he
  by_cases ha : failA = 0
  · rw [if_pos ha] at he
    subst he
    rw [takeImage_boot, takeImage_devNum, takeImage_nvm]
    exact ⟨hin, hnum, hnvm, fun _ => ⟨rfl, rfl⟩, fun h => absurd ha h, fun h => absurd ha h⟩
  · rw [if_neg ha] at he
    have hnvm' : (d.wr Fld.CFG_BOOTSTAT.FailB failB).rd Fld.CFG_BOOTSTAT.NvmReleased = 1 :=
      (rd_wr_ne _ _ _ _ rfl rfl).trans hnvm
    rw [← wr_boot d Fld.CFG_BOOTSTAT.FailB failB] at hin
    rw [← wr_devNum d Fld.CFG_BOOTSTAT.FailB failB] at hnum
    generalize d.wr Fld.CFG_BOOTSTAT.FailB failB = q at *
    dsimp only at he
    by_cases hb : failB = 0
    · rw [if_pos hb] at he
      subst he
      obtain ⟨herr, himage⟩ := takeImage_imageB (d := q) b
      rw [takeImage_boot, takeImage_devNum, takeImage_nvm]
      exact ⟨hin, hnum, hnvm', fun h => absurd h ha, fun _ _ => ⟨rfl, herr, himage, rfl⟩, fun _ h => absurd hb h⟩
    · rw [if_neg hb] at he
      subst he
      exact ⟨hin, hnum, (rd_congr rfl rfl _).trans hnvm', fun h => absurd h ha, fun _ h => absurd h hb, fun _ _ => rfl⟩

end

/-! ### The stoker -/

theorem stokerRelease_of_other {m : Mem} (h : d.boot.phase ≠ .readingA ∧ d.boot.phase ≠ .readingB) :
    stokerRelease d m = (d, m) := if_pos h

/-- R437 steps 4 to 8, once the records have been applied. -/
def Dev.configured (d : Dev) : Dev :=
  let d := d.showAddresses.showMemory.checkSets.restoreCalibration.overlayStates.reportLostAreas
  let d : Dev := { d with ojp := { d.ojp with former := d.jnl.area.sessions } }
  let d := (d.wr Fld.JNL_STATUS.Loaded 1).clampNotice
  let d : Dev := { d with boot := { d.boot with phase := .memory } }
  d.trainLanes.beginRoles

theorem stokerRelease_of_image {m : Mem} {x : Dev × Mem} (h : d.boot.phase = .readingA ∨ d.boot.phase = .readingB)
    (hx : ({ d.dropEarlyWrites with boot := { d.boot with stokerUp := true, phase := .configuring } } : Dev).boot.records.foldl
      applyRecord ({ d.dropEarlyWrites with boot := { d.boot with stokerUp := true, phase := .configuring } }, m) = x) :
    stokerRelease d m = (x.1.configured, x.2) := by
  subst hx
  refine if_neg ?_
  rintro ⟨h1, h2⟩
  exact h.elim h1 h2

theorem deviceReady_of_not (h : d.mayBeReady = false) : d.deviceReady = d := if_neg (Bool.eq_false_iff.mp h)

theorem sendRestarts_boot : d.sendRestarts.boot = d.boot := by
  unfold Dev.sendRestarts
  split
  · rfl
  · exact foldl_keeps (fun e : Dev => e.boot = d.boot) _ (fun e o he => (sendFrame_boot ..).trans he) _ d rfl

/-- R437 step 9: a device that may be ready is, and no former session is remembered. -/
theorem deviceReady_of_may (h : d.mayBeReady = true) :
    d.deviceReady.boot.readied = true ∧ d.deviceReady.boot.phase = .ready ∧ d.deviceReady.ojp.former = [] := by
  have he : d.deviceReady =
      { Dev.sendRestarts { d with boot := { d.boot with phase := .ready, readied := true } } with
        ojp := { (Dev.sendRestarts { d with boot := { d.boot with phase := .ready, readied := true } }).ojp with
          former := [] } } := if_pos h
  rw [he]
  have hb := sendRestarts_boot (d := { d with boot := { d.boot with phase := .ready, readied := true } })
  exact ⟨congrArg (·.readied) hb, congrArg (·.phase) hb, rfl⟩

theorem stokerLoadWindow_of_stopped {load : Nat} (h : d.stokerRuns = false) : d.stokerLoadWindow load = d :=
  if_pos (by simp [h])

/-- R455: a window whose load lies between the bounds sheds nothing and ends both runs. -/
theorem stokerLoadWindow_of_between {load : Nat} (h : d.stokerRuns = true) (hlo : 60 < load) (hhi : load < 90) :
    d.stokerLoadWindow load =
      { d.wr Fld.CFG_STOKER.Load load with boot := { d.boot with highRun := 0, lowRun := 0 } } := by
  have hmin : min load 100 = load := Nat.min_eq_left (by omega)
  have h1 : ¬ (90 ≤ load) := by omega
  have h2 : ¬ (load ≤ 60) := by omega
  have h3 : ¬ ((3 : Nat) ≤ 0 ∧ d.boot.level < 3) := by omega
  have h4 : ¬ ((100 : Nat) ≤ 0 ∧ 0 < d.boot.level) := by omega
  unfold Dev.stokerLoadWindow
  simp only [h, hmin, if_neg h1, if_neg h2, Bool.not_true, Bool.false_eq_true, if_false, if_neg h3, if_neg h4, wr_boot]

/-- R456: one level more is shed; below level 3 no sweep was held back. -/
theorem setLevel_boot {level load : Nat} (h : d.boot.level < 3) :
    (d.setLevel level load).boot = { d.boot with level := level, highRun := 0, lowRun := 0 } := by
  have hkeep : ¬ (3 ≤ d.boot.level ∧ level < 3) := fun hn => absurd hn.1 (Nat.not_le.mpr h)
  unfold Dev.setLevel
  simp only [if_neg hkeep]
  split
  · rw [trouble_boot]
    rfl
  · rfl

theorem stokerLoadWindow_of_third {load : Nat} (h : d.stokerRuns = true) (hhi : 90 ≤ load) (hrun : d.boot.highRun = 2)
    (hl : d.boot.level < 3) :
    (d.stokerLoadWindow load).boot = { d.boot with level := d.boot.level + 1, highRun := 0, lowRun := 0 } := by
  unfold Dev.stokerLoadWindow
  simp only [h, if_pos hhi, wr_boot, hrun, hl, Bool.not_true, Bool.false_eq_true, if_false]
  exact (setLevel_boot (by exact hl)).trans rfl

section
variable {hashOk : Bool} (hs : d.stokerRuns = true) (hon : d.domOn 1 = true)
include hs hon

theorem watchdogExpiry_of_halt (h : hashOk = false ∨ d.fifthRestart = true) :
    d.watchdogExpiry hashOk = Dev.sticky { d with boot := { d.boot with stokerHalted := true, phase := .stokerFailed } }
      Fld.CFG_ERR.StokerFailed := by
  have hgo : (!d.stokerRuns || !d.domOn 1) = false := by simp [hs, hon]
  have hhalt : (!hashOk || d.fifthRestart) = true := by rcases h with h | h <;> simp [h]
  unfold Dev.watchdogExpiry
  rw [if_neg (Bool.eq_false_iff.mp hgo), if_pos hhalt]

theorem watchdogExpiry_of_restart (hok : hashOk = true) (hf : d.fifthRestart = false) :
    d.watchdogExpiry hashOk = ((Dev.bump { d with boot := { d.boot with
      restartSecs := (d.boot.restartSecs ++ [d.now.sec]).drop ((d.boot.restartSecs ++ [d.now.sec]).length - 4) } }
        Fld.CFG_STKRST.Count).sticky Fld.CFG_ERR.StokerRestart).noticeTrouble Nt.StokerRestart [] := by
  have hgo : (!d.stokerRuns || !d.domOn 1) = false := by simp [hs, hon]
  have hrestart : (!hashOk || d.fifthRestart) = false := by simp [hok, hf]
  unfold Dev.watchdogExpiry
  rw [if_neg (Bool.eq_false_iff.mp hgo), if_neg (Bool.eq_false_iff.mp hrestart)]

end
end
end Sys2Proof.Machine
end

section
open Sys2Proof Sys2Proof.Machine

/-- Settles O42. The wear registers kept through reset (log 121), the reset words (log 155) and a fall of power good that
finds the device held in reset (log 145) are the model's choices. -/
theorem resetLosesAndImagesLoad : Obligations.ResetLosesAndImagesLoad := by
  refine ⟨fun s => ?assert, fun s => ?power, fun s devsel a b => ?release⟩
  case assert =>
    refine ⟨{ s with dev := s.dev.resetAssert }, rfl, rfl, rfl, fun a h1 h2 => ?_, ?_, ?_, rfl, rfl, rfl⟩
    · exact (reg_resetAssert a).trans (if_neg (not_or.mpr ⟨h1, h2⟩))
    · exact (reg_resetAssert _).trans (if_pos (.inl rfl))
    · exact (reg_resetAssert _).trans (if_pos (.inr rfl))
  case power =>
    refine ⟨fun h => congrArg _ (if_pos h), fun h => ⟨{ s with dev := s.dev.powerLost }, congrArg _ (if_neg ?_), rfl, rfl, ?_⟩⟩
    · rw [show s.dev.boot.inReset = false from h]
      decide
    · exact congrArg (·.area) powerLost_jnl
  case release =>
    refine ⟨fun h => ?_, fun h => ⟨s.dev.resetRelease devsel a b, rfl, ?_⟩⟩
    · show Host.Outcome.next { s with dev := s.dev.resetRelease devsel a b } = .next s
      rw [resetRelease_of_running h]
    · obtain ⟨r, hin, hnum, hnvm, he⟩ := resetRelease_of_reset (devsel := devsel) (a := a) (b := b) h
      exact imageChosen_leaves hin hnum hnvm he.symm

/-- Settles O43. The phase after the stoker's release (log 119), the early writes and records dropped (logs 118 and 146) and
the commands that change nothing out of their phase (logs 13 and 17) are the model's choices. -/
theorem stokerStartsAndSheds : Obligations.StokerStartsAndSheds := by
  refine ⟨fun s hr => ⟨fun h => ?other, fun h => ?image, fun h => ?waits, fun h => ?ready⟩, fun s load hr => ?load,
    fun s hashOk hr hs hon => ?watchdog⟩
  case other => exact completes_live (f := stokerRelease) hr rfl (stokerRelease_of_other h)
  case image =>
    intro d0 x
    have hx : d0.boot.records.foldl applyRecord (d0, s.mem) = x := rfl
    clear_value x
    exact completes_live (f := stokerRelease) hr rfl (stokerRelease_of_image h hx)
  case waits => exact completes_dev (f := Dev.deviceReady) hr rfl (deviceReady_of_not h)
  case ready => exact ⟨_, completes_dev (f := Dev.deviceReady) hr rfl rfl, deviceReady_of_may h⟩
  case load =>
    have hc {e : Dev} (he : s.dev.stokerLoadWindow load = e) : Completes (.stokerLoadWindow load) s e s.mem :=
      completes_dev (f := fun d => d.stokerLoadWindow load) hr rfl he
    refine ⟨fun h => hc (stokerLoadWindow_of_stopped h), fun h hlo hhi => hc (stokerLoadWindow_of_between h hlo hhi),
      fun h hhi hrun hl => ⟨_, hc rfl, ?_, ?_, ?_⟩⟩
    all_goals rw [stokerLoadWindow_of_third h hhi hrun hl]
  case watchdog =>
    have hc {e : Dev} {y : Dev × Mem} (he : s.dev.watchdogExpiry hashOk = e) (hy : takeUpAll (e, s.mem) = y) :
        Completes (.watchdogExpiry hashOk) s y.1 y.2 :=
      completes_live (f := fun d m => takeUpAll (d.watchdogExpiry hashOk, m)) hr rfl (by rw [he, hy])
    intro b
    refine ⟨fun h => ?_, fun hok hf => ?_⟩
    · intro y
      exact hc (watchdogExpiry_of_halt hs hon h) rfl
    · intro secs d y
      exact hc (watchdogExpiry_of_restart hs hon hok hf) rfl

end

section
/-!
SUPPORT. Power domains and the journal (R458 to R472).
-/
namespace Sys2Proof.Machine

/-! ### Requests (R469) -/

section
variable {d : Dev} {k : Nat} {x : Domain}

/-- R469: a field of PWR_REQ that asks for nothing. -/
theorem powerField_zero (d : Dev) (k : Nat) : d.powerField k 0 = d := by
  unfold Dev.powerField
  exact if_pos (Or.inl rfl)

theorem powerField_core (d : Dev) (c : Nat) : d.powerField 0 c = d := if_pos (Or.inr (Or.inl rfl))

theorem powerTaken_pwr : (d.powerTaken k).pwr = d.pwr := by
  unfold Dev.powerTaken
  dsimp only
  split <;> rfl

theorem powerTaken_part : (d.powerTaken k).part = d.part := by
  unfold Dev.powerTaken
  dsimp only
  split <;> rfl

theorem domain_congr {e : Dev} (h : e.pwr = d.pwr) (j : Nat) : e.domain j = d.domain j := by
  unfold Dev.domain
  rw [h]

theorem wakeable_congr {e : Dev} (h : e.part = d.part) (j : Nat) : e.wakeable j = d.wakeable j := by
  unfold Dev.wakeable
  rw [h]

/-- R469: the word that asks something of one domain only. -/
theorem powerRequest_of_one {v c : Nat} (hk : k < 14)
    (hv : ∀ j < 14, bitsOf v (2 * j + 1) (2 * j) = if j = k then c else 0) : d.powerRequest v = d.powerField k c := by
  have hfield (e : Dev) (j : Nat) (hj : j ∈ List.range 14) :
      e.powerField j (bitsOf v (2 * j + 1) (2 * j)) = e.powerField j (if j = k then c else 0) := by
    rw [hv j (List.mem_range.mp hj)]
  have hstep : d.powerRequest v = (List.range 14).foldl (fun e j => e.powerField j (if j = k then c else 0)) d :=
    List.foldl_ext _ _ _ hfield
  rw [hstep, foldl_of_one (f := fun (e : Dev) j => e.powerField j (if j = k then c else 0)) (a := k) List.nodup_range
    (List.mem_range.mpr hk) (fun j hj => ?_) (fun j hj => ?_)]
  · exact congrArg _ (if_pos rfl)
  · simp only [if_neg hj, powerField_zero]
  · simp only [if_neg hj, powerField_zero]

theorem powerWord_fields (k : Fin 14) (c : Fin 4) : (BitVec.ofNat 32 (c.val * 4 ^ k.val)).toNat = c.val * 4 ^ k.val ∧
    BitVec.ofNat 32 ((c.val * 4 ^ k.val) &&& 0xFFFFFFF) = BitVec.ofNat 32 (c.val * 4 ^ k.val) ∧
    ∀ j < 14, bitsOf (c.val * 4 ^ k.val) (2 * j + 1) (2 * j) = if j = k.val then c.val else 0 := by
  revert k c
  decide

section
variable (h0 : k ≠ 0) (hw : d.wakeable k = true) (hx : d.domain k = x)
include h0 hw hx

/-- R469, R472: a request for On of a domain that is ON or in ember wakes it. -/
theorem powerField_on (h5 : k ≠ 5) (hl : x.state.leaving = false) : d.powerField k 1 = (d.powerTaken k).wake k 1 := by
  have hgo : ¬ ((1 : Nat) = 0 ∨ k = 0 ∨ d.wakeable k = false) := by simp [h0, hw]
  subst hx
  unfold Dev.powerField
  dsimp only
  rw [if_neg hgo, if_pos rfl, if_neg (Bool.eq_false_iff.mp hl)]
  simp only [if_neg h5]
  rfl

omit h0 in
theorem wake_of_on {source : Nat} (hs : x.state = .on) : d.wake k source = d := by
  have h1 : ¬ (x.state.asleep = true) := by rw [hs]; decide
  have h2 : ¬ (x.state.entering = true ∧ x.woken = false) := by rw [hs]; exact fun h => by cases h.1
  subst hx
  unfold Dev.wake
  dsimp only
  rw [if_neg (by simp [hw]), if_neg h1, if_neg h2]

omit h0 in
theorem wake_of_ember {source : Nat} (hs : x.state = .ember) :
    d.wake k source = (d.setDomain k { x with state := .fromEmber, woken := false }).showWake k source := by
  have h1 : x.state.asleep = true := by rw [hs]; rfl
  have hexit : d.beginExit k = d.setDomain k { x with state := .fromEmber, woken := false } := by
    subst hx
    unfold Dev.beginExit
    simp only [hs]
  rw [← hexit]
  subst hx
  unfold Dev.wake
  dsimp only
  rw [if_neg (by simp [hw]), if_pos h1]

/-- R469, Table 120: a request for ember or cold of a domain that is ON begins its entry, or is refused; STOKER and NET go
no further than ember. -/
theorem powerField_sleep {code : Nat} (h5 : k ≠ 5) (hs : x.state = .on) (hc : code = 2 ∨ code = 3) :
    d.powerField k code =
      if d.pwrRefused k then d.refusePower k 1
      else (d.powerTaken k).beginEntry k (if (if k = 1 ∨ k = 2 then 2 else code) = 2 then .toEmber else .toCold) := by
  have hgo : ¬ (code = 0 ∨ k = 0 ∨ d.wakeable k = false) := by
    rcases hc with rfl | rfl <;> simp [h0, hw]
  have hon : ¬ (code = 1) := by rcases hc with rfl | rfl <;> decide
  have hmove : ¬ (x.state.leaving = true ∨ x.state.entering = true) := by
    rw [hs]
    decide
  subst hx
  unfold Dev.powerField
  dsimp only
  rw [if_neg hgo, if_neg hon, if_neg hmove]
  unfold Dev.requestSleep
  dsimp only
  generalize (if k = 1 ∨ k = 2 then 2 else code) = c
  rw [hs, if_neg (by simp), if_neg (by simp), if_neg (c := k = 5 ∧ c = 2 ∧ d.kindling = true) (fun h => h5 h.1)]

end

/-! ### Entry and exit (R470, R472) -/

theorem domainEntryDone_of_other (hx : d.domain k = x) (h1 : x.state ≠ .toEmber) (h2 : x.state ≠ .toCold) :
    d.domainEntryDone k = d := by
  subst hx
  unfold Dev.domainEntryDone
  dsimp only
  split
  · rfl
  · next st hst =>
    split at hst
    · next h => exact absurd h h1
    · next h => exact absurd h h2
    · cases hst

theorem actPending_of_none (h : (d.domain k).pend = 0) : d.actPending k = d := if_pos h

theorem domainEntryDone_of_ember (hk : k < 14) (h4 : k ≠ 4) (h5 : k ≠ 5) (hx : d.domain k = x) (hs : x.state = .toEmber)
    (hw : x.woken = false) (hp : x.pend = 0) :
    d.domainEntryDone k = d.setDomain k { x with state := .ember, pend := 0 } := by
  subst hx
  unfold Dev.domainEntryDone
  simp only [hs, hw, hp, Bool.false_eq_true, if_false, if_neg h4, h5, false_and, reduceCtorEq]
  exact actPending_of_none (by rw [domain_setDomain_same _ hk])

/-- R470: a domain that leaves ember is ON. -/
theorem domainExitDone_of_ember (hk : k < 14) (h5 : k ≠ 5) (hx : d.domain k = x) (hs : x.state = .fromEmber)
    (hp : x.pend = 0) : d.domainExitDone k = d.setDomain k { x with state := .on } := by
  have hl : x.state.leaving = true := by rw [hs]; rfl
  have hcold : decide (x.state = .fromCold) = false := by rw [hs]; rfl
  subst hx
  unfold Dev.domainExitDone
  simp only [hl, hcold, if_true, if_neg h5, Bool.false_and, Bool.false_eq_true, if_false]
  exact actPending_of_none (by rw [domain_setDomain_same _ hk]; exact hp)

/-- R468, R470: a domain that leaves cold is ON, and says that it lost something. -/
theorem domainExitDone_of_cold (hk : k < 14) (h5 : k ≠ 5) (hlose : losesInCold k = true) (hx : d.domain k = x)
    (hs : x.state = .fromCold) (hp : x.pend = 0) :
    d.domainExitDone k = ((d.setDomain k { x with state := .on }).sticky Fld.PWR_ERR.DomainLost).notice Nt.DomainLost
      [(1, k)] := by
  have hl : x.state.leaving = true := by rw [hs]; rfl
  have hcold : decide (x.state = .fromCold) = true := by rw [hs]; rfl
  subst hx
  unfold Dev.domainExitDone
  simp only [hl, hcold, hlose, if_true, if_neg h5, Bool.true_and, beq_eq_false_iff_ne.mpr h5, Bool.false_eq_true, if_false]
  refine actPending_of_none ?_
  rw [domain_congr (notice_pwr ..), domain_congr (sticky_pwr ..), domain_setDomain_same _ hk]
  exact hp

/-- R490: only MEM's exit from cold gives the firing counts their journal values again. -/
theorem exitDone_eq {m : Mem} {e : Dev} (h5 : k ≠ 5) (he : d.domainExitDone k = e) : exitDone k d m = takeUpAll (e, m) := by
  have hcold : decide (k = 5 ∧ (d.domain k).state = .fromCold) = false := decide_eq_false (fun h => h5 h.1)
  subst he
  unfold exitDone
  simp only [hcold, Bool.false_eq_true, if_false]

end

/-! ### The journal -/

section
variable {d : Dev}

theorem journalWrite_of_empty {ok : Bool} (h : d.jnl.queue = []) : d.journalWrite ok = d := by
  unfold Dev.journalWrite
  simp only [h]

theorem journalWrite_of_stopped {ok : Bool} (h : d.stokerRuns = false) : d.journalWrite ok = d := by
  unfold Dev.journalWrite
  simp only [h, Bool.not_false, if_true]
  split <;> rfl

/-- R460, R471: the stoker, awake, writes the oldest change; asleep it is woken. -/
theorem journalWrite_of_some {ok : Bool} {c : JnlChange} {rest : List JnlChange} (hq : d.jnl.queue = c :: rest)
    (h : d.stokerRuns = true) :
    d.journalWrite ok = if d.domOn 1 then (d.setJnl (fun j => { j with queue := rest })).writeChange c ok
      else d.wake 1 7 := by
  unfold Dev.journalWrite
  simp only [hq, h, Bool.not_true, Bool.false_eq_true, if_false]
  cases d.domOn 1 <;> rfl

/-- R460: wear changes neither the journal's content nor the counts. -/
structure Dev.SameContent (d e : Dev) : Prop where
  area : e.jnl.area = d.jnl.area
  fire : e.fire = d.fire

theorem retireBlocks_content (area unit : Nat) : d.SameContent (d.retireBlocks area unit) := by
  unfold Dev.retireBlocks
  dsimp only
  split <;> exact ⟨rfl, rfl⟩

theorem Dev.SameContent.trans {a b c : Dev} (h : a.SameContent b) (k : b.SameContent c) : a.SameContent c :=
  ⟨k.area.trans h.area, k.fire.trans h.fire⟩

theorem wearUnit_content (area unit : Nat) (ok : Bool) : d.SameContent (d.wearUnit area unit ok) := by
  unfold Dev.wearUnit
  extract_lets key a c b
  have ha : d.SameContent a := by
    dsimp only [a]
    split
    · exact ⟨rfl, rfl⟩
    · exact Dev.SameContent.trans (b := d.sticky Fld.JNL_ERR.WriteFail) ⟨rfl, rfl⟩ (retireBlocks_content ..)
  have hb : d.SameContent b := ha.trans ⟨rfl, rfl⟩
  clear_value b
  have hshow (e : Dev) : e.SameContent e.showWear := ⟨rfl, rfl⟩
  split
  · exact (hb.trans (retireBlocks_content ..)).trans (hshow _)
  · exact hb.trans (hshow _)

theorem wearArea_content (area : Nat) (ok : Bool) : d.SameContent (d.wearArea area ok) :=
  Dev.SameContent.trans (b := d.setJnl (fun j => { j with nextCopy := j.nextCopy ^^^ BitVec.ofNat 8 (2 ^ area) }))
    ⟨rfl, rfl⟩ (wearUnit_content ..)

theorem countCodes_congr {e : Dev} (h : e.fire = d.fire) : e.countCodes = d.countCodes := by
  unfold Dev.countCodes Dev.firingCount
  rw [h]

/-- R460: a checkpoint by the stoker, awake, writes the firing counts and nothing else of the journal. -/
theorem checkpoint_area (h : d.stokerRuns = true) (hon : d.domOn 1 = true) :
    d.checkpoint.jnl.area = { d.jnl.area with counts := d.countCodes } := by
  obtain ⟨harea, hfire⟩ := wearArea_content (d := d) 4 true
  have he : d.checkpoint = (d.wearArea 4 true).setArea (fun a => { a with counts := (d.wearArea 4 true).countCodes }) := by
    unfold Dev.checkpoint
    rw [h, hon]
    rfl
  rw [he, countCodes_congr hfire]
  show ({ (d.wearArea 4 true).jnl.area with counts := d.countCodes } : Journal) = _
  rw [harea]

/-! ### JNL_RDDATA and JNL_CTRL -/

theorem readRow_JNL_RDDATA : ReadRow Adr.JNL_RDDATA Adr.JNL_RDDATA 0 := ⟨rfl, rfl, rfl, _, rfl, rfl⟩

/-- R462: a read of JNL_RDDATA advances JNL_RDOFF by one word. -/
theorem readAccess_JNL_RDDATA (h : d.serviceReaches Adr.JNL_RDDATA = true) :
    d.readAccess Adr.JNL_RDDATA = d.journalRead := by
  obtain ⟨r, hb, hr, he⟩ := readAccess_row readRow_JNL_RDDATA h (by cases d.part <;> rfl) (by cases d.part <;> rfl)
  rw [he, if_pos rfl, Dev.readEffect, hr]
  simp [hb, Adr.JNL_RDDATA, Adr.LT_POSLO, Adr.LT_HWMLO, Adr.LT_IDXLO, Adr.LT_BTGTLO, Adr.LT_PRBLATLO, Adr.TIME_SECLO,
    Adr.TIME_EXSEQ, Adr.TRB_NQDATA, Adr.TEL_QDATA, Adr.TRB_RECDATA, Adr.TEL_FCLO]

section
variable (h : d.job.seq = .idle)
include h

theorem clearStates_area : d.clearStates.jnl.area =
    { d.jnl.area with states := [], log := [], logHead := (d.jnl.area.logHead + d.jnl.area.log.length) % 2048 } := by
  unfold Dev.clearStates
  rw [if_pos h]
  rfl

theorem clearCounts_area : d.clearCounts.jnl.area = { d.jnl.area with counts := [] } := by
  unfold Dev.clearCounts
  rw [if_pos h]
  rfl

theorem clearCounts_fire : d.clearCounts.fire = ⟨[], []⟩ := by
  unfold Dev.clearCounts
  rw [if_pos h]

theorem clearTrouble_area : d.clearTrouble.jnl.area = { d.jnl.area with trouble := [] } := by
  unfold Dev.clearTrouble
  rw [if_pos h]
  rfl

theorem clearTrouble_rep : d.clearTrouble.rep = { d.rep with ring := [], lastSeq := 0 } := by
  unfold Dev.clearTrouble
  rw [if_pos h]

theorem clearCal_area : d.clearCal.jnl.area = { d.jnl.area with calib := [] } := by
  unfold Dev.clearCal
  rw [if_pos h]
  rfl

end

theorem journalControl_states : d.journalControl 1 = d.clearStates := rfl
theorem journalControl_counts : d.journalControl 2 = d.clearCounts := rfl
theorem journalControl_trouble : d.journalControl 4 = d.clearTrouble := rfl
theorem journalControl_cal : d.journalControl 8 = d.clearCal := rfl
theorem journalControl_checkpoint : d.journalControl 16 = d.checkpoint := rfl

end
end Sys2Proof.Machine
end

section
open Sys2Proof Sys2Proof.Machine

/-- Settles O44. That an entry's end changes nothing in a domain that enters nothing is the model's choice (log 17). -/
theorem domainsSleepAndWake : Obligations.DomainsSleepAndWake := by
  refine ⟨?request, ?transition⟩
  case request =>
    intro s path k v d
    have hwrite (c : Fin 4) (h : Reaches s path Adr.PWR_REQ (v c.val)) :
        writeAccess path [] Adr.PWR_REQ (v c.val) s.dev s.mem = ((d c.val).powerField k.val c.val, s.mem) := by
      obtain ⟨hnat, hdef, hfields⟩ := powerWord_fields k c
      have hv : (v c.val).toNat = c.val * 4 ^ k.val := hnat
      rw [write_PWR_REQ h (by rw [hv]; exact hdef), hv, powerRequest_of_one k.isLt hfields]
    have hc (c : Fin 4) {i : Instr} {e : Dev} (h : Reaches s path Adr.PWR_REQ (v c.val))
        (hi : exec i s = live s (writeAccess path [] Adr.PWR_REQ (v c.val))) (he : (d c.val).powerField k.val c.val = e) :
        Completes i s e s.mem := completes_live h.1 hi ((hwrite c h).trans (congrArg (·, s.mem) he))
    refine ⟨fun h0 => ?core, fun h0 h5 hw => ?others⟩
    case core =>
      have hcore (e : Dev) (c : Nat) : e.powerField k.val c = e := by
        rw [h0]
        exact powerField_core e c
      exact ⟨fun h => hc 1 h rfl (hcore _ _), fun h => hc 2 h rfl (hcore _ _), fun h => hc 3 h rfl (hcore _ _)⟩
    case others =>
      have hk0 : k.val ≠ 0 := fun h => h0 (Fin.ext h)
      have hk5 : k.val ≠ 5 := fun h => h5 (Fin.ext h)
      have hkw (c : Nat) : (d c).wakeable k.val = true := (wakeable_congr (met_part ..) _).trans hw
      have htw : ((d 1).powerTaken k.val).wakeable k.val = true := (wakeable_congr powerTaken_part _).trans (hkw 1)
      have htd : ((d 1).powerTaken k.val).domain k.val = (d 1).domain k.val := domain_congr powerTaken_pwr _
      refine ⟨fun h => ⟨fun hs => hc 1 h rfl ?_, fun hs => hc 1 h rfl ?_⟩,
        fun h hs => ⟨fun hr => hc 2 h rfl ?_, fun hr => hc 2 h rfl ?_⟩,
        fun h hs => ⟨fun hr => hc 3 h rfl ?_, fun hr => hc 3 h rfl ?_⟩⟩
      · exact (powerField_on hk0 (hkw 1) rfl hk5 (by rw [hs]; rfl)).trans (wake_of_on htw htd hs)
      · exact (powerField_on hk0 (hkw 1) rfl hk5 (by rw [hs]; rfl)).trans (wake_of_ember htw htd hs)
      · exact (powerField_sleep hk0 (hkw 2) rfl hk5 hs (.inl rfl)).trans (if_pos hr)
      · refine ((powerField_sleep hk0 (hkw 2) rfl hk5 hs (.inl rfl)).trans (if_neg (Bool.eq_false_iff.mp hr))).trans ?_
        rw [ite_self]
        rfl
      · exact (powerField_sleep hk0 (hkw 3) rfl hk5 hs (.inr rfl)).trans (if_pos hr)
      · refine ((powerField_sleep hk0 (hkw 3) rfl hk5 hs (.inr rfl)).trans (if_neg (Bool.eq_false_iff.mp hr))).trans ?_
        have hval : (k.val = 1 ∨ k.val = 2) ↔ (k = 1 ∨ k = 2) := by
          simp only [Fin.ext_iff]
          rfl
        congr 1
        by_cases h12 : k = 1 ∨ k = 2
        · simp only [if_pos (hval.mpr h12), if_pos h12, if_true]
        · simp only [if_neg (fun h => h12 (hval.mp h)), if_neg h12]
          rfl
  case transition =>
    intro s k hr x
    have hentry {e : Dev} (he : s.dev.domainEntryDone k.val = e) : Completes (.domainEntryDone k) s e s.mem :=
      completes_dev (f := fun x => x.domainEntryDone k.val) hr rfl he
    have hval {j : Fin 14} (h : k ≠ j) : k.val ≠ j.val := fun e => h (Fin.ext e)
    have hexit {e : Dev} {y : Dev × Mem} (h : k ≠ 5) (hy : takeUpAll (e, s.mem) = y)
        (he : s.dev.domainExitDone k.val = e) : Completes (.domainExitDone k) s y.1 y.2 :=
      completes_live (f := exitDone k.val) hr rfl ((exitDone_eq (hval h) he).trans hy)
    refine ⟨fun h1 h2 => hentry (domainEntryDone_of_other rfl h1 h2),
      fun h4 h5 hs hw hp => hentry (domainEntryDone_of_ember k.isLt (hval h4) (hval h5) rfl hs hw hp),
      fun h5 hs hp => ?_, fun h5 hlose hs hp => ?_⟩
    · intro y
      have hy : takeUpAll (s.dev.setDomain k.val { x with state := .on }, s.mem) = y := rfl
      clear_value y
      exact hexit h5 hy (domainExitDone_of_ember k.isLt (hval h5) rfl hs hp)
    · intro y
      have hy : takeUpAll (((s.dev.setDomain k.val { x with state := .on }).sticky Fld.PWR_ERR.DomainLost).notice
        Nt.DomainLost [(1, k.val)], s.mem) = y := rfl
      clear_value y
      exact hexit h5 hy (domainExitDone_of_cold k.isLt (hval h5) hlose rfl hs hp)

/-- Settles O45. That a write with an empty queue changes nothing (log 17) and the wake source of STOKER (log 91) are the
model's choices. -/
theorem journalWritesAndClears : Obligations.JournalWritesAndClears := by
  refine ⟨fun s ok hr => ?write, fun s path => ?control⟩
  case write =>
    have hc {e : Dev} (he : s.dev.journalWrite ok = e) : Completes (.journalWrite ok) s e s.mem :=
      completes_dev (f := fun d => d.journalWrite ok) hr rfl he
    refine ⟨fun h => hc (journalWrite_of_empty h), fun h => hc (journalWrite_of_stopped h),
      fun c rest hq h => ⟨fun hon => hc ((journalWrite_of_some hq h).trans (if_neg (Bool.eq_false_iff.mp hon))),
        fun hon => hc ((journalWrite_of_some hq h).trans (if_pos hon))⟩,
      fun h hon => ⟨_, completes_dev (f := Dev.checkpoint) hr rfl rfl, ?_, ?_, ?_⟩,
      fun h => completes_dev (f := fun d => d.readAccess Adr.JNL_RDDATA) hr rfl (readAccess_JNL_RDDATA h)⟩
    all_goals rw [checkpoint_area h hon]
  case control =>
    intro d
    have hseq (v : Word) : (d v).job.seq = s.dev.job.seq := congrArg (·.seq) (met_job ..)
    have hjnl (v : Word) : (d v).jnl = s.dev.jnl := met_jnl ..
    have hc {v : Word} {i : Instr} {e : Dev} (h : Reaches s path Adr.JNL_CTRL v)
        (hv : BitVec.ofNat 32 (v.toNat &&& 31) = v) (hi : exec i s = live s (writeAccess path [] Adr.JNL_CTRL v))
        (he : (d v).journalControl v.toNat = e) : Completes i s e s.mem :=
      completes_live h.1 hi ((write_JNL_CTRL h hv).trans (congrArg (·, s.mem) he))
    refine ⟨fun hs => ?busy, fun hs => ?idle, fun h hst hon => ?checkpoint⟩
    case busy =>
      have hbusy (v : Word) : ¬ ((d v).job.seq = .idle) := by
        rw [hseq]
        exact hs
      exact ⟨fun h => hc h rfl rfl (if_neg (hbusy 1)), fun h => hc h rfl rfl (if_neg (hbusy 2)),
        fun h => hc h rfl rfl (if_neg (hbusy 4)), fun h => hc h rfl rfl (if_neg (hbusy 8))⟩
    case idle =>
      have hidle (v : Word) : (d v).job.seq = .idle := (hseq v).trans hs
      refine ⟨fun h => ⟨_, hc h rfl rfl journalControl_states, ?_⟩, fun h => ⟨_, hc h rfl rfl journalControl_counts, ?_⟩,
        fun h => ⟨_, hc h rfl rfl journalControl_trouble, ?_⟩, fun h => ⟨_, hc h rfl rfl journalControl_cal, ?_⟩⟩
      · rw [clearStates_area (hidle 1#32), hjnl]
        exact ⟨rfl, rfl, rfl⟩
      · rw [clearCounts_area (hidle 2#32), hjnl]
        refine ⟨rfl, fun z => ?_, rfl⟩
        unfold Dev.firingCount
        rw [clearCounts_fire (hidle 2#32)]
        rfl
      · rw [clearTrouble_area (hidle 4#32), clearTrouble_rep (hidle 4#32), met_rep]
        exact ⟨rfl, rfl, rfl⟩
      · rw [clearCal_area (hidle 8#32), hjnl]
        exact ⟨rfl, rfl⟩
    case checkpoint =>
      have hst' : (d 16).stokerRuns = true := by
        unfold Dev.stokerRuns
        rw [met_boot]
        exact hst
      refine ⟨_, hc h rfl rfl rfl, ?_⟩
      show (d 16).checkpoint.jnl.area.counts = _
      rw [checkpoint_area hst' hon]
      exact countCodes_congr (met_fire ..)

end

section
/-!
SUPPORT. The time counter and the timed outputs (R367 to R374).
-/
namespace Sys2Proof.Machine

/-! ### The tick (R367 to R369) -/

section
variable {d e : Dev}

/-- A step of the counter touches an output's next edge and its Late flag only. -/
structure Dev.SameCounter (d e : Dev) : Prop where
  now : e.now = d.now
  incr : e.time.incr = d.time.incr
  incrNext : e.time.incrNext = d.time.incrNext
  steps : e.time.steps = d.time.steps
  count : e.rd Fld.TIME_STEPCNT.Count = d.rd Fld.TIME_STEPCNT.Count

theorem Dev.SameCounter.trans {c : Dev} (h : c.SameCounter d) (k : d.SameCounter e) : c.SameCounter e :=
  ⟨k.now.trans h.now, k.incr.trans h.incr, k.incrNext.trans h.incrNext, k.steps.trans h.steps, k.count.trans h.count⟩

theorem late_apart_stepcnt : ∀ k : Fin 8, (Fld.TIME_TOCTRL.Late k.val).apart Fld.TIME_STEPCNT.Count = true := by decide

theorem late_sameCounter (k : Fin 8) : d.SameCounter (d.sticky (Fld.TIME_TOCTRL.Late k.val)) :=
  ⟨rfl, rfl, rfl, rfl, rd_sticky_ne _ _ _ rfl (late_apart_stepcnt k)⟩

theorem toutStepped_sameCounter (plain new : Int) (k : Fin 8) : d.SameCounter (d.toutStepped plain new k) := by
  have hself : d.SameCounter d := ⟨rfl, rfl, rfl, rfl, rfl⟩
  unfold Dev.toutStepped
  dsimp only
  split
  · exact hself
  · split
    · exact late_sameCounter k
    · split
      · split
        · exact ⟨rfl, rfl, rfl, rfl, rfl⟩
        · exact hself
      · exact hself

theorem toutsStepped_sameCounter (plain new : Int) (l : List (Fin 8)) :
    d.SameCounter (l.foldl (fun e k => e.toutStepped plain new k) d) :=
  foldl_keeps d.SameCounter (fun e k => e.toutStepped plain new k)
    (fun _ k h => h.trans (toutStepped_sameCounter plain new k)) l d ⟨rfl, rfl, rfl, rfl, rfl⟩

theorem timeTick_of_off (h : d.domOn 2 = false) : d.timeTick = d := if_neg (Bool.eq_false_iff.mp h)

/-- R367, R368: a tick with no step waiting. -/
theorem timeTick_of_plain (h : d.domOn 2 = true) (hs : d.time.steps = []) :
    d.timeTick = { d with
      now := stampOf (TimeStamp.fine d.now + (d.time.incrNext.getD d.time.incr : Nat) + 0)
      time := { d.time with incr := d.time.incrNext.getD d.time.incr, incrNext := none, steps := [] } } := by
  unfold Dev.timeTick
  simp only [h, hs, if_true, List.foldl_nil]

/-- R369: a tick adds every step waiting, and counts them. -/
theorem timeTick_of_steps (h : d.domOn 2 = true) (hs : d.time.steps ≠ []) :
    d.timeTick.now = stampOf (TimeStamp.fine d.now + (d.time.incrNext.getD d.time.incr : Nat) +
      d.time.steps.foldl (· + ·) 0) ∧ d.timeTick.time.incr = d.time.incrNext.getD d.time.incr ∧
    d.timeTick.time.incrNext = none ∧ d.timeTick.time.steps = [] ∧
    d.timeTick.rd Fld.TIME_STEPCNT.Count = (d.rd Fld.TIME_STEPCNT.Count + d.time.steps.length) % 2 ^ 32 := by
  generalize hb : Dev.wr { d with
    now := stampOf (TimeStamp.fine d.now + (d.time.incrNext.getD d.time.incr : Nat) + d.time.steps.foldl (· + ·) 0)
    time := { d.time with incr := d.time.incrNext.getD d.time.incr, incrNext := none, steps := [] } }
    Fld.TIME_STEPCNT.Count (d.rd Fld.TIME_STEPCNT.Count + d.time.steps.length) = b
  have htick : ∃ p n : Int, d.timeTick = ([0, 1, 2, 3, 4, 5, 6, 7] : List (Fin 8)).foldl (fun e k => e.toutStepped p n k) b := by
    unfold Dev.timeTick
    rw [if_pos h, if_neg hs, ← hb]
    exact ⟨_, _, rfl⟩
  obtain ⟨p, n, htick⟩ := htick
  obtain ⟨hnow, hincr, hnext, hsteps, hcount⟩ := toutsStepped_sameCounter (d := b) p n [0, 1, 2, 3, 4, 5, 6, 7]
  rw [← htick] at hnow hincr hnext hsteps hcount
  rw [hnow, hincr, hnext, hsteps, hcount, ← hb]
  exact ⟨rfl, rfl, rfl, rfl, rd_wr_same _ _ _ rfl⟩

end

/-! ### The captures (R370, R371) -/

section
variable {d : Dev}

theorem readRow_TIME_SECLO : ReadRow Adr.TIME_SECLO Adr.TIME_SECLO 0 := ⟨rfl, rfl, rfl, _, rfl, rfl⟩
theorem readRow_TIME_EXSEQ : ReadRow Adr.TIME_EXSEQ Adr.TIME_EXSEQ 0 := ⟨rfl, rfl, rfl, _, rfl, rfl⟩

theorem readAccess_TIME_SECLO (h : d.serviceReaches Adr.TIME_SECLO = true) :
    d.readAccess Adr.TIME_SECLO = d.captureTime := by
  obtain ⟨r, hb, hr, he⟩ := readAccess_row readRow_TIME_SECLO h (by cases d.part <;> rfl) (by cases d.part <;> rfl)
  rw [he, if_neg (by decide), Dev.readEffect, hr]
  simp [hb, Adr.TIME_SECLO, Adr.LT_POSLO, Adr.LT_HWMLO, Adr.LT_IDXLO, Adr.LT_BTGTLO, Adr.LT_PRBLATLO]

theorem readAccess_TIME_EXSEQ (h : d.serviceReaches Adr.TIME_EXSEQ = true) :
    d.readAccess Adr.TIME_EXSEQ = d.captureExchange := by
  obtain ⟨r, hb, hr, he⟩ := readAccess_row readRow_TIME_EXSEQ h (by cases d.part <;> rfl) (by cases d.part <;> rfl)
  rw [he, if_neg (by decide), Dev.readEffect, hr]
  simp [hb, Adr.TIME_EXSEQ, Adr.TIME_SECLO, Adr.LT_POSLO, Adr.LT_HWMLO, Adr.LT_IDXLO, Adr.LT_BTGTLO, Adr.LT_PRBLATLO]

/-- R370: what the capture of the counter shows. -/
theorem captureTime_shows : d.captureTime.rd Fld.TIME_SECLO.SecLo = d.now.sec % 2 ^ 32 ∧
    d.captureTime.rd Fld.TIME_SECHI.SecHi = d.now.sec / 2 ^ 32 % 2 ^ 16 ∧
    d.captureTime.rd Fld.TIME_NS.Ns = d.now.ns % 2 ^ 30 ∧ d.captureTime.rd Fld.TIME_FRAC.Frac = d.now.frac % 2 ^ 32 := by
  unfold Dev.captureTime
  refine ⟨?_, ?_, ?_, rd_wr_same _ _ _ rfl⟩
  · rw [rd_wr_ne _ _ _ _ rfl rfl, rd_wr_ne _ _ _ _ rfl rfl, rd_wr_ne _ _ _ _ rfl rfl, rd_wr_same _ _ _ rfl]
    rfl
  · rw [rd_wr_ne _ _ _ _ rfl rfl, rd_wr_ne _ _ _ _ rfl rfl, rd_wr_same _ _ _ rfl]
    rfl
  · rw [rd_wr_ne _ _ _ _ rfl rfl, rd_wr_same _ _ _ rfl]
    rfl

theorem captureTime_only : OnlyFields [Fld.TIME_SECLO.SecLo, Fld.TIME_SECHI.SecHi, Fld.TIME_NS.Ns, Fld.TIME_FRAC.Frac] d
    d.captureTime := by
  unfold Dev.captureTime
  exact onlyFields_cons _ _ (by simp) rfl (onlyFields_cons _ _ (by simp) rfl (onlyFields_cons _ _ (by simp) rfl
    (onlyFields_cons _ _ (by simp) rfl (OnlyFields.refl _ _))))

/-- R371: stamp `k` of the last exchange shown. -/
def Dev.showStamp (d : Dev) (stamps : List Int) (k : Nat) : Dev :=
  ((d.wr (Fld.TIME_EXS.Sec k) ((stamps.getD k 0).toNat / 65536 / 1000000000)).wr (Fld.TIME_EXN.Ns k)
    ((stamps.getD k 0).toNat / 65536 % 1000000000)).wr (Fld.TIME_EXF.Frac k) ((stamps.getD k 0).toNat % 65536)

theorem captureExchange_eq : d.captureExchange =
    (List.range 4).foldl (fun e k => e.showStamp d.time.ptp.stamps k) (d.wr Fld.TIME_EXSEQ.Seq d.time.ptp.seq) := rfl

theorem apart_of_addr {f g : FieldRef} (h : f.addr ≠ g.addr) : f.apart g = true := decide_eq_true (.inl h)

/-- The stamp registers of an exchange are apart from one another and from the sequence number. -/
theorem stampFields_apart (j k : Nat) :
    (Fld.TIME_EXS.Sec j).apart (Fld.TIME_EXN.Ns k) = true ∧ (Fld.TIME_EXS.Sec j).apart (Fld.TIME_EXF.Frac k) = true ∧
    (Fld.TIME_EXN.Ns j).apart (Fld.TIME_EXS.Sec k) = true ∧ (Fld.TIME_EXN.Ns j).apart (Fld.TIME_EXF.Frac k) = true ∧
    (Fld.TIME_EXF.Frac j).apart (Fld.TIME_EXS.Sec k) = true ∧ (Fld.TIME_EXF.Frac j).apart (Fld.TIME_EXN.Ns k) = true := by
  refine ⟨apart_of_addr ?_, apart_of_addr ?_, apart_of_addr ?_, apart_of_addr ?_, apart_of_addr ?_, apart_of_addr ?_⟩
  all_goals
    simp only [Fld.TIME_EXS.Sec, Fld.TIME_EXN.Ns, Fld.TIME_EXF.Frac]
    omega

theorem stampFields_apart_same {j k : Nat} (h : j ≠ k) :
    (Fld.TIME_EXS.Sec j).apart (Fld.TIME_EXS.Sec k) = true ∧ (Fld.TIME_EXN.Ns j).apart (Fld.TIME_EXN.Ns k) = true ∧
    (Fld.TIME_EXF.Frac j).apart (Fld.TIME_EXF.Frac k) = true := by
  refine ⟨apart_of_addr ?_, apart_of_addr ?_, apart_of_addr ?_⟩
  all_goals
    simp only [Fld.TIME_EXS.Sec, Fld.TIME_EXN.Ns, Fld.TIME_EXF.Frac]
    omega

theorem stampFields_apart_seq (j : Nat) :
    (Fld.TIME_EXS.Sec j).apart Fld.TIME_EXSEQ.Seq = true ∧ (Fld.TIME_EXN.Ns j).apart Fld.TIME_EXSEQ.Seq = true ∧
    (Fld.TIME_EXF.Frac j).apart Fld.TIME_EXSEQ.Seq = true := by
  refine ⟨apart_of_addr ?_, apart_of_addr ?_, apart_of_addr ?_⟩
  all_goals
    simp only [Fld.TIME_EXS.Sec, Fld.TIME_EXN.Ns, Fld.TIME_EXF.Frac, Fld.TIME_EXSEQ.Seq]
    omega

/-- A stamp shown leaves a field that is apart from its three. -/
theorem rd_showStamp_of_apart {l : List Int} {k : Nat} {f : FieldRef} (h : (Fld.TIME_EXS.Sec k).apart f = true ∧
    (Fld.TIME_EXN.Ns k).apart f = true ∧ (Fld.TIME_EXF.Frac k).apart f = true) : (d.showStamp l k).rd f = d.rd f := by
  obtain ⟨h1, h2, h3⟩ := h
  unfold Dev.showStamp
  rw [rd_wr_ne _ _ _ _ rfl h3, rd_wr_ne _ _ _ _ rfl h2, rd_wr_ne _ _ _ _ rfl h1]

theorem rd_showStamp_same (l : List Int) (k : Nat) :
    (d.showStamp l k).rd (Fld.TIME_EXS.Sec k) = (l.getD k 0).toNat / 65536 / 1000000000 % 2 ^ 32 ∧
    (d.showStamp l k).rd (Fld.TIME_EXN.Ns k) = (l.getD k 0).toNat / 65536 % 1000000000 ∧
    (d.showStamp l k).rd (Fld.TIME_EXF.Frac k) = (l.getD k 0).toNat % 65536 := by
  obtain ⟨-, -, h1, -, h2, h3⟩ := stampFields_apart k k
  have hns := Nat.mod_lt ((l.getD k 0).toNat / 65536) (by decide : 0 < 1000000000)
  unfold Dev.showStamp
  refine ⟨?_, ?_, ?_⟩
  · rw [rd_wr_ne _ _ _ _ rfl h2, rd_wr_ne _ _ _ _ rfl h1, rd_wr_same _ _ _ rfl]
    rfl
  · rw [rd_wr_ne _ _ _ _ rfl h3, rd_wr_same _ _ _ rfl]
    exact Nat.mod_eq_of_lt (lt_trans hns (show 1000000000 < 2 ^ 30 by decide))
  · rw [rd_wr_same _ _ _ rfl]
    exact Nat.mod_mod ..

/-- What member `k` of a fold sets, and the others leave, stands after it. -/
theorem foldl_sets {α β γ : Type} [DecidableEq β] {f : α → β → α} {g : α → γ} {v : γ} {k : β} (hset : ∀ a, g (f a k) = v)
    (hkeep : ∀ a b, b ≠ k → g (f a b) = g a) : ∀ {l : List β} {a : α}, k ∈ l ∨ g a = v → g (l.foldl f a) = v
  | [], _, h => h.resolve_left (by simp)
  | b :: l, a, h => by
    refine foldl_sets (l := l) (a := f a b) hset hkeep ?_
    by_cases hb : b = k
    · rw [hb]
      exact .inr (hset a)
    · rcases h with h | h
      · exact .inl ((List.mem_cons.mp h).resolve_left (fun e => hb e.symm))
      · exact .inr ((hkeep a b hb).trans h)

/-- R371: what the capture of the last exchange shows. -/
theorem captureExchange_seq : d.captureExchange.rd Fld.TIME_EXSEQ.Seq = d.time.ptp.seq % 2 ^ 32 :=
  foldl_keeps (fun e : Dev => e.rd Fld.TIME_EXSEQ.Seq = d.time.ptp.seq % 2 ^ 32) _
    (fun _ k h => (rd_showStamp_of_apart (stampFields_apart_seq k)).trans h) _ _ (rd_wr_same _ _ _ rfl)

theorem captureExchange_stamp (k : Fin 4) :
    d.captureExchange.rd (Fld.TIME_EXS.Sec k.val) =
      (d.time.ptp.stamps.getD k.val 0).toNat / 65536 / 1000000000 % 2 ^ 32 ∧
    d.captureExchange.rd (Fld.TIME_EXN.Ns k.val) = (d.time.ptp.stamps.getD k.val 0).toNat / 65536 % 1000000000 ∧
    d.captureExchange.rd (Fld.TIME_EXF.Frac k.val) = (d.time.ptp.stamps.getD k.val 0).toNat % 65536 := by
  have hk : k.val ∈ List.range 4 := List.mem_range.mpr k.isLt
  rw [captureExchange_eq]
  generalize d.wr Fld.TIME_EXSEQ.Seq d.time.ptp.seq = b
  generalize d.time.ptp.stamps = l
  refine ⟨foldl_sets (f := fun (e : Dev) k => e.showStamp l k) (g := fun e : Dev => e.rd (Fld.TIME_EXS.Sec k.val)) (k := k.val)
      (fun _ => (rd_showStamp_same _ _).1) (fun _ j hj => rd_showStamp_of_apart ?_) (.inl hk),
    foldl_sets (f := fun (e : Dev) k => e.showStamp l k) (g := fun e : Dev => e.rd (Fld.TIME_EXN.Ns k.val)) (k := k.val)
      (fun _ => (rd_showStamp_same _ _).2.1) (fun _ j hj => rd_showStamp_of_apart ?_) (.inl hk),
    foldl_sets (f := fun (e : Dev) k => e.showStamp l k) (g := fun e : Dev => e.rd (Fld.TIME_EXF.Frac k.val)) (k := k.val)
      (fun _ => (rd_showStamp_same _ _).2.2) (fun _ j hj => rd_showStamp_of_apart ?_) (.inl hk)⟩
  all_goals
    obtain ⟨h1, h2, h3, h4, h5, h6⟩ := stampFields_apart j k.val
    obtain ⟨g1, g2, g3⟩ := stampFields_apart_same hj
  · exact ⟨g1, h3, h5⟩
  · exact ⟨h1, g2, h6⟩
  · exact ⟨h2, h4, g3⟩

theorem wr_win (f : FieldRef) (v : Nat) : d.wr f v = { d with win := (d.wr f v).win } := rfl

theorem showStamp_win (l : List Int) (k : Nat) : d.showStamp l k = { d with win := (d.showStamp l k).win } :=
  win_trans (win_trans (wr_win _ _) (wr_win _ _)) (wr_win _ _)

theorem captureExchange_win : d.captureExchange = { d with win := d.captureExchange.win } := by
  rw [captureExchange_eq]
  exact foldl_keeps (fun e : Dev => e = { d with win := e.win }) (fun e k => e.showStamp d.time.ptp.stamps k)
    (fun _ _ h => win_trans h (showStamp_win _ _)) (List.range 4) _ (wr_win _ _)

theorem captureTime_win : d.captureTime = { d with win := d.captureTime.win } :=
  win_trans (win_trans (win_trans (wr_win _ _) (wr_win _ _)) (wr_win _ _)) (wr_win _ _)

end

/-! ### The increment and the step (R368, R369) -/

section
variable {s : State} {path : Path} {d e : Dev} {w : Nat}

theorem incrWord_fields (whole : Fin 8) : BitVec.ofNat 32 ((BitVec.ofNat 32 whole.val).toNat &&& definedBits Adr.TIME_INCRHI) =
    BitVec.ofNat 32 whole.val ∧ bitsOf (BitVec.ofNat 32 whole.val).toNat 2 0 = whole.val := by
  revert whole
  decide

/-- R368: a write of TIME_INCRHI stores it and loads the increment. -/
theorem write_TIME_INCRHI (whole : Fin 8) (h : Reaches s path Adr.TIME_INCRHI (BitVec.ofNat 32 whole.val)) :
    let d := s.dev.met path Adr.TIME_INCRHI (BitVec.ofNat 32 whole.val)
    let e := d.keepReg Adr.TIME_INCRHI (setBits (d.reg Adr.TIME_INCRHI) 2 0 whole.val)
    writeAccess path [] Adr.TIME_INCRHI (BitVec.ofNat 32 whole.val) s.dev s.mem =
      (e.loadIncr (e.rd Fld.TIME_INCRHI.Whole), s.mem) := by
  intro d e
  obtain ⟨hv, hbits⟩ := incrWord_fields whole
  rw [writeAccess_row h rfl (by cases s.dev.part <;> rfl) (by cases s.dev.part <;> rfl) hv rfl rfl rfl,
    writeReg_stores rfl (barPending_none _ rfl)]
  rw [storedWord_single (f := ⟨2, 0, .rw, 4, none⟩) rfl rfl rfl rfl, hbits]
  rfl

theorem keepReg_setBits_reg (d : Dev) (f : FieldRef) (v b : Nat) :
    (d.keepReg f.addr (setBits (d.reg f.addr) f.hi f.lo v)).reg b = (d.wr f v).reg b := by
  by_cases hb : b = f.addr
  · subst hb
    rw [keepReg_reg_same, reg_wr_same]
  · rw [keepReg_reg_ne _ _ hb, reg_wr_ne _ _ hb]

/-- R368: the increment that a stored TIME_INCRHI loads. -/
theorem loadIncr_of_stored {whole : Nat} (hreg : ∀ b, e.reg b = (d.wr Fld.TIME_INCRHI.Whole whole).reg b)
    (hwin : e = { d with win := e.win }) (hw : whole < 8) (hi : whole * 2 ^ 32 + d.rd Fld.TIME_INCRLO.Frac = w) :
    let x := e.loadIncr (e.rd Fld.TIME_INCRHI.Whole)
    x = { d with win := x.win, time := { d.time with incrNext := some (clampIncr w) } } ∧
    x.rd Fld.TIME_INCRHI.Whole = whole ∧ (clampIncr w ≠ w → x.rd Fld.TIME_ERR.IncrClamp = 1) ∧
    OnlyFields [Fld.TIME_INCRHI.Whole, Fld.TIME_ERR.IncrClamp] d x := by
  have hwhole : e.rd Fld.TIME_INCRHI.Whole = whole := by
    unfold Dev.rd
    rw [hreg]
    exact (rd_wr_same d Fld.TIME_INCRHI.Whole whole rfl).trans (Nat.mod_eq_of_lt hw)
  have hfrac : e.rd Fld.TIME_INCRLO.Frac = d.rd Fld.TIME_INCRLO.Frac := by
    unfold Dev.rd
    rw [hreg]
    exact rd_wr_ne d Fld.TIME_INCRHI.Whole Fld.TIME_INCRLO.Frac whole rfl rfl
  have honly : OnlyFields [Fld.TIME_INCRHI.Whole, Fld.TIME_ERR.IncrClamp] d e := fun a i hn => by
    rw [hreg]
    exact onlyFields_cons _ whole (by simp) rfl (OnlyFields.refl _ d) a i hn
  rw [hwhole]
  generalize hb : e.wr Fld.TIME_INCRHI.Whole whole = b
  have hbw : b.rd Fld.TIME_INCRHI.Whole = whole := by
    rw [← hb, rd_wr_same _ _ _ rfl]
    exact Nat.mod_eq_of_lt hw
  have hbi : b.rd Fld.TIME_INCRHI.Whole * 2 ^ 32 + b.rd Fld.TIME_INCRLO.Frac = w := by
    rw [hbw, ← hb, rd_wr_ne _ _ _ _ rfl rfl, hfrac, hi]
  have hbwin : b = { d with win := b.win } := hb ▸ win_trans hwin (wr_win _ _)
  have hbo : OnlyFields [Fld.TIME_INCRHI.Whole, Fld.TIME_ERR.IncrClamp] d b := hb ▸ onlyFields_cons _ _ (by simp) rfl honly
  have hclamp : ∃ c : Dev, (if clampIncr w = w then b else b.sticky Fld.TIME_ERR.IncrClamp) = c ∧
      c = { d with win := c.win } ∧ c.rd Fld.TIME_INCRHI.Whole = whole ∧
      (clampIncr w ≠ w → c.rd Fld.TIME_ERR.IncrClamp = 1) ∧
      OnlyFields [Fld.TIME_INCRHI.Whole, Fld.TIME_ERR.IncrClamp] d c := by
    by_cases hc : clampIncr w = w
    · exact ⟨b, if_pos hc, hbwin, hbw, fun h => absurd hc h, hbo⟩
    · exact ⟨b.sticky Fld.TIME_ERR.IncrClamp, if_neg hc, win_trans hbwin (wr_win _ 1), (rd_sticky_ne _ _ _ rfl rfl).trans hbw,
        fun _ => rd_sticky_same b _ rfl, onlyFields_cons _ 1 (by simp) rfl hbo⟩
  obtain ⟨c, hif, hcwin, hcw, hcc, hco⟩ := hclamp
  have hload : e.loadIncr whole = { c with time := { c.time with incrNext := some (clampIncr w) } } := by
    unfold Dev.loadIncr
    dsimp only
    rw [hb, hbi, hif]
  intro x
  have hx : x = e.loadIncr whole := rfl
  clear_value x
  rw [hload] at hx
  subst hx
  refine ⟨?_, hcw, hcc, hco.trans (OnlyFields.of_win rfl rfl)⟩
  rw [hcwin]

end
end Sys2Proof.Machine
end

section
open Sys2Proof Sys2Proof.Machine

/-- Settles O49. -/
theorem timeCounterTicksAndSteps : Obligations.TimeCounterTicksAndSteps := by
  refine ⟨fun s hr => ⟨fun h => ?off, fun h => ?on, fun hup => ⟨?secs, ?exchange⟩⟩,
    fun s path => ⟨fun whole h => ?incr, fun v h => ?step⟩⟩
  case off => exact completes_dev (f := Dev.timeTick) hr rfl (timeTick_of_off h)
  case on =>
    intro incr steps
    refine ⟨_, completes_dev (f := Dev.timeTick) hr rfl rfl, ?_⟩
    by_cases hs : s.dev.time.steps = []
    · rw [timeTick_of_plain h hs]
      simp [steps, incr, hs]
    · obtain ⟨hnow, hincr, hnext, hsteps, hcount⟩ := timeTick_of_steps h hs
      exact ⟨hnow, hincr, hnext, hsteps, fun h => absurd h hs, fun _ => hcount⟩
  case secs =>
    obtain ⟨h1, h2, h3, h4⟩ := captureTime_shows (d := s.dev)
    exact ⟨_, completes_dev (f := fun d => d.readAccess Adr.TIME_SECLO) hr rfl
      (readAccess_TIME_SECLO (serviceReaches_of_stokerUp hup _)), h1, h2, h3, h4, captureTime_win, captureTime_only⟩
  case exchange =>
    exact ⟨_, completes_dev (f := fun d => d.readAccess Adr.TIME_EXSEQ) hr rfl
      (readAccess_TIME_EXSEQ (serviceReaches_of_stokerUp hup _)), captureExchange_win, captureExchange_seq,
      captureExchange_stamp⟩
  case incr =>
    intro d i
    have hreg (b : Nat) : (d.keepReg Adr.TIME_INCRHI (setBits (d.reg Adr.TIME_INCRHI) 2 0 whole.val)).reg b =
        (d.wr Fld.TIME_INCRHI.Whole whole.val).reg b := keepReg_setBits_reg d Fld.TIME_INCRHI.Whole whole.val b
    obtain ⟨h1, h2, h3, h4⟩ := loadIncr_of_stored hreg (keepReg_win ..) whole.isLt rfl
    exact ⟨_, completes_live h.1 rfl (write_TIME_INCRHI whole h), h1, h2, h3, h4⟩
  case step => exact completes_live h.1 rfl (write_TIME_STEPSEC h)

end

section
/-!
SUPPORT. The timed outputs (R373, R374).
-/
namespace Sys2Proof.Machine

section
variable {d : Dev} {k : Fin 8} {s : State} {path : Path} {bits : Nat}

theorem bitRow_TIME_TOCTRL (k : Fin 8) (c : Nat) (hc : c < 4) : BitRow (Adr.TIME_TOCTRL k.val) (Adr.TIME_TOCTRL 0) k.val c := by
  have hk : Adr.TIME_TOCTRL k.val % 4 = 0 ∧ setOf (Adr.TIME_TOCTRL k.val) = .none := by
    clear hc c
    revert k
    decide
  refine ⟨hk.1, hk.2, by decide, ?_⟩
  fin_cases k <;> exact ⟨_, _, rfl, rfl, by interval_cases c <;> decide⟩

theorem TIME_TOCTRL_apart : ∀ k : Fin 8, Adr.TIME_TOCTRL k.val ≠ Adr.PWR_LASTWAKE ∧
    Adr.TIME_TOCTRL k.val ≠ Adr.PWR_WAKECNT := by
  decide

theorem block_TIME_TOCTRL : ∀ k : Fin 8, Adr.TIME_TOCTRL k.val / 0x10000 = 6 := by decide

theorem holds_TIME_TOCTRL (k : Fin 8) (p : Part) : holdsRegister p (Adr.TIME_TOCTRL k.val) = true := by
  cases p <;> revert k <;> decide

theorem silent_TIME_TOCTRL (k : Fin 8) (p : Part) : silentRegister p (Adr.TIME_TOCTRL k.val) = false := by
  cases p <;> revert k <;> decide

/-- R373: what a write of TIME_TOCTRL with Arm or Disarm set does. -/
theorem writeBits_TIME_TOCTRL {c : Nat} (hc : c < 4)
    (h : Reaches s path (Adr.TIME_TOCTRL k.val) (s.dev.reg (Adr.TIME_TOCTRL k.val) ||| BitVec.ofNat 32 c))
    (hv : BitVec.ofNat 32 ((s.dev.reg (Adr.TIME_TOCTRL k.val) ||| BitVec.ofNat 32 c).toNat &&&
      definedBits (Adr.TIME_TOCTRL k.val)) = s.dev.reg (Adr.TIME_TOCTRL k.val) ||| BitVec.ofNat 32 c) :
    writeBits path (Adr.TIME_TOCTRL k.val) c s.dev s.mem =
      (let v := s.dev.reg (Adr.TIME_TOCTRL k.val) ||| BitVec.ofNat 32 c
       let d := s.dev.met path (Adr.TIME_TOCTRL k.val) v
       let d := if v.toNat.testBit 0 then d.toutArm k else d
       if v.toNat.testBit 1 then d.toutDisarm k else d, s.mem) := by
  obtain ⟨r, hb, e⟩ := bits_act h (bitRow_TIME_TOCTRL k c hc) (TIME_TOCTRL_apart k) (holds_TIME_TOCTRL k _)
    (silent_TIME_TOCTRL k _) hv (fun e => absurd e (by decide)) (by decide)
  rw [e, actOn, block_TIME_TOCTRL k]
  simp [Dev.actLink, hb, Adr.TIME_TOCTRL, Adr.NET_PCTRL, Adr.LANE_CTRL, Adr.TIME_INCRHI, Adr.TIME_STEPSEC,
    Adr.TIME_PTPCTRL]

end

section
variable {d : Dev} {k : Fin 8} {x : Tout} {t now : Int} {p w : Nat}

/-- The start that the registers of an output give, in ns. -/
def Dev.toutStart (d : Dev) (k : Fin 8) : Int :=
  ((d.rd (Fld.TIME_TOSECHI.SecHi k.val) * 2 ^ 32 + d.rd (Fld.TIME_TOSECLO.SecLo k.val)) * 1000000000 +
    d.rd (Fld.TIME_TONS.Ns k.val) : Nat)

theorem toutArm_of_periodic (h : d.rd (Fld.TIME_TOCTRL.Periodic k.val) = 1) (ht : d.toutStart k = t)
    (hp : d.rd (Fld.TIME_TOPER.Period k.val) = p) (hw : d.rd (Fld.TIME_TOWID.Width k.val) = w) (hx : d.tout k = x) :
    d.toutArm k = d.setTout k { x with
      start := t, last := none, next := some (firstEdge t p (TimeStamp.total d.now)), period := some p
      width := if p ≤ w then p - 20 else w } := by
  subst ht hp hw hx
  exact if_pos h

/-- R373: a one-shot whose start is to come. -/
theorem toutArm_of_later (h : d.rd (Fld.TIME_TOCTRL.Periodic k.val) = 0) (ht : d.toutStart k = t)
    (hw : d.rd (Fld.TIME_TOWID.Width k.val) = w) (hx : d.tout k = x) (hn : TimeStamp.total d.now < t) :
    d.toutArm k = d.setTout k { x with start := t, last := none, next := some t, period := none, width := w } := by
  have h1 : ¬ (d.rd (Fld.TIME_TOCTRL.Periodic k.val) = 1) := by rw [h]; decide
  subst ht hw hx
  exact (if_neg h1).trans (if_neg (not_le.mpr hn))

/-- R373: a one-shot whose start has passed. -/
theorem toutArm_of_late (h : d.rd (Fld.TIME_TOCTRL.Periodic k.val) = 0) (ht : d.toutStart k = t)
    (hw : d.rd (Fld.TIME_TOWID.Width k.val) = w) (hx : d.tout k = x) (hn : t ≤ TimeStamp.total d.now) :
    d.toutArm k = (d.setTout k { x with start := t, last := none, next := some 0, period := none, width := w }).sticky
      (Fld.TIME_TOCTRL.Late k.val) := by
  have h1 : ¬ (d.rd (Fld.TIME_TOCTRL.Periodic k.val) = 1) := by rw [h]; decide
  subst ht hw hx
  exact (if_neg h1).trans (if_pos hn)

theorem toutEdge_of_idle (ha : (d.tout k).active = none) (hn : (d.tout k).next = none) : d.toutEdge k = d := by
  unfold Dev.toutEdge
  simp only [ha, hn]

/-- R373: the end of a pulse. -/
theorem toutEdge_of_active {e : Int} (ha : (d.tout k).active = some e) :
    d.toutEdge k = if e ≤ TimeStamp.total d.now then
      (d.setTout k { d.tout k with active := none }).emit (.toutEdge k.val (d.toutLevel k.val false)) else d := by
  unfold Dev.toutEdge
  simp only [ha]

/-- R373: the start of a pulse. -/
theorem toutEdge_of_next (ha : (d.tout k).active = none) (hn : (d.tout k).next = some t) :
    d.toutEdge k = if t ≤ TimeStamp.total d.now then
      (d.setTout k ((d.tout k).rise d.now d.time.incr t)).emit (.toutEdge k.val (d.toutLevel k.val true)) else d := by
  unfold Dev.toutEdge
  simp only [ha, hn]

end
end Sys2Proof.Machine
end

section
open Sys2Proof Sys2Proof.Machine

/-- Settles O50. That an edge of an output with none pending changes nothing is the model's choice (log 17). -/
theorem timedOutputs : Obligations.TimedOutputs := by
  refine ⟨?control, ?edge⟩
  case control =>
    intro s path k hr a v d
    have hc {c : Nat} {i : Instr} {e : Dev} (hlt : c < 4) (h : Reaches s path a (v c))
        (hv : BitVec.ofNat 32 ((v c).toNat &&& definedBits a) = v c) (hi : exec i s = live s (writeBits path a c))
        (he : (if (v c).toNat.testBit 1 then (if (v c).toNat.testBit 0 then (d c).toutArm k else d c).toutDisarm k
          else if (v c).toNat.testBit 0 then (d c).toutArm k else d c) = e) : Completes i s e s.mem :=
      completes_live hr hi ((writeBits_TIME_TOCTRL hlt h hv).trans (congrArg (·, s.mem) he))
    refine ⟨fun h hv hb1 => ?arm, fun h hv hb0 => ?disarm⟩
    case arm =>
      intro e x t p w
      have hb0 : (v 1).toNat.testBit 0 = true := testBit_or_bits (s.dev.reg a) (bits := 1) (j := 0) (by decide) (by decide)
      have harm {f : Dev} (hf : e.toutArm k = f) : Completes (.toutArm path k) s f s.mem :=
        hc (by decide) h hv rfl (by rw [if_neg (Bool.eq_false_iff.mp hb1), if_pos hb0]; exact hf)
      exact ⟨fun hp => harm (toutArm_of_periodic hp rfl rfl rfl rfl),
        fun hp hn => harm (toutArm_of_later hp rfl rfl rfl hn), fun hp hn => harm (toutArm_of_late hp rfl rfl rfl hn)⟩
    case disarm =>
      have hb1 : (v 2).toNat.testBit 1 = true := testBit_or_bits (s.dev.reg a) (bits := 2) (j := 1) (by decide) (by decide)
      exact hc (by decide) h hv rfl (by rw [if_pos hb1, if_neg (Bool.eq_false_iff.mp hb0)]; rfl)
  case edge =>
    intro s k hr x now
    have hc {e : Dev} (he : s.dev.toutEdge k = e) : Completes (.toutEdge k) s e s.mem :=
      completes_dev (f := fun d => d.toutEdge k) hr rfl he
    exact ⟨fun ha hn => hc (toutEdge_of_idle ha hn),
      fun e ha => ⟨fun hlt => hc ((toutEdge_of_active ha).trans (if_neg (not_le.mpr hlt))),
        fun hle => hc ((toutEdge_of_active ha).trans (if_pos hle))⟩,
      fun t ha hn => ⟨fun hlt => hc ((toutEdge_of_next ha hn).trans (if_neg (not_le.mpr hlt))),
        fun hle => hc ((toutEdge_of_next ha hn).trans (if_pos hle))⟩⟩

end

section
/-!
SUPPORT. PTP (R364 to R372).
-/
namespace Sys2Proof.Machine

/-! ### Masters -/

section
variable {d : Dev} {x : PtpSt} {a : PtpAnnounce} {m : PtpMsg}

theorem choice_of_empty (h : x.masters = []) : x.choice = none := by
  unfold PtpSt.choice
  rw [h]
  rfl

theorem find_port (p : Fin 4) : ([0, 1, 2, 3] : List (Fin 4)).find? (fun q => p == q) = some p := by
  revert p
  decide

/-- R365: the one master heard is chosen. -/
theorem choice_of_single (h : x.masters = [a]) (hc : x.chosen = none) : x.choice = some (a.source, a.port) := by
  unfold PtpSt.choice
  simp only [h, hc, bestMaster, List.any_cons, List.any_nil, beq_self_eq_true, Bool.true_and, Bool.or_false, find_port,
    Option.map_some]

theorem chooseMaster_of_first {p : Nat × Fin 4} (hp : d.time.ptp.choice = some p) (hc : d.time.ptp.chosen = none) :
    d.chooseMaster = (d.wr Fld.TIME_PTPSTAT.Port p.2.val).setPtp { d.time.ptp with chosen := some p, exch := none } := by
  unfold Dev.chooseMaster
  simp only [hp, hc, reduceCtorEq, if_false, Option.isSome_none, Bool.false_eq_true]

theorem chooseMaster_of_gone {p : Nat × Fin 4} (hp : d.time.ptp.choice = none) (hc : d.time.ptp.chosen = some p) :
    d.chooseMaster = (d.sticky Fld.TIME_ERR.MasterChange).setPtp { d.time.ptp with chosen := none, exch := none } := by
  unfold Dev.chooseMaster
  simp only [hp, hc, reduceCtorEq, if_false, Option.isSome_some, if_true]

theorem announce_of_deaf (h : d.ptpHears a.port a.transport a.domain = false) : d.announce a = d :=
  if_neg (Bool.eq_false_iff.mp h)

/-- R365: an Announce of the first master heard. -/
theorem announce_of_first (h : d.ptpHears a.port a.transport a.domain = true) (hc : d.time.ptp.chosen = none)
    (hm : d.time.ptp.masters = []) : d.announce a = (d.wr Fld.TIME_PTPSTAT.Port a.port.val).setPtp
      { d.time.ptp with masters := [a], chosen := some (a.source, a.port), exch := none } := by
  have he : d.announce a = (d.setPtp { d.time.ptp with masters := [a] }).chooseMaster := by
    unfold Dev.announce
    simp only [h, hm, if_true, List.filter_nil, List.nil_append]
  exact he.trans (chooseMaster_of_first (d := d.setPtp { d.time.ptp with masters := [a] }) (p := (a.source, a.port))
    (choice_of_single (a := a) rfl hc) hc)

/-- R365: the chosen master, the only one heard, is heard no longer. -/
theorem announceTimeout_of_chosen (hm : d.time.ptp.masters = [a]) (hc : d.time.ptp.chosen = some (a.source, a.port)) :
    d.announceTimeout a.source = (d.sticky Fld.TIME_ERR.MasterChange).setPtp
      { d.time.ptp with masters := [], chosen := none, exch := none } := by
  have he : d.announceTimeout a.source = (d.setPtp { d.time.ptp with masters := [] }).chooseMaster := by
    unfold Dev.announceTimeout
    simp [hm, hc]
  exact he.trans (chooseMaster_of_gone (d := d.setPtp { d.time.ptp with masters := [] }) (choice_of_empty rfl) hc)

/-! ### Frames -/

theorem hostFrame_of_asleep {i : Instr} {p : Fin 4} {f : Dev → Dev} (h : (d.frameIn p.val).domOn 3 = false) :
    d.hostFrame i p f = (d.frameIn p.val).holdFrame i := if_neg (Bool.eq_false_iff.mp h)

theorem hostFrame_of_on {i : Instr} {p : Fin 4} {f : Dev → Dev} (h : (d.frameIn p.val).domOn 3 = true) :
    d.hostFrame i p f = f (d.frameIn p.val) := if_pos h

/-! ### Exchanges (R371) -/

theorem ptpSync_of_refused (h : d.ptpTakes m = false) : d.ptpSync m = d := if_neg (Bool.eq_false_iff.mp h)

theorem ptpFollowUp_of_refused (h : d.ptpTakes m = false) : d.ptpFollowUp m = d := by
  unfold Dev.ptpFollowUp
  simp only [h, Bool.false_and, Bool.false_eq_true, if_false]
  split <;> rfl

theorem ptpDelayResp_of_refused (h : d.ptpTakes m = false) : d.ptpDelayResp m = d := by
  unfold Dev.ptpDelayResp
  simp only [h, Bool.false_and, Bool.false_eq_true, if_false]
  split <;> rfl

theorem ptpSync_of_taken (h : d.ptpTakes m = true) :
    d.ptpSync m = (d.wr Fld.TIME_PTPSTAT.Holdover 0).setPtp { d.time.ptp with
      transport := m.transport
      exch := some ⟨m.seqId, if m.twoStep then none else some (TimeStamp.coarse m.stamp + m.correction),
        TimeStamp.coarse m.arrival - tenths (d.portCorr m.port).1, m.correction, none, 0, none⟩ } := if_pos h

theorem completeExchange_of_open {e : Exchange} (he : d.time.ptp.exch = some e) (h4 : e.t4 = none) :
    d.completeExchange = d := by
  unfold Dev.completeExchange
  simp only [he, h4]
  split
  · next h => cases h
  · rfl

/-- R371: t1 of a two-step master. -/
theorem ptpFollowUp_of_taken {e : Exchange} (h : d.ptpTakes m = true) (he : d.time.ptp.exch = some e)
    (hs : e.syncSeq = m.seqId) (h1 : e.t1 = none) (h4 : e.t4 = none) :
    d.ptpFollowUp m = d.setPtp { d.time.ptp with
      exch := some { e with t1 := some (TimeStamp.coarse m.stamp + e.corr + m.correction) } } := by
  have hopen : d.ptpFollowUp m = (d.setPtp { d.time.ptp with
      exch := some { e with t1 := some (TimeStamp.coarse m.stamp + e.corr + m.correction) } }).completeExchange := by
    unfold Dev.ptpFollowUp
    simp only [he, h, hs, h1, beq_self_eq_true, Option.isNone_none, Bool.and_true, if_true]
  exact hopen.trans (completeExchange_of_open
    (e := { e with t1 := some (TimeStamp.coarse m.stamp + e.corr + m.correction) }) rfl h4)

/-- R371: what a completed exchange shows, before the servo acts. -/
def Dev.showExchange (d : Dev) (t1 t2 t3 t4 : Int) : Dev :=
  ((d.setPtp { d.time.ptp with
      exch := none, seq := (d.time.ptp.seq + 1) % 2 ^ 32, stamps := [t1, t2, t3, t4] }).wr Fld.TIME_OFFSET.Ns
    (patternOf 32 (clampInt (-2147483648) 2147483647
      (Int.fdiv (Int.fdiv ((t2 - t1) - (t4 - t3)) 2) 65536)))).wr Fld.TIME_PATHDLY.Ns
    (clampInt 0 4294967295 (Int.fdiv (Int.fdiv ((t2 - t1) + (t4 - t3)) 2) 65536)).toNat

theorem rd_showExchange_hostServo (t1 t2 t3 t4 : Int) :
    (d.showExchange t1 t2 t3 t4).rd Fld.TIME_PTPCTRL.HostServo = d.rd Fld.TIME_PTPCTRL.HostServo := by
  unfold Dev.showExchange
  rw [rd_wr_ne _ _ _ _ rfl rfl, rd_wr_ne _ _ _ _ rfl rfl]
  rfl

/-- R371: t4 completes an exchange whose t1 is known. -/
theorem ptpDelayResp_of_known {e : Exchange} {t1 : Int} (h : d.ptpTakes m = true) (he : d.time.ptp.exch = some e)
    (hs : e.reqSeq = some m.seqId) (h1 : e.t1 = some t1) :
    d.ptpDelayResp m =
      if d.rd Fld.TIME_PTPCTRL.HostServo = 1 then d.showExchange t1 e.t2 e.t3 (TimeStamp.coarse m.stamp - m.correction)
      else (d.showExchange t1 e.t2 e.t3 (TimeStamp.coarse m.stamp - m.correction)).servo
        (Int.fdiv ((e.t2 - t1) - ((TimeStamp.coarse m.stamp - m.correction) - e.t3)) 2) := by
  generalize ht4 : TimeStamp.coarse m.stamp - m.correction = t4
  have hresp : d.ptpDelayResp m = (d.setPtp { d.time.ptp with exch := some { e with t4 := some t4 } }).completeExchange := by
    unfold Dev.ptpDelayResp
    simp only [he, h, hs, ht4, decide_true, Bool.and_self, if_true]
  have hdone : (d.setPtp { d.time.ptp with exch := some { e with t4 := some t4 } }).completeExchange =
      if (d.showExchange t1 e.t2 e.t3 t4).rd Fld.TIME_PTPCTRL.HostServo = 1 then d.showExchange t1 e.t2 e.t3 t4
      else (d.showExchange t1 e.t2 e.t3 t4).servo (Int.fdiv ((e.t2 - t1) - (t4 - e.t3)) 2) := by
    unfold Dev.completeExchange
    simp only [Dev.setPtp, h1]
    rfl
  rw [hresp, hdone, rd_showExchange_hostServo]

/-- The servo leaves what the exchange shows. -/
structure Dev.SameExchange (d e : Dev) : Prop where
  exch : e.time.ptp.exch = d.time.ptp.exch
  seq : e.time.ptp.seq = d.time.ptp.seq
  stamps : e.time.ptp.stamps = d.time.ptp.stamps
  offset : e.rd Fld.TIME_OFFSET.Ns = d.rd Fld.TIME_OFFSET.Ns
  delay : e.rd Fld.TIME_PATHDLY.Ns = d.rd Fld.TIME_PATHDLY.Ns

theorem Dev.SameExchange.trans {c e : Dev} (h : c.SameExchange d) (k : d.SameExchange e) : c.SameExchange e :=
  ⟨k.exch.trans h.exch, k.seq.trans h.seq, k.stamps.trans h.stamps, k.offset.trans h.offset, k.delay.trans h.delay⟩

theorem judgeLock_cases (offset : Int) : ∃ good bad : Nat, ∃ b : Dev,
    b = d.setPtp { d.time.ptp with goodRun := good, badRun := bad } ∧
    (d.judgeLock offset = b ∨ ∃ v, d.judgeLock offset = b.wr Fld.TIME_PTPSTAT.Locked v) := by
  refine ⟨if offset.natAbs < 100 * 65536 then d.time.ptp.goodRun + 1 else 0,
    if 1000 * 65536 < offset.natAbs then d.time.ptp.badRun + 1 else 0, _, rfl, ?_⟩
  unfold Dev.judgeLock
  dsimp only
  generalize (if offset.natAbs < 100 * 65536 then d.time.ptp.goodRun + 1 else 0) = good
  generalize (if 1000 * 65536 < offset.natAbs then d.time.ptp.badRun + 1 else 0) = bad
  split
  · exact .inr ⟨1, rfl⟩
  · split
    · exact .inr ⟨0, rfl⟩
    · exact .inl rfl

theorem judgeLock_sameExchange (offset : Int) : d.SameExchange (d.judgeLock offset) := by
  obtain ⟨good, bad, b, hb, h⟩ := judgeLock_cases (d := d) offset
  have hbs : d.SameExchange b := by
    subst hb
    exact ⟨rfl, rfl, rfl, rfl, rfl⟩
  rcases h with h | ⟨v, h⟩
  · rw [h]
    exact hbs
  · rw [h]
    exact hbs.trans ⟨rfl, rfl, rfl, rd_wr_ne _ _ _ _ rfl rfl, rd_wr_ne _ _ _ _ rfl rfl⟩

theorem judgeLock_counter (offset : Int) : (d.judgeLock offset).time.incrNext = d.time.incrNext ∧
    (d.judgeLock offset).time.steps = d.time.steps := by
  obtain ⟨good, bad, b, hb, h⟩ := judgeLock_cases (d := d) offset
  rcases h with h | ⟨v, h⟩
  · rw [h, hb]
    exact ⟨rfl, rfl⟩
  · rw [h, wr_time, hb]
    exact ⟨rfl, rfl⟩

/-- R371: the servo steps the counter above 1 ms. -/
theorem servo_of_far {offset : Int} (h : 1000000 * 65536 < offset.natAbs) :
    d.servo offset = (d.addStep (- offset * 65536)).judgeLock offset := by
  unfold Dev.servo
  dsimp only
  rw [if_pos h]

theorem servo_sameExchange (offset : Int) : d.SameExchange (d.servo offset) := by
  unfold Dev.servo
  dsimp only
  refine Dev.SameExchange.trans ?_ (judgeLock_sameExchange offset)
  split
  · exact ⟨rfl, rfl, rfl, rfl, rfl⟩
  · exact ⟨rfl, rfl, rfl, rfl, rfl⟩

theorem delayReqSend_of_none (h : d.time.ptp.exch = none) : d.delayReqSend = d := by
  unfold Dev.delayReqSend
  simp only [h]

/-- R371: Delay_Req, once per Sync. -/
theorem delayReqSend_of_some {e : Exchange} {n : Nat} {p : Fin 4} (he : d.time.ptp.exch = some e)
    (hc : d.time.ptp.chosen = some (n, p)) (hr : e.reqSeq = none)
    (h : d.ptpHears p d.time.ptp.transport (d.rd Fld.TIME_PTPCTRL.Domain) = true) :
    d.delayReqSend = (d.setPtp { d.time.ptp with
      reqNext := (d.time.ptp.reqNext + 1) % 65536
      exch := some { e with
        reqSeq := some d.time.ptp.reqNext, t3 := TimeStamp.coarse d.now + tenths (d.portCorr p).2 } }).sendFrame p
        (.delayReq p d.time.ptp.transport d.time.ptp.reqNext) := by
  unfold Dev.delayReqSend
  simp only [he, hc, hr, h, Option.isNone_none, Bool.true_and, if_true]

end
end Sys2Proof.Machine
end

section
open Sys2Proof Sys2Proof.Machine

/-- Settles O51. What a Delay_Resp does under HostServo (log 97) and that a frame is held while HOST sleeps (log 133) are the
model's choices. -/
theorem ptpFollowsItsMaster : Obligations.PtpFollowsItsMaster := by
  refine ⟨fun s a hr => ?announce, fun s m hr hon => ?message, fun s hr => ?timers⟩
  case announce =>
    intro d
    have hc {e : Dev} (he : s.dev.hostFrame (.announce a) a.port (fun d => d.announce a) = e) :
        Completes (.announce a) s e s.mem :=
      completes_dev (f := fun d => d.hostFrame (.announce a) a.port (fun d => d.announce a)) hr rfl he
    exact ⟨fun h => hc (hostFrame_of_asleep h),
      fun h hd => hc ((hostFrame_of_on h).trans (announce_of_deaf hd)),
      fun h hd hn hm => hc ((hostFrame_of_on h).trans (announce_of_first hd hn hm))⟩
  case message =>
    intro d x
    have hsync {e : Dev} (he : d.ptpSync m = e) : Completes (.sync m) s e s.mem :=
      completes_dev (f := fun d => d.hostFrame (.sync m) m.port (fun d => d.ptpSync m)) hr rfl ((hostFrame_of_on hon).trans he)
    have hfollow {e : Dev} (he : d.ptpFollowUp m = e) : Completes (.followUp m) s e s.mem :=
      completes_dev (f := fun d => d.hostFrame (.followUp m) m.port (fun d => d.ptpFollowUp m)) hr rfl
        ((hostFrame_of_on hon).trans he)
    have hresp {e : Dev} (he : d.ptpDelayResp m = e) : Completes (.delayResp m) s e s.mem :=
      completes_dev (f := fun d => d.hostFrame (.delayResp m) m.port (fun d => d.ptpDelayResp m)) hr rfl
        ((hostFrame_of_on hon).trans he)
    refine ⟨fun h => ⟨hsync (ptpSync_of_refused h), hfollow (ptpFollowUp_of_refused h), hresp (ptpDelayResp_of_refused h)⟩,
      fun h => ⟨hsync (ptpSync_of_taken h), fun e he hs h1 h4 => hfollow (ptpFollowUp_of_taken h he hs h1 h4),
        fun e t1 he hs h1 => ?_⟩⟩
    intro t4 offset delay
    have hk := ptpDelayResp_of_known h he hs h1
    generalize hb : d.showExchange t1 e.t2 e.t3 (TimeStamp.coarse m.stamp - m.correction) = b at hk
    have hoffset : b.rd Fld.TIME_OFFSET.Ns =
        patternOf 32 (clampInt (-2147483648) 2147483647 (Int.fdiv offset 65536)) % 2 ^ 32 := by
      rw [← hb, Dev.showExchange, rd_wr_ne _ _ _ _ rfl rfl, rd_wr_same _ _ _ rfl]
      rfl
    have hdelay : b.rd Fld.TIME_PATHDLY.Ns = (clampInt 0 4294967295 (Int.fdiv delay 65536)).toNat % 2 ^ 32 := by
      rw [← hb, Dev.showExchange, rd_wr_same _ _ _ rfl]
      rfl
    have hshown : b.time.ptp.exch = none ∧ b.time.ptp.stamps = [t1, e.t2, e.t3, t4] ∧
        b.time.ptp.seq = (x.seq + 1) % 2 ^ 32 ∧ b.time.incrNext = d.time.incrNext ∧ b.time.steps = d.time.steps := by
      rw [← hb]
      exact ⟨rfl, rfl, rfl, rfl, rfl⟩
    obtain ⟨hexch, hstamps, hseq, hnext, hsteps⟩ := hshown
    by_cases hs : d.rd Fld.TIME_PTPCTRL.HostServo = 1
    · exact ⟨b, hresp (hk.trans (if_pos hs)), hexch, hstamps, hseq, hoffset, hdelay, fun _ => ⟨hnext, hsteps⟩,
        fun h0 => absurd (hs.symm.trans h0) (by decide)⟩
    · obtain ⟨k1, k2, k3, k4, k5⟩ := servo_sameExchange (d := b) offset
      refine ⟨b.servo offset, hresp (hk.trans (if_neg hs)), k1.trans hexch, k3.trans hstamps, k2.trans hseq, k4.trans hoffset,
        k5.trans hdelay, fun h1 => absurd h1 hs, fun _ hfar => ?_⟩
      rw [servo_of_far hfar]
      obtain ⟨j1, j2⟩ := judgeLock_counter (d := b.addStep (- offset * 65536)) offset
      exact ⟨j1.trans hnext, j2.trans (congrArg (· ++ [- offset * 65536]) hsteps)⟩
  case timers =>
    intro d x
    have hreq {e : Dev} (he : d.delayReqSend = e) : Completes .delayReqSend s e s.mem :=
      completes_dev (f := Dev.delayReqSend) hr rfl he
    have hhold {e : Dev} (he : d.holdover = e) : Completes .holdover s e s.mem :=
      completes_dev (f := Dev.holdover) hr rfl he
    exact ⟨fun h => hreq (delayReqSend_of_none h), fun e m p he hc hq h => hreq (delayReqSend_of_some he hc hq h),
      fun a hm hc => completes_dev (f := fun d => d.announceTimeout a.source) hr rfl (announceTimeout_of_chosen hm hc),
      fun h1 h2 h3 => hhold (if_pos ⟨h1, h2, h3⟩),
      fun hk => hhold (if_neg (fun h => absurd (hk.symm.trans h.2.1) (by decide)))⟩

end

section
/-!
SUPPORT. Pair lanes and the Igmal link (R347 to R357).
-/
namespace Sys2Proof.Machine

/-! ### Taps (R347, R353) -/

/-- R353: a tap request that is acted on leaves a tap in its range and the swing rules kept. -/
theorem moveTap_keeps {code lo hi v : Nat} {ok : Nat → Bool} (hv : ok v = true) (hlo : lo ≤ v) (hhi : v ≤ hi) :
    ok (moveTap code lo hi v ok).1 = true ∧ lo ≤ (moveTap code lo hi v ok).1 ∧ (moveTap code lo hi v ok).1 ≤ hi := by
  unfold moveTap
  split
  · split
    · exact ⟨hv, hlo, hhi⟩
    · split
      · next hok => exact ⟨hok, by omega, by omega⟩
      · exact ⟨hv, hlo, hhi⟩
  · split
    · split
      · exact ⟨hv, hlo, hhi⟩
      · split
        · next hok => exact ⟨hok, by omega, by omega⟩
        · exact ⟨hv, hlo, hhi⟩
    · exact ⟨hv, hlo, hhi⟩

theorem actRequest_keeps {t : Taps} (req : Nat) (hs : t.swingOk = true) (h1 : t.pre ≤ 15) (h2 : 32 ≤ t.main)
    (h3 : t.main ≤ 63) (h4 : t.post ≤ 31) :
    (actRequest t req).1.swingOk = true ∧ (actRequest t req).1.pre ≤ 15 ∧ 32 ≤ (actRequest t req).1.main ∧
    (actRequest t req).1.main ≤ 63 ∧ (actRequest t req).1.post ≤ 31 := by
  unfold actRequest
  split
  · decide
  · extract_lets p t1 m t2 r
    obtain ⟨hp, -, hpost⟩ := moveTap_keeps (code := bitsOf req 5 4) (lo := 0) (hi := 31) (v := t.post)
      (ok := fun v => { t with post := v }.swingOk) hs (Nat.zero_le _) h4
    obtain ⟨hm, hlo, hhi⟩ := moveTap_keeps (code := bitsOf req 3 2) (lo := 32) (hi := 63) (v := t1.main)
      (ok := fun v => { t1 with main := v }.swingOk) hp h2 h3
    obtain ⟨hr, -, hpre⟩ := moveTap_keeps (code := bitsOf req 1 0) (lo := 0) (hi := 15) (v := t2.pre)
      (ok := fun v => { t2 with pre := v }.swingOk) hm (Nat.zero_le _) h1
    exact ⟨hr, hpre, hlo, hhi, hpost⟩

/-! ### Training (R352 to R355) -/

section
variable {d : Dev} {l : Fin 8}

/-- R352: a pair lane that may train begins at the preset. -/
def Dev.trained (d : Dev) (l : Fin 8) : Dev :=
  (((d.setTrain l freshTrain).setTaps (4 + l.val) presetTaps).wr (Fld.LANE_STAT.Steps (4 + l.val)) 0).wr
    (Fld.LANE_STAT.State (4 + l.val)) 1

theorem beginTraining_of_able (hp : d.part = .sn262) (hr : d.lane.refclk = true)
    (he : d.rd (Fld.LANE_CTRL.Enable (4 + l.val)) = 1) : d.beginTraining l = d.trained l := by
  have hpair : d.hasPairLanes = true := decide_eq_true hp
  unfold Dev.beginTraining
  dsimp only
  rw [if_pos (by rw [hpair, hr, he]; rfl)]
  rfl

theorem beginTraining_cases : d.beginTraining l = d ∨ d.beginTraining l = d.trained l := by
  unfold Dev.beginTraining
  dsimp only
  split
  · exact .inr rfl
  · exact .inl rfl

theorem train_setTrain_same (x : LaneTrain) : (d.setTrain l x).train l = x := Vector.getElem_set_self _

theorem train_setTrain_ne {j : Fin 8} (x : LaneTrain) (h : l ≠ j) : (d.setTrain l x).train j = d.train j :=
  Vector.getElem_set_ne l.isLt j.isLt (fun e => h (Fin.ext e))

theorem trained_lane : (d.trained l).lane = (d.setTrain l freshTrain).lane := rfl

theorem train_congr {e : Dev} (h : e.lane = d.lane) : e.train l = d.train l := by
  unfold Dev.train
  rw [h]

theorem trained_train : (d.trained l).train l = freshTrain := (train_congr trained_lane).trans (train_setTrain_same _)

theorem trained_train_ne {j : Fin 8} (h : l ≠ j) : (d.trained l).train j = d.train j :=
  (train_congr trained_lane).trans (train_setTrain_ne _ h)

/-- The registers of a pair lane that the start of its training writes. -/
theorem rd_trained_of_apart {f : FieldRef} (ht : f.addr ≠ Adr.LANE_TX (4 + l.val)) (hs : f.addr ≠ Adr.LANE_STAT (4 + l.val)) :
    (d.trained l).rd f = d.rd f := by
  unfold Dev.trained Dev.setTaps
  rw [rd_wr_ne _ _ _ _ rfl (apart_of_addr hs.symm), rd_wr_ne _ _ _ _ rfl (apart_of_addr hs.symm),
    rd_wr_ne _ _ _ _ rfl (apart_of_addr ht.symm), rd_wr_ne _ _ _ _ rfl (apart_of_addr ht.symm),
    rd_wr_ne _ _ _ _ rfl (apart_of_addr ht.symm)]
  rfl

theorem laneFields_apart : ∀ l : Fin 8, (Fld.LANE_STAT.State (4 + l.val)).apart (Fld.LANE_STAT.Steps (4 + l.val)) = true ∧
    (Fld.LANE_STAT.Steps (4 + l.val)).apart (Fld.LANE_TX.Pre (4 + l.val)) = true ∧
    (Fld.LANE_STAT.State (4 + l.val)).apart (Fld.LANE_TX.Pre (4 + l.val)) = true ∧
    (Fld.LANE_TX.Main (4 + l.val)).apart (Fld.LANE_TX.Pre (4 + l.val)) = true ∧
    (Fld.LANE_TX.Post (4 + l.val)).apart (Fld.LANE_TX.Pre (4 + l.val)) = true ∧
    (Fld.LANE_STAT.Steps (4 + l.val)).apart (Fld.LANE_TX.Main (4 + l.val)) = true ∧
    (Fld.LANE_STAT.State (4 + l.val)).apart (Fld.LANE_TX.Main (4 + l.val)) = true ∧
    (Fld.LANE_TX.Post (4 + l.val)).apart (Fld.LANE_TX.Main (4 + l.val)) = true ∧
    (Fld.LANE_STAT.Steps (4 + l.val)).apart (Fld.LANE_TX.Post (4 + l.val)) = true ∧
    (Fld.LANE_STAT.State (4 + l.val)).apart (Fld.LANE_TX.Post (4 + l.val)) = true := by
  decide

theorem trained_state : (d.trained l).rd (Fld.LANE_STAT.State (4 + l.val)) = 1 := rd_wr_same _ _ _ rfl

theorem trained_steps : (d.trained l).rd (Fld.LANE_STAT.Steps (4 + l.val)) = 0 := by
  unfold Dev.trained
  rw [rd_wr_ne _ _ _ _ rfl (laneFields_apart l).1, rd_wr_same _ _ _ rfl]
  rfl

theorem trained_taps : (d.trained l).taps' (4 + l.val) = presetTaps := by
  obtain ⟨-, h1, h2, h3, h4, h5, h6, h7, h8, h9⟩ := laneFields_apart l
  unfold Dev.taps' Dev.trained Dev.setTaps
  rw [rd_wr_ne _ _ _ _ rfl h2, rd_wr_ne _ _ _ _ rfl h1, rd_wr_ne _ _ _ _ rfl h4, rd_wr_ne _ _ _ _ rfl h3,
    rd_wr_same _ _ _ rfl, rd_wr_ne _ _ _ _ rfl h6, rd_wr_ne _ _ _ _ rfl h5, rd_wr_ne _ _ _ _ rfl h7,
    rd_wr_same _ _ _ rfl, rd_wr_ne _ _ _ _ rfl h9, rd_wr_ne _ _ _ _ rfl h8, rd_wr_same _ _ _ rfl]
  rfl

theorem laneSignal_of_busy {j : Fin 12} (h : d.rd (Fld.LANE_STAT.State j.val) ≠ 0) : d.laneSignal j = d := if_pos h

theorem laneSignal_of_host {j : Fin 12} (hj : j.val < 4) (h : d.rd (Fld.LANE_STAT.State j.val) = 0) :
    d.laneSignal j = d.beginAdapt j.val := (if_neg (not_not.mpr h)).trans (if_pos hj)

theorem wake_lane (k x : Nat) : (d.wake k x).lane = d.lane := by
  rcases wake_cases (d := d) (k := k) (x := x) with e | ⟨y, e⟩ | e <;> rw [e] <;> rfl

theorem enable_apart : ∀ l : Fin 8, (Fld.LANE_CTRL.Enable (4 + l.val)).addr ≠ Adr.PWR_LASTWAKE ∧
    (Fld.LANE_CTRL.Enable (4 + l.val)).addr ≠ Adr.PWR_WAKECNT := by
  decide

/-- R352: signal on a pair lane that is Off and enabled. -/
theorem laneSignal_of_pair {j : Fin 12} (hj : j.val = 4 + l.val) (h : d.rd (Fld.LANE_STAT.State (4 + l.val)) = 0)
    (hp : d.part = .sn262) (hr : d.lane.refclk = true) (he : d.rd (Fld.LANE_CTRL.Enable (4 + l.val)) = 1) :
    d.laneSignal j = (d.wake 4 4).trained l := by
  have hpair : d.hasPairLanes = true := decide_eq_true hp
  have hl : Fin.ofNat 8 (4 + l.val - 4) = l := by
    rw [Nat.add_sub_cancel_left]
    exact Fin.ext (Nat.mod_eq_of_lt l.isLt)
  have hen : (d.wake 4 4).rd (Fld.LANE_CTRL.Enable (4 + l.val)) = 1 := by
    unfold Dev.rd at he ⊢
    rw [wake_reg _ _ _ (enable_apart l).1 (enable_apart l).2]
    exact he
  unfold Dev.laneSignal
  rw [hj, if_neg (not_not.mpr h), if_neg (by omega), if_pos hpair, hl,
    beginTraining_of_able ((wake_part ..).trans hp) (by rw [wake_lane]; exact hr) hen]

theorem trainingTimeout_of_idle (h : d.rd (Fld.LANE_STAT.State (4 + l.val)) ≠ 1 ∨ (d.train l).request = none ∨
    (d.train l).own ≠ 0) : d.trainingTimeout l = d := if_pos h

theorem allReady_of_unfinished (h : (d.train l).own = 0) : d.allReady = false := by
  have hmem : d.train l ∈ d.lane.train.toList := Vector.mem_toList_iff.mpr (Vector.getElem_mem _)
  refine List.all_eq_false.mpr ⟨d.train l, hmem, ?_⟩
  simp [h]

theorem linkStart_of_unready (h : d.allReady = false) : d.linkStart = d := by
  unfold Dev.linkStart
  rw [h]
  rfl

/-- R354: an unanswered request is sent again as one step more. -/
theorem trainingTimeout_of_budget (hs : d.rd (Fld.LANE_STAT.State (4 + l.val)) = 1) (hq : (d.train l).request ≠ none)
    (ho : (d.train l).own = 0) (hb : d.rd (Fld.LANE_STAT.Steps (4 + l.val)) < d.rd Fld.LANE_BUDGET.Steps) :
    d.trainingTimeout l = (d.wr (Fld.LANE_STAT.Steps (4 + l.val)) (d.rd (Fld.LANE_STAT.Steps (4 + l.val)) + 1)).emit
      (.training l.val ((d.train l).frame (d.rd (Fld.LANE_STAT.Fom (4 + l.val))))) := by
  have hgo : ¬ (d.rd (Fld.LANE_STAT.State (4 + l.val)) ≠ 1 ∨ (d.train l).request = none ∨ (d.train l).own ≠ 0) := by
    rintro (h | h | h)
    · exact h hs
    · exact hq h
    · exact h ho
  have hstep : ¬ (max 1 (d.rd Fld.LANE_BUDGET.Steps) ≤ d.rd (Fld.LANE_STAT.Steps (4 + l.val))) := by omega
  unfold Dev.trainingTimeout
  dsimp only
  rw [if_neg hgo, if_neg hstep]
  exact linkStart_of_unready (allReady_of_unfinished (l := l) ho)

theorem trainingFrame_of_ignored {f : TrainFrame}
    (h : d.rd (Fld.LANE_STAT.State (4 + f.lane.val)) ≠ 1 ∨ frameOk f.bytes = false) : d.trainingFrame f = d := if_pos h

theorem trainingFrame_of_taken {f : TrainFrame} (hs : d.rd (Fld.LANE_STAT.State (4 + f.lane.val)) = 1)
    (hf : frameOk f.bytes = true) {a b e : Dev}
    (ha : (d.wr (Fld.LANE_STAT.Fom (4 + f.lane.val)) f.fom.toNat).setTrain f.lane
      { d.train f.lane with far := leAt f.bytes 13 1 } = a)
    (hb : (if bitsOf (leAt f.bytes 8 2) 5 0 = 0 then a else a.serveRequest f.lane (leAt f.bytes 8 2)) = b)
    (he : b.search f.lane f.fom.toNat (leAt f.bytes 10 2 / 256) = e) :
    d.trainingFrame f = (e.emit (.training f.lane.val ((e.train f.lane).frame f.fom.toNat))).linkStart := by
  have hgo : ¬ (d.rd (Fld.LANE_STAT.State (4 + f.lane.val)) ≠ 1 ∨ frameOk f.bytes = false) := by
    rintro (h | h)
    · exact h hs
    · exact absurd (hf.symm.trans h) (by decide)
  subst ha hb he
  exact if_neg hgo

/-! ### The link (R356, R357) -/

theorem flit_of_down {bs : Bytes} (h : d.lane.link.up = false) : d.flit bs = d := if_pos h

theorem flit_of_damaged {bs : Bytes} (h : d.lane.link.up = true) (hb : bs.length ≠ 64 ∨ crc32c (bs.take 60) ≠ leAt bs 60 4) :
    d.flit bs = d.emit (.flitAck d.lane.link.rxNext false) :=
  (if_neg (by rw [h]; decide)).trans (if_pos hb)

/-- R357: a whole flit without a Nak, of a kind that carries a Seq. -/
theorem flit_of_whole {bs : Bytes} {k : LinkSt} {kept : List (Nat × Nat × PairOut)} (hk : d.lane.link = k) (h : k.up = true)
    (h64 : bs.length = 64) (hcrc : crc32c (bs.take 60) = leAt bs 60 4) (hnak : (leAt bs 6 2).testBit 0 = false)
    (h0 : leAt bs 0 1 ≠ 0) (h9 : leAt bs 0 1 ≠ 9) (h11 : leAt bs 0 1 ≠ 11)
    (hkept : dropAcked k.txNext (leAt bs 4 2) k.unacked = kept) :
    d.flit bs = if leAt bs 2 2 = k.rxNext then
        { d with lane := { d.lane with link := { k with unacked := kept, rxNext := flitNext (leAt bs 2 2) } } }.emit
          (.flitAck (flitNext (leAt bs 2 2)) true)
      else { d with lane := { d.lane with link := { k with unacked := kept } } }.emit (.flitAck k.rxNext false) := by
  subst hk hkept
  have hup : ¬ (d.lane.link.up = false) := by rw [h]; decide
  have hwhole : ¬ (bs.length ≠ 64 ∨ crc32c (bs.take 60) ≠ leAt bs 60 4) := by
    rintro (e | e)
    · exact e h64
    · exact e hcrc
  unfold Dev.flit
  dsimp only
  rw [if_neg hup, if_neg hwhole]
  simp only [hnak, Bool.false_eq_true, if_false, h0, h9, h11, h, false_or, reduceCtorEq]

theorem linkLoss_of_none (h : d.part = .sn131) : d.linkLoss = d := if_neg (by rw [Dev.hasPairLanes, h]; decide)

/-- Under an invariant of a fold, what member `k` sets and the others leave stands after it. -/
theorem foldl_sets_of_inv {α β γ : Type} [DecidableEq β] {f : α → β → α} {g : α → γ} {v : γ} {k : β} (I : α → Prop) :
    ∀ {l : List β} {a : α}, (∀ a, ∀ b ∈ l, I a → I (f a b)) → (∀ a, I a → g (f a k) = v) →
      (∀ a, ∀ b ∈ l, b ≠ k → I a → g (f a b) = g a) → I a → k ∈ l ∨ g a = v → g (l.foldl f a) = v
  | [], _, _, _, _, _, h => h.resolve_left (by simp)
  | b :: l, a, hinv, hset, hkeep, ha, h => by
    refine foldl_sets_of_inv (l := l) (a := f a b) I (fun c e he => hinv c e (List.mem_cons_of_mem _ he)) hset
      (fun c e he => hkeep c e (List.mem_cons_of_mem _ he)) (hinv a b (List.mem_cons_self ..) ha) ?_
    by_cases hb : b = k
    · rw [hb]
      exact .inr (hset a ha)
    · rcases h with h | h
      · exact .inl ((List.mem_cons.mp h).resolve_left (fun e => hb e.symm))
      · exact .inr ((hkeep a b (List.mem_cons_self ..) hb ha).trans h)

/-- A pair lane on which training may begin again. -/
structure Dev.Trainable (d : Dev) (l : Fin 8) : Prop where
  part : d.part = .sn262
  refclk : d.lane.refclk = true
  enable : d.rd (Fld.LANE_CTRL.Enable (4 + l.val)) = 1
  state : d.rd (Fld.LANE_STAT.State (4 + l.val)) ≠ 0

/-- R357: what the loss of the link does to one lane. -/
def Dev.loseLane (d : Dev) (l : Fin 8) : Dev :=
  if d.rd (Fld.LANE_STAT.State (4 + l.val)) = 0 then d else d.beginTraining l

theorem loseLane_cases : d.loseLane l = d ∨ d.loseLane l = d.trained l := by
  unfold Dev.loseLane
  split
  · exact .inl rfl
  · exact beginTraining_cases

theorem enable_apart_lane : ∀ j l : Fin 8, (Fld.LANE_CTRL.Enable (4 + l.val)).addr ≠ Adr.LANE_TX (4 + j.val) ∧
    (Fld.LANE_CTRL.Enable (4 + l.val)).addr ≠ Adr.LANE_STAT (4 + j.val) := by
  decide

theorem state_apart_lane : ∀ j l : Fin 8, j ≠ l → (Fld.LANE_STAT.State (4 + l.val)).addr ≠ Adr.LANE_TX (4 + j.val) ∧
    (Fld.LANE_STAT.State (4 + l.val)).addr ≠ Adr.LANE_STAT (4 + j.val) := by
  decide

theorem trained_trainable {j : Fin 8} (h : d.Trainable l) : (d.trained j).Trainable l := by
  obtain ⟨hp, hr, he, hs⟩ := h
  refine ⟨hp, hr, (rd_trained_of_apart (enable_apart_lane j l).1 (enable_apart_lane j l).2).trans he, ?_⟩
  by_cases hj : j = l
  · subst hj
    rw [trained_state]
    decide
  · rw [rd_trained_of_apart (state_apart_lane j l hj).1 (state_apart_lane j l hj).2]
    exact hs

theorem loseLane_trainable {j : Fin 8} (h : d.Trainable l) : (d.loseLane j).Trainable l := by
  rcases loseLane_cases (d := d) (l := j) with e | e <;> rw [e]
  · exact h
  · exact trained_trainable h

theorem loseLane_train (h : d.Trainable l) : (d.loseLane l).train l = freshTrain := by
  obtain ⟨hp, hr, he, hs⟩ := h
  unfold Dev.loseLane
  rw [if_neg hs, beginTraining_of_able hp hr he, trained_train]

theorem loseLane_train_ne {j : Fin 8} (h : j ≠ l) : (d.loseLane j).train l = d.train l := by
  rcases loseLane_cases (d := d) (l := j) with e | e <;> rw [e]
  exact trained_train_ne h

theorem loseLane_link : (d.loseLane l).lane.link = d.lane.link := by
  rcases loseLane_cases (d := d) (l := l) with e | e <;> rw [e]
  rfl

theorem linkLoss_eq (h : d.part = .sn262) :
    d.linkLoss = pairLanes.foldl Dev.loseLane { d with lane := { d.lane with link := ⟨false, 1, 1, []⟩ } } :=
  if_pos (decide_eq_true h)

theorem linkLoss_link (h : d.part = .sn262) : d.linkLoss.lane.link = ⟨false, 1, 1, []⟩ := by
  rw [linkLoss_eq h]
  generalize hb : ({ d with lane := { d.lane with link := ⟨false, 1, 1, []⟩ } } : Dev) = b
  have hbl : b.lane.link = ⟨false, 1, 1, []⟩ := by rw [← hb]
  clear hb
  generalize pairLanes = L
  exact foldl_keeps (fun e : Dev => e.lane.link = ⟨false, 1, 1, []⟩) Dev.loseLane (fun _ _ e => loseLane_link.trans e) L b hbl

theorem mem_pairLanes : ∀ l : Fin 8, l ∈ pairLanes := by decide

/-- R357: the loss of the link trains its lanes again. -/
theorem linkLoss_train (h : d.Trainable l) : d.linkLoss.train l = freshTrain := by
  rw [linkLoss_eq h.part]
  exact foldl_sets_of_inv (f := Dev.loseLane) (g := fun e : Dev => e.train l) (k := l) (fun e => e.Trainable l)
    (fun _ _ _ e => loseLane_trainable e) (fun _ e => loseLane_train e) (fun _ _ _ hj _ => loseLane_train_ne hj)
    ⟨h.part, h.refclk, h.enable, h.state⟩ (.inl (mem_pairLanes l))

end

/-! ### Retrain (R377) -/

section
variable {s : State} {path : Path} {l : Fin 12}

theorem bitRow_LANE_CTRL (l : Fin 12) : BitRow (Adr.LANE_CTRL l.val) (Adr.LANE_CTRL 0) l.val 2 := by
  refine ⟨by revert l; decide, by revert l; decide, by decide, ?_⟩
  fin_cases l <;> exact ⟨_, _, rfl, rfl, by decide⟩

theorem LANE_CTRL_apart : ∀ l : Fin 12, Adr.LANE_CTRL l.val ≠ Adr.PWR_LASTWAKE ∧ Adr.LANE_CTRL l.val ≠ Adr.PWR_WAKECNT := by
  decide

theorem block_LANE_CTRL : ∀ l : Fin 12, Adr.LANE_CTRL l.val / 0x10000 = 5 := by decide

theorem silent_LANE_CTRL (l : Fin 12) (p : Part) (h : holdsRegister p (Adr.LANE_CTRL l.val) = true) :
    silentRegister p (Adr.LANE_CTRL l.val) = false := by
  cases p <;> revert l <;> decide

/-- R377: what a write of LANE_CTRL with Enable and Retrain set does. -/
theorem writeBits_LANE_CTRL (hold : holdsRegister s.dev.part (Adr.LANE_CTRL l.val) = true)
    (h : Reaches s path (Adr.LANE_CTRL l.val) (s.dev.reg (Adr.LANE_CTRL l.val) ||| 2#32))
    (hv : BitVec.ofNat 32 ((s.dev.reg (Adr.LANE_CTRL l.val) ||| 2#32).toNat &&& definedBits (Adr.LANE_CTRL l.val)) =
      s.dev.reg (Adr.LANE_CTRL l.val) ||| 2#32)
    (hen : (s.dev.reg (Adr.LANE_CTRL l.val) ||| 2#32).toNat.testBit 0 = true) :
    writeBits path (Adr.LANE_CTRL l.val) 2 s.dev s.mem =
      (((s.dev.met path (Adr.LANE_CTRL l.val) (s.dev.reg (Adr.LANE_CTRL l.val) ||| 2#32)).laneRetrain l.val).ptpResettle,
        s.mem) := by
  obtain ⟨r, hb, e⟩ := bits_act h (bitRow_LANE_CTRL l) (LANE_CTRL_apart l) hold (silent_LANE_CTRL l _ hold) hv
    (fun e => absurd e (by decide)) (by decide)
  have hbit := testBit_or_bits (s.dev.reg (Adr.LANE_CTRL l.val)) (bits := 2) (j := 1) (by decide) (by decide)
  rw [e, actOn, block_LANE_CTRL l]
  simp only [Dev.actLink, hb, hbit, hen, if_true, (by decide : Adr.LANE_CTRL 0 ≠ Adr.NET_PCTRL 0), if_false,
    Bool.true_eq_false]

end
end Sys2Proof.Machine
end

section
open Sys2Proof Sys2Proof.Machine

/-- Settles O52. The no-ops of a retry, a timeout and a flit (log 17), one effect for every reason of a loss (log 144) and the
retrain (log 115) are the model's choices. -/
theorem pairLanesTrainAndDeliver : Obligations.PairLanesTrainAndDeliver := by
  have hsig (s : State) (l : Fin 12) (hr : s.runs) {e : Dev} (he : s.dev.laneSignal l = e) :
      Completes (.laneSignal l) s e s.mem := completes_dev (f := fun d => d.laneSignal l) hr rfl he
  refine ⟨fun t req hs h1 h2 h3 h4 => actRequest_keeps req hs h1 h2 h3 h4,
    fun s l hr h => hsig s l hr (laneSignal_of_busy h), fun s p hr h => hsig s _ hr (laneSignal_of_host p.isLt h),
    fun s l hr => ?lane, fun s f hr => ?frame, fun s bs hr => ?flit, fun s reason hr => ?loss, fun s path l hold => ?retrain⟩
  case lane =>
    intro k x
    have htry {e : Dev} (he : s.dev.trainRetry l = e) : Completes (.trainRetry l) s e s.mem :=
      completes_dev (f := fun d => d.trainRetry l) hr rfl he
    have htime {e : Dev} (he : s.dev.trainingTimeout l = e) : Completes (.trainingRequestTimeout l) s e s.mem :=
      completes_dev (f := fun d => d.trainingTimeout l) hr rfl he
    exact ⟨fun h hp hc hen => ⟨_, hsig s _ hr (laneSignal_of_pair rfl h hp hc hen), trained_train, trained_taps, trained_state,
        trained_steps⟩,
      fun h => htry (if_neg h), fun h => htry (if_pos h), fun h => htime (trainingTimeout_of_idle h),
      fun hs hq ho hb => htime (trainingTimeout_of_budget hs hq ho hb)⟩
  case frame =>
    intro k req
    have hc {e : Dev} (he : s.dev.trainingFrame f = e) : Completes (.trainingFrame f) s e s.mem :=
      completes_dev (f := fun d => d.trainingFrame f) hr rfl he
    exact ⟨fun h => hc (trainingFrame_of_ignored h), fun hs hf => hc (trainingFrame_of_taken hs hf rfl rfl rfl)⟩
  case flit =>
    intro k
    have hc {e : Dev} (he : s.dev.flit bs = e) : Completes (.flit bs) s e s.mem :=
      completes_dev (f := fun d => d.flit bs) hr rfl he
    refine ⟨fun h => hc (flit_of_down h), fun h hb => hc (flit_of_damaged h hb), fun h h64 hcrc hnak h0 h9 h11 => ?_⟩
    intro kept
    have hw := flit_of_whole (d := s.dev) (k := k) rfl h h64 hcrc hnak h0 h9 h11 rfl
    refine ⟨fun hseq => hc (hw.trans ((if_pos hseq).trans ?_)), fun hseq => hc (hw.trans (if_neg hseq))⟩
    rw [hseq]
  case loss =>
    have hc {e : Dev} (he : s.dev.linkLoss = e) : Completes (.linkLoss reason) s e s.mem :=
      completes_dev (f := Dev.linkLoss) hr rfl he
    exact ⟨fun h => hc (linkLoss_of_none h), fun h => ⟨_, hc rfl, linkLoss_link h,
      fun l hc hen hs => linkLoss_train ⟨h, hc, hen, hs⟩⟩⟩
  case retrain =>
    intro v h hv hen d
    have hc {e : Dev} (he : d.laneRetrain l.val = e) : Completes (.laneRetrain path l) s e.ptpResettle s.mem :=
      completes_live h.1 rfl ((writeBits_LANE_CTRL hold h hv hen).trans (congrArg (fun e : Dev => (e.ptpResettle, s.mem)) he))
    exact ⟨fun hl => hc (if_pos hl), fun hl => hc (if_neg (by omega))⟩

end

section
/-!
SUPPORT. Host lanes, ports and the frames the device answers (R345 to R361).
-/
namespace Sys2Proof.Machine

/-! ### Adaptation (R348, R349) -/

section
variable {d : Dev} {p : Fin 4}

theorem hostFields_apart : ∀ p : Fin 4, (Fld.LANE_STAT.Fom p.val).apart (Fld.LANE_STAT.State p.val) = true ∧
    (Fld.LANE_STAT.Fom p.val).apart (Fld.NET_PSTAT.BlockLock p.val) = true ∧
    (Fld.LANE_STAT.Fom p.val).apart (Fld.NET_PSTAT.HiBer p.val) = true ∧
    (Fld.LANE_STAT.Fom p.val).apart Fld.LANE_FOM.Floor = true ∧
    (Fld.NET_PSTAT.HiBer p.val).apart (Fld.LANE_STAT.State p.val) = true ∧
    (Fld.NET_PSTAT.HiBer p.val).apart (Fld.NET_PSTAT.BlockLock p.val) = true ∧
    (Fld.NET_PSTAT.HiBer p.val).apart Fld.LANE_FOM.Floor = true ∧
    (Fld.NET_PSTAT.BlockLock p.val).apart (Fld.LANE_STAT.State p.val) = true ∧
    (Fld.NET_PSTAT.BlockLock p.val).apart Fld.LANE_FOM.Floor = true := by
  decide

theorem tryUp_of_ready (h1 : d.rd (Fld.LANE_STAT.State p.val) = 2) (h2 : d.rd (Fld.NET_PSTAT.BlockLock p.val) = 1)
    (h3 : d.rd (Fld.NET_PSTAT.HiBer p.val) = 0) (h4 : d.rd Fld.LANE_FOM.Floor ≤ d.rd (Fld.LANE_STAT.Fom p.val)) :
    d.tryUp p = d.portUp p := if_pos ⟨h1, h2, h3, h4⟩

theorem tryUp_of_short (h : d.rd (Fld.NET_PSTAT.BlockLock p.val) ≠ 1 ∨ d.rd (Fld.NET_PSTAT.HiBer p.val) ≠ 0 ∨
    d.rd (Fld.LANE_STAT.Fom p.val) < d.rd Fld.LANE_FOM.Floor) : d.tryUp p = d := by
  refine if_neg ?_
  rintro ⟨-, h2, h3, h4⟩
  rcases h with h | h | h
  · exact h h2
  · exact h h3
  · omega

/-- The figure of merit shown, at most 255. -/
def Dev.showFom (d : Dev) (p : Fin 4) (fom : Nat) : Dev := d.wr (Fld.LANE_STAT.Fom p.val) (min 255 fom)

theorem rd_showFom (fom : Nat) : (d.showFom p fom).rd (Fld.LANE_STAT.Fom p.val) = min 255 fom :=
  (rd_wr_same _ _ _ rfl).trans (Nat.mod_eq_of_lt (show min 255 fom < 256 by omega))

theorem showFom_keeps (fom : Nat) :
    (d.showFom p fom).rd (Fld.LANE_STAT.State p.val) = d.rd (Fld.LANE_STAT.State p.val) ∧
    (d.showFom p fom).rd (Fld.NET_PSTAT.BlockLock p.val) = d.rd (Fld.NET_PSTAT.BlockLock p.val) ∧
    (d.showFom p fom).rd (Fld.NET_PSTAT.HiBer p.val) = d.rd (Fld.NET_PSTAT.HiBer p.val) ∧
    (d.showFom p fom).rd Fld.LANE_FOM.Floor = d.rd Fld.LANE_FOM.Floor := by
  obtain ⟨h1, h2, h3, h4, -⟩ := hostFields_apart p
  exact ⟨rd_wr_ne _ _ _ _ rfl h1, rd_wr_ne _ _ _ _ rfl h2, rd_wr_ne _ _ _ _ rfl h3, rd_wr_ne _ _ _ _ rfl h4⟩

/-- R348: block lock shown, with the bit-error rate. -/
def Dev.showLock (d : Dev) (p : Fin 4) (hiBer : Bool) : Dev :=
  (d.wr (Fld.NET_PSTAT.BlockLock p.val) 1).wr (Fld.NET_PSTAT.HiBer p.val) (if hiBer then 1 else 0)

theorem showLock_shows (hiBer : Bool) :
    (d.showLock p hiBer).rd (Fld.LANE_STAT.State p.val) = d.rd (Fld.LANE_STAT.State p.val) ∧
    (d.showLock p hiBer).rd (Fld.NET_PSTAT.BlockLock p.val) = 1 ∧
    (d.showLock p hiBer).rd (Fld.NET_PSTAT.HiBer p.val) = (if hiBer then 1 else 0) ∧
    (d.showLock p hiBer).rd Fld.LANE_FOM.Floor = d.rd Fld.LANE_FOM.Floor := by
  obtain ⟨-, -, -, -, h1, h2, h3, h4, h5⟩ := hostFields_apart p
  unfold Dev.showLock
  refine ⟨?_, ?_, ?_, ?_⟩
  · rw [rd_wr_ne _ _ _ _ rfl h1, rd_wr_ne _ _ _ _ rfl h4]
  · rw [rd_wr_ne _ _ _ _ rfl h2, rd_wr_same _ _ _ rfl]
    rfl
  · rw [rd_wr_same _ _ _ rfl]
    cases hiBer <;> rfl
  · rw [rd_wr_ne _ _ _ _ rfl h3, rd_wr_ne _ _ _ _ rfl h5]

theorem hostAdaptTimeout_of_other {fom : Nat} (h : d.rd (Fld.LANE_STAT.State p.val) ≠ 2) : d.hostAdaptTimeout p fom = d :=
  if_neg h

theorem hostAdaptTimeout_eq {fom : Nat} (h : d.rd (Fld.LANE_STAT.State p.val) = 2) :
    d.hostAdaptTimeout p fom = (d.showFom p fom).tryUp p := if_pos h

theorem blockLock_of_other {fom : Nat} {hiBer : Bool} (h : d.rd (Fld.LANE_STAT.State p.val) ≠ 2) :
    d.blockLock p fom hiBer = d := if_neg h

theorem blockLock_eq {fom : Nat} {hiBer : Bool} (h : d.rd (Fld.LANE_STAT.State p.val) = 2) :
    d.blockLock p fom hiBer = ((d.showLock p hiBer).showFom p fom).tryUp p := if_pos h

/-- R348: the lane stays down without block lock or below Floor. -/
theorem hostAdaptTimeout_of_short {fom : Nat} (h : d.rd (Fld.LANE_STAT.State p.val) = 2)
    (hb : d.rd (Fld.NET_PSTAT.BlockLock p.val) = 0 ∨ min 255 fom < d.rd Fld.LANE_FOM.Floor) :
    d.hostAdaptTimeout p fom = d.showFom p fom := by
  obtain ⟨-, h2, -, h4⟩ := showFom_keeps (d := d) (p := p) fom
  rw [hostAdaptTimeout_eq h]
  refine tryUp_of_short ?_
  rw [h2, h4, rd_showFom]
  rcases hb with hb | hb
  · exact .inl (by omega)
  · exact .inr (.inr hb)

theorem hostAdaptTimeout_of_ready {fom : Nat} (h : d.rd (Fld.LANE_STAT.State p.val) = 2)
    (hb : d.rd (Fld.NET_PSTAT.BlockLock p.val) = 1) (hh : d.rd (Fld.NET_PSTAT.HiBer p.val) = 0)
    (hf : d.rd Fld.LANE_FOM.Floor ≤ min 255 fom) : d.hostAdaptTimeout p fom = (d.showFom p fom).portUp p := by
  obtain ⟨h1, h2, h3, h4⟩ := showFom_keeps (d := d) (p := p) fom
  rw [hostAdaptTimeout_eq h]
  exact tryUp_of_ready (h1.trans h) (h2.trans hb) (h3.trans hh) (by rw [h4, rd_showFom]; exact hf)

theorem blockLock_of_short {fom : Nat} {hiBer : Bool} (h : d.rd (Fld.LANE_STAT.State p.val) = 2)
    (hb : hiBer = true ∨ min 255 fom < d.rd Fld.LANE_FOM.Floor) :
    d.blockLock p fom hiBer = (d.showLock p hiBer).showFom p fom := by
  obtain ⟨-, -, h3, h4⟩ := showFom_keeps (d := d.showLock p hiBer) (p := p) fom
  obtain ⟨-, -, k3, k4⟩ := showLock_shows (d := d) (p := p) hiBer
  rw [blockLock_eq h]
  refine tryUp_of_short ?_
  rw [h3, h4, k3, k4, rd_showFom]
  rcases hb with hb | hb
  · exact .inr (.inl (by rw [hb]; decide))
  · exact .inr (.inr hb)

theorem blockLock_of_ready {fom : Nat} {hiBer : Bool} (h : d.rd (Fld.LANE_STAT.State p.val) = 2) (hb : hiBer = false)
    (hf : d.rd Fld.LANE_FOM.Floor ≤ min 255 fom) :
    d.blockLock p fom hiBer = ((d.showLock p hiBer).showFom p fom).portUp p := by
  obtain ⟨h1, h2, h3, h4⟩ := showFom_keeps (d := d.showLock p hiBer) (p := p) fom
  obtain ⟨k1, k2, k3, k4⟩ := showLock_shows (d := d) (p := p) hiBer
  rw [blockLock_eq h]
  exact tryUp_of_ready (h1.trans (k1.trans h)) (h2.trans k2) (h3.trans (k3.trans (by rw [hb]; rfl)))
    (by rw [h4, k4, rd_showFom]; exact hf)

end

/-! ### NET_PCTRL (R349) -/

section
variable {s : State} {path : Path} {p : Fin 4} {v : Word}

/-- The row of NET_PCTRL. -/
def netPctrlRow : RegSpec := ⟨"NET_PCTRL", 0x00040000, 4, 0x40, 1, 0x0, .none, [⟨27, 16, .rw, 0, none⟩, ⟨15, 10, .rw, 0, none⟩,
  ⟨9, 8, .rw, 0, none⟩, ⟨3, 3, .rw, 0, none⟩, ⟨2, 2, .rw, 0, none⟩, ⟨1, 0, .rw, 2, some (0, 2)⟩]⟩

theorem regSpecAt_NET_PCTRL (p : Fin 4) : regSpecAt (Adr.NET_PCTRL p.val) = some (netPctrlRow, p.val, 0) := by
  fin_cases p <;> rfl

theorem NET_PCTRL_plain : ∀ p : Fin 4, Adr.NET_PCTRL p.val % 4 = 0 ∧ isNzt (Adr.NET_PCTRL p.val) = false ∧
    isThr (Adr.NET_PCTRL p.val) = false ∧ setOf (Adr.NET_PCTRL p.val) = .none ∧ Adr.NET_PCTRL p.val / 0x10000 = 4 := by
  decide

theorem holds_NET_PCTRL (p : Fin 4) (q : Part) : holdsRegister q (Adr.NET_PCTRL p.val) = true := by
  cases q <;> revert p <;> decide

theorem silent_NET_PCTRL (p : Fin 4) (q : Part) : silentRegister q (Adr.NET_PCTRL p.val) = false := by
  cases q <;> revert p <;> decide

/-- R349: the word that a write of NET_PCTRL stores: Speed is at most 2, Fec and Jumbo are those written. -/
theorem netPctrl_stored (q : Part) (old v : Word) :
    bitsOf (storedWord q netPctrlRow old v).toNat 1 0 = min 2 (bitsOf v.toNat 1 0) ∧
    bitsOf (storedWord q netPctrlRow old v).toNat 3 2 = bitsOf v.toNat 3 2 := by
  have hclamp (f : FieldSpec) (x : Nat) (hf : f.lo ≠ 16) (hl : f.lim = none) : clampField q netPctrlRow f x = x := by
    unfold clampField
    rw [hl]
    cases q <;> simp [netPctrlRow, Adr.RAS_REG, Adr.NET_PCTRL, hf, Adr.HP_PLANE, Adr.HP_DSKCTRL, Adr.RAS_PEEKIDX,
      Adr.TEL_FCIDX, Adr.DD_FIRST, Adr.DD_LAST, Adr.MEM_RMREQ]
  have hspeed (x : Nat) : clampField q netPctrlRow ⟨1, 0, .rw, 2, some (0, 2)⟩ x = min 2 x := by
    have hmin : clampNat 0 2 x = min 2 x := by
      unfold clampNat
      rw [if_neg (Nat.not_lt_zero x)]
      split <;> omega
    unfold clampField
    cases q <;> simp [netPctrlRow, hmin, Adr.RAS_REG, Adr.NET_PCTRL, Adr.HP_PLANE, Adr.HP_DSKCTRL, Adr.RAS_PEEKIDX,
      Adr.TEL_FCIDX, Adr.DD_FIRST, Adr.DD_LAST, Adr.MEM_RMREQ]
  obtain ⟨w, hw⟩ : ∃ w, storedWord q netPctrlRow old v = setBits (setBits (setBits w 3 3 (bitsOf v.toNat 3 3)) 2 2
      (bitsOf v.toNat 2 2)) 1 0 (min 2 (bitsOf v.toNat 1 0)) := by
    rw [← hspeed, ← hclamp ⟨3, 3, .rw, 0, none⟩ (bitsOf v.toNat 3 3) (by decide) rfl,
      ← hclamp ⟨2, 2, .rw, 0, none⟩ (bitsOf v.toNat 2 2) (by decide) rfl]
    exact ⟨_, rfl⟩
  rw [hw]
  refine ⟨?_, bitsOf_congr (fun i h1 h2 => ?_)⟩
  · rw [bitsOf_setBits_same _ _ _ _ (by decide) (by decide)]
    exact Nat.mod_eq_of_lt (show min 2 (bitsOf v.toNat 1 0) < 4 by omega)
  · have hi : i = 2 ∨ i = 3 := by omega
    rw [testBit_setBits _ _ _ _ _ (by decide) (by decide), testBit_setBits _ _ _ _ _ (by decide) (by decide),
      testBit_setBits _ _ _ _ _ (by decide) (by decide)]
    rcases hi with rfl | rfl
    · rw [if_neg (by decide), if_pos (by decide), testBit_bitsOf]
      exact Bool.true_and _
    · rw [if_neg (by decide), if_neg (by decide), if_pos (by decide), testBit_bitsOf]
      exact Bool.true_and _

theorem actOn_link {was d : Dev} {m : Mem} {finds : Finds} {r : RegSpec} {i a value : Nat} (h : a / 0x10000 = 4) :
    actOn was d m path finds r i a value = (d.actLink r i value, m) := by
  unfold actOn
  simp only [h]

theorem actLink_NET_PCTRL (d : Dev) (i value : Nat) : d.actLink netPctrlRow i value = (d.retrainHost i).ptpResettle :=
  if_pos rfl

/-- R349: a write of NET_PCTRL stores it and has its lane adapt again. -/
theorem write_NET_PCTRL (h : Reaches s path (Adr.NET_PCTRL p.val) v)
    (hv : BitVec.ofNat 32 (v.toNat &&& definedBits (Adr.NET_PCTRL p.val)) = v) :
    ∃ w, writeAccess path [] (Adr.NET_PCTRL p.val) v s.dev s.mem =
      ((((s.dev.met path (Adr.NET_PCTRL p.val) v).keepReg (Adr.NET_PCTRL p.val) w).retrainHost p.val).ptpResettle, s.mem) ∧
      bitsOf w.toNat 1 0 = min 2 (bitsOf v.toNat 1 0) ∧ bitsOf w.toNat 3 2 = bitsOf v.toNat 3 2 := by
  obtain ⟨halign, hnzt, hthr, hset, hblock⟩ := NET_PCTRL_plain p
  rw [writeAccess_row h halign (holds_NET_PCTRL p _) (silent_NET_PCTRL p _) hv hnzt hthr (regSpecAt_NET_PCTRL p),
    writeReg_stores rfl (barPending_none _ hset), actOn_link hblock, actLink_NET_PCTRL]
  exact ⟨_, rfl, netPctrl_stored ..⟩

end

/-! ### Frames (R358, R361) -/

section
variable {d : Dev} {p : Fin 4} {target : Nat}

theorem arpRequest_of_foreign {mac : BitVec 48} {sender : Nat} (h : d.owns4 p.val target = none) :
    d.arpRequest p mac sender target = d := by
  unfold Dev.arpRequest
  rw [h]

theorem arpRequest_of_own {mac : BitVec 48} {sender m : Nat} (h : d.owns4 p.val target = some m) :
    d.arpRequest p mac sender target = d.sendFrame p (.arp p mac (BitVec.ofNat 48 m) target sender) := by
  unfold Dev.arpRequest
  rw [h]

theorem neighbourSolicitation_of_foreign {mac : BitVec 48} {sender : Nat} (h : d.owns6 p.val target = none) :
    d.neighbourSolicitation p mac sender target = d := by
  unfold Dev.neighbourSolicitation
  rw [h]

theorem neighbourSolicitation_of_own {mac : BitVec 48} {sender m : Nat} (h : d.owns6 p.val target = some m) :
    d.neighbourSolicitation p mac sender target = d.sendFrame p (.neighbour p mac (BitVec.ofNat 48 m) target sender) := by
  unfold Dev.neighbourSolicitation
  rw [h]

theorem echoRequest_of_long {ep : Endpoint} {data : Bytes} (h : 1472 < data.length) : d.echoRequest p ep target data = d := by
  have hl : decide (data.length ≤ 1472) = false := decide_eq_false (not_le.mpr h)
  unfold Dev.echoRequest
  dsimp only
  rw [hl, Bool.and_false]
  rfl

theorem echoRequest_of_own {ep : Endpoint} {data : Bytes} {m : Nat} (h : data.length ≤ 1472)
    (ho : (if ep.v6 then d.owns6 p.val target else d.owns4 p.val target) = some m) :
    d.echoRequest p ep target data = d.sendFrame p (.echoReply p ep target data) := by
  have hl : decide (data.length ≤ 1472) = true := decide_eq_true h
  have hmine : (if ep.v6 then (d.owns6 p.val target).isSome else (d.owns4 p.val target).isSome) = true := by
    rw [← apply_ite Option.isSome, ho]
    rfl
  unfold Dev.echoRequest
  dsimp only
  rw [hmine, hl]
  rfl

end

/-! ### REFCLK (R345) -/

section
variable {d : Dev} {p : Fin 4} {l : Nat}

/-- The registers that the loss and the return of REFCLK do not read in a host lane. -/
theorem rd_portDown_of_apart {f : FieldRef} (h1 : f.addr ≠ Adr.NET_PSTAT l) (h2 : Fld.LANE_ERR.LinkDrop.apart f = true)
    (h3 : f.addr ∉ reportRegs) : (d.portDown l).rd f = d.rd f := by
  unfold Dev.portDown
  split
  · dsimp only
    rw [notice_rd _ _ _ _ h3, rd_sticky_ne _ _ _ rfl h2, rd_wr_ne _ _ _ _ rfl (apart_of_addr h1.symm),
      rd_wr_ne _ _ _ _ rfl (apart_of_addr h1.symm)]
  · rfl

theorem portDown_lane : (d.portDown l).lane = d.lane := by
  unfold Dev.portDown
  split
  · exact notice_lane ..
  · rfl

/-- What the start of training on a lane keeps, the loss of the link keeps. -/
theorem linkLoss_keeps (P : Dev → Prop) (hlink : P { d with lane := { d.lane with link := ⟨false, 1, 1, []⟩ } }) (h : P d)
    (htrain : ∀ e j, P e → P (Dev.trained e j)) : P d.linkLoss := by
  cases hp : d.part
  · rw [linkLoss_eq hp]
    generalize ({ d with lane := { d.lane with link := ⟨false, 1, 1, []⟩ } } : Dev) = b at hlink
    refine foldl_keeps P Dev.loseLane (fun e j he => ?_) pairLanes b hlink
    rcases loseLane_cases (d := e) (l := j) with hj | hj <;> rw [hj]
    · exact he
    · exact htrain e j he
  · rw [linkLoss_of_none hp]
    exact h

theorem linkLoss_keeps_refclk : d.linkLoss.lane.refclk = d.lane.refclk :=
  linkLoss_keeps (fun e => e.lane.refclk = d.lane.refclk) rfl rfl (fun _ _ he => he)

/-- The loss of the link touches the TX and status registers of pair lanes only. -/
theorem rd_linkLoss_of_apart {f : FieldRef} (h : ∀ j : Fin 8, f.addr ≠ Adr.LANE_TX (4 + j.val) ∧
    f.addr ≠ Adr.LANE_STAT (4 + j.val)) : d.linkLoss.rd f = d.rd f :=
  linkLoss_keeps (fun e => e.rd f = d.rd f) rfl rfl (fun _ j he => (rd_trained_of_apart (h j).1 (h j).2).trans he)

theorem hostState_apart : ∀ (p : Fin 4) (j : Fin 8), (Fld.LANE_STAT.State p.val).addr ≠ Adr.LANE_TX (4 + j.val) ∧
    (Fld.LANE_STAT.State p.val).addr ≠ Adr.LANE_STAT (4 + j.val) := by
  decide

theorem refclkError_apart : ∀ j : Fin 8, Fld.LANE_ERR.RefClk.addr ≠ Adr.LANE_TX (4 + j.val) ∧
    Fld.LANE_ERR.RefClk.addr ≠ Adr.LANE_STAT (4 + j.val) := by
  decide

theorem hostState_apart_net (p : Fin 4) (_ : l < 12) : (Fld.LANE_STAT.State p.val).addr ≠ Adr.NET_PSTAT l := by
  have hp := p.isLt
  simp only [Fld.LANE_STAT.State, Adr.NET_PSTAT]
  omega

theorem hostState_report : ∀ p : Fin 4, (Fld.LANE_STAT.State p.val).addr ∉ reportRegs := by decide

theorem hostState_apart_drop : ∀ p : Fin 4, Fld.LANE_ERR.LinkDrop.apart (Fld.LANE_STAT.State p.val) = true := by decide

theorem refclkError_apart_net (hl : l < 12) : Fld.LANE_ERR.RefClk.addr ≠ Adr.NET_PSTAT l := by
  simp only [Fld.LANE_ERR.RefClk, Adr.NET_PSTAT]
  omega

/-- R377: a lane is Off before its state is written. -/
def Dev.laneDown (d : Dev) (l : Nat) : Dev := if l < 4 then d.portDown l else if d.lane.link.up then d.linkLoss else d

theorem laneOff_eq : d.laneOff l = (d.laneDown l).wr (Fld.LANE_STAT.State l) 0 := rfl

theorem laneDown_cases : d.laneDown l = d.portDown l ∨ d.laneDown l = d.linkLoss ∨ d.laneDown l = d := by
  unfold Dev.laneDown
  split
  · exact .inl rfl
  · split
    · exact .inr (.inl rfl)
    · exact .inr (.inr rfl)

theorem laneDown_refclk : (d.laneDown l).lane.refclk = d.lane.refclk := by
  rcases laneDown_cases (d := d) (l := l) with h | h | h <;> rw [h]
  · rw [portDown_lane]
  · exact linkLoss_keeps_refclk

theorem laneDown_error (hl : l < 12) : (d.laneDown l).rd Fld.LANE_ERR.RefClk = d.rd Fld.LANE_ERR.RefClk := by
  rcases laneDown_cases (d := d) (l := l) with h | h | h <;> rw [h]
  · exact rd_portDown_of_apart (refclkError_apart_net hl) rfl (by decide)
  · exact rd_linkLoss_of_apart refclkError_apart

theorem laneDown_state (hl : l < 12) : (d.laneDown l).rd (Fld.LANE_STAT.State p.val) = d.rd (Fld.LANE_STAT.State p.val) := by
  rcases laneDown_cases (d := d) (l := l) with h | h | h <;> rw [h]
  · exact rd_portDown_of_apart (hostState_apart_net p hl) (hostState_apart_drop p) (hostState_report p)
  · exact rd_linkLoss_of_apart (hostState_apart p)

theorem state_apart_state {j k : Nat} (h : j ≠ k) : (Fld.LANE_STAT.State j).apart (Fld.LANE_STAT.State k) = true :=
  apart_of_addr (by simp only [Fld.LANE_STAT.State]; omega)

theorem state_apart_error (hl : l < 12) : (Fld.LANE_STAT.State l).apart Fld.LANE_ERR.RefClk = true :=
  apart_of_addr (by simp only [Fld.LANE_STAT.State, Fld.LANE_ERR.RefClk]; omega)

/-- What the writes of a choice of master keep, the choice keeps. -/
theorem ptpResettle_keeps (P : Dev → Prop) (h : P d) (hsticky : ∀ e, P e → P (Dev.sticky e Fld.TIME_ERR.MasterChange))
    (hport : ∀ e v, P e → P (Dev.wr e Fld.TIME_PTPSTAT.Port v)) (hptp : ∀ e x, P e → P (Dev.setPtp e x)) :
    P d.ptpResettle := by
  unfold Dev.ptpResettle
  dsimp only
  generalize hb : Dev.setPtp d _ = b
  have hP : P b := hb ▸ hptp d _ h
  clear hb
  have hmaster : P (if b.time.ptp.chosen.isSome then b.sticky Fld.TIME_ERR.MasterChange else b) := by
    split
    · exact hsticky b hP
    · exact hP
  unfold Dev.chooseMaster
  dsimp only
  generalize (if b.time.ptp.chosen.isSome then b.sticky Fld.TIME_ERR.MasterChange else b) = c at hmaster ⊢
  split
  · exact hP
  · split
    · exact hptp _ _ (hport _ _ hmaster)
    · exact hptp _ _ hmaster

theorem rd_ptpResettle {f : FieldRef} (h1 : f.addr ≠ Fld.TIME_ERR.MasterChange.addr)
    (h2 : f.addr ≠ Fld.TIME_PTPSTAT.Port.addr) : d.ptpResettle.rd f = d.rd f :=
  ptpResettle_keeps (fun e => e.rd f = d.rd f) rfl (fun _ he => (rd_sticky_ne _ _ _ rfl (apart_of_addr h1.symm)).trans he)
    (fun _ _ he => (rd_wr_ne _ _ _ _ rfl (apart_of_addr h2.symm)).trans he) (fun _ _ he => he)

theorem ptpResettle_lane : d.ptpResettle.lane = d.lane :=
  ptpResettle_keeps (fun e => e.lane = d.lane) rfl (fun _ he => he) (fun _ _ he => he) (fun _ _ he => he)

theorem hostState_apart_ptp : ∀ p : Fin 4, (Fld.LANE_STAT.State p.val).addr ≠ Fld.TIME_ERR.MasterChange.addr ∧
    (Fld.LANE_STAT.State p.val).addr ≠ Fld.TIME_PTPSTAT.Port.addr := by
  decide

/-- R345: what the loss of REFCLK leaves. -/
theorem refclkLoss_shows : d.refclkLoss.lane.refclk = false ∧ d.refclkLoss.rd Fld.LANE_ERR.RefClk = 1 ∧
    d.refclkLoss.rd (Fld.LANE_STAT.State p.val) = 0 := by
  unfold Dev.refclkLoss
  dsimp only
  generalize hb : Dev.sticky { d with lane := { d.lane with refclk := false } } Fld.LANE_ERR.RefClk = b
  have hbr : b.lane.refclk = false := by rw [← hb]; rfl
  have hbe : b.rd Fld.LANE_ERR.RefClk = 1 := by rw [← hb]; exact rd_sticky_same _ _ rfl
  clear hb
  obtain ⟨n, hn, h4, hle⟩ : ∃ n, (if b.hasPairLanes then 12 else 4) = n ∧ 4 ≤ n ∧ n ≤ 12 := by
    cases b.hasPairLanes
    · exact ⟨4, rfl, by decide, by decide⟩
    · exact ⟨12, rfl, by decide, by decide⟩
  rw [hn]
  have hlt {j : Nat} (h : j ∈ List.range n) : j < 12 := lt_of_lt_of_le (List.mem_range.mp h) hle
  refine ⟨?_, ?_, ?_⟩
  · exact foldl_keeps (fun e : Dev => e.lane.refclk = false) Dev.laneOff (fun e j he => laneDown_refclk.trans he) _ b hbr
  · refine List.foldlRecOn (motive := fun e : Dev => e.rd Fld.LANE_ERR.RefClk = 1) _ _ hbe (fun e he j hj => ?_)
    rw [laneOff_eq, rd_wr_ne _ _ _ _ rfl (state_apart_error (hlt hj)), laneDown_error (hlt hj), he]
  · refine foldl_sets_of_inv (f := Dev.laneOff) (g := fun e : Dev => e.rd (Fld.LANE_STAT.State p.val)) (k := p.val)
      (fun _ => True) (fun _ _ _ _ => trivial) (fun e _ => ?_) (fun e j hj hne _ => ?_) trivial
      (.inl (List.mem_range.mpr (lt_of_lt_of_le p.isLt h4)))
    · exact rd_wr_same _ _ _ rfl
    · show (e.laneOff j).rd _ = e.rd _
      rw [laneOff_eq, rd_wr_ne _ _ _ _ rfl (state_apart_state hne), laneDown_state (hlt hj)]

/-- R348: a host lane that begins to adapt. -/
def Dev.adapting (d : Dev) (l : Nat) : Dev :=
  (((d.wr (Fld.LANE_STAT.State l) 2).wr (Fld.NET_PSTAT.BlockLock l) 0).wr (Fld.NET_PSTAT.HiBer l) 0).wr
    (Fld.NET_PSTAT.Rate10 l) (d.firstRate l)

theorem beginAdapt_cases : d.beginAdapt l = d ∨ d.beginAdapt l = d.adapting l := by
  unfold Dev.beginAdapt
  split
  · exact .inr rfl
  · exact .inl rfl

theorem rd_adapting_of_apart {f : FieldRef} (h1 : f.addr ≠ Adr.NET_PSTAT l) (h2 : (Fld.LANE_STAT.State l).apart f = true) :
    (d.adapting l).rd f = d.rd f := by
  unfold Dev.adapting
  rw [rd_wr_ne _ _ _ _ rfl (apart_of_addr h1.symm), rd_wr_ne _ _ _ _ rfl (apart_of_addr h1.symm),
    rd_wr_ne _ _ _ _ rfl (apart_of_addr h1.symm), rd_wr_ne _ _ _ _ rfl h2]

theorem adapting_state (hl : l = p.val) : (d.adapting l).rd (Fld.LANE_STAT.State p.val) = 2 := by
  have h := hostState_apart_net p (l := p.val) (by omega)
  subst hl
  unfold Dev.adapting
  rw [rd_wr_ne _ _ _ _ rfl (apart_of_addr h.symm), rd_wr_ne _ _ _ _ rfl (apart_of_addr h.symm),
    rd_wr_ne _ _ _ _ rfl (apart_of_addr h.symm), rd_wr_same _ _ _ rfl]
  rfl

theorem refclkReturn_of_present (h : d.lane.refclk = true) : d.refclkReturn = d := if_pos h

theorem refclkReturn_of_lost (h : d.lane.refclk = false) : d.refclkReturn =
    pairLanes.foldl Dev.beginTraining ((List.range 4).foldl Dev.beginAdapt
      { d with lane := { d.lane with refclk := true } }) := if_neg (Bool.eq_false_iff.mp h)

/-- A host lane that may run. -/
structure Dev.HostAble (d : Dev) (p : Fin 4) : Prop where
  refclk : d.lane.refclk = true
  enable : d.rd (Fld.LANE_CTRL.Enable p.val) = 1
  mac : d.boot.cfg.baseMac.isSome = true

theorem hostEnable_apart (p : Fin 4) {j : Nat} (_ : j < 12) : (Fld.LANE_CTRL.Enable p.val).addr ≠ Adr.NET_PSTAT j ∧
    (Fld.LANE_STAT.State j).apart (Fld.LANE_CTRL.Enable p.val) = true := by
  refine ⟨?_, apart_of_addr ?_⟩ <;> simp only [Fld.LANE_CTRL.Enable, Adr.NET_PSTAT, Fld.LANE_STAT.State] <;> omega

theorem beginAdapt_able (hl : l < 4) (h : d.HostAble p) : (d.beginAdapt l).HostAble p := by
  obtain ⟨h1, h2, h3⟩ := h
  rcases beginAdapt_cases (d := d) (l := l) with e | e <;> rw [e]
  · exact ⟨h1, h2, h3⟩
  · obtain ⟨g1, g2⟩ := hostEnable_apart p (j := l) (by omega)
    exact ⟨h1, (rd_adapting_of_apart g1 g2).trans h2, h3⟩

theorem beginAdapt_state (h : d.HostAble p) : (d.beginAdapt p.val).rd (Fld.LANE_STAT.State p.val) = 2 := by
  have hgo : d.hostLaneRuns p.val = true := by
    unfold Dev.hostLaneRuns
    rw [h.refclk, h.enable, h.mac]
    rfl
  have he : d.beginAdapt p.val = d.adapting p.val := if_pos hgo
  rw [he]
  exact adapting_state rfl

theorem beginAdapt_state_ne (hl : l < 4) (h : l ≠ p.val) :
    (d.beginAdapt l).rd (Fld.LANE_STAT.State p.val) = d.rd (Fld.LANE_STAT.State p.val) := by
  rcases beginAdapt_cases (d := d) (l := l) with e | e <;> rw [e]
  exact rd_adapting_of_apart (hostState_apart_net p (by omega)) (state_apart_state h)

theorem hostLanes_state (h : d.HostAble p) :
    ((List.range 4).foldl Dev.beginAdapt d).rd (Fld.LANE_STAT.State p.val) = 2 :=
  foldl_sets_of_inv (f := Dev.beginAdapt) (g := fun e : Dev => e.rd (Fld.LANE_STAT.State p.val)) (k := p.val)
    (fun e => e.HostAble p) (fun _ _ hj he => beginAdapt_able (List.mem_range.mp hj) he) (fun _ he => beginAdapt_state he)
    (fun _ _ hj hne _ => beginAdapt_state_ne (List.mem_range.mp hj) hne) h (.inl (List.mem_range.mpr p.isLt))

theorem beginAdapt_lane : (d.beginAdapt l).lane = d.lane := by
  rcases beginAdapt_cases (d := d) (l := l) with e | e <;> rw [e]
  rfl

/-- What the start of training on a lane keeps, the start on all of them keeps. -/
theorem beginTrainings_keeps (P : Dev → Prop) (h : P d) (htrain : ∀ e j, P e → P (Dev.trained e j)) (L : List (Fin 8)) :
    P (L.foldl Dev.beginTraining d) := by
  refine foldl_keeps P Dev.beginTraining (fun e j he => ?_) L d h
  rcases beginTraining_cases (d := e) (l := j) with hj | hj <;> rw [hj]
  · exact he
  · exact htrain e j he

/-- R345: what the return of REFCLK leaves. -/
theorem refclkReturn_refclk (h : d.lane.refclk = false) : d.refclkReturn.lane.refclk = true := by
  rw [refclkReturn_of_lost h]
  generalize hb : ({ d with lane := { d.lane with refclk := true } } : Dev) = b
  have hbr : b.lane.refclk = true := by rw [← hb]
  have hhost : ((List.range 4).foldl Dev.beginAdapt b).lane.refclk = true :=
    foldl_keeps (fun e : Dev => e.lane.refclk = true) Dev.beginAdapt (fun e j he => by rw [beginAdapt_lane]; exact he) _ b hbr
  generalize (List.range 4).foldl Dev.beginAdapt b = c at hhost ⊢
  exact beginTrainings_keeps (fun e => e.lane.refclk = true) hhost (fun _ _ he => he) pairLanes

theorem refclkReturn_state (h : d.lane.refclk = false) (he : d.rd (Fld.LANE_CTRL.Enable p.val) = 1)
    (hm : d.boot.cfg.baseMac.isSome = true) : d.refclkReturn.rd (Fld.LANE_STAT.State p.val) = 2 := by
  have hhost : ((List.range 4).foldl Dev.beginAdapt { d with lane := { d.lane with refclk := true } }).rd
      (Fld.LANE_STAT.State p.val) = 2 := hostLanes_state ⟨rfl, he, hm⟩
  rw [refclkReturn_of_lost h]
  generalize (List.range 4).foldl Dev.beginAdapt { d with lane := { d.lane with refclk := true } } = c at hhost ⊢
  exact beginTrainings_keeps (fun e => e.rd (Fld.LANE_STAT.State p.val) = 2) hhost
    (fun _ j hj => (rd_trained_of_apart (hostState_apart p j).1 (hostState_apart p j).2).trans hj) _

end
end Sys2Proof.Machine
end

section
open Sys2Proof Sys2Proof.Machine

/-- Settles O53. One effect for every reason of a drop (log 144), the no-ops in other states (log 17) and the held frame (log
133) are the model's choices. -/
theorem hostPortsComeUpAndAnswer : Obligations.HostPortsComeUpAndAnswer := by
  refine ⟨fun s p fom hiBer reason hr => ?lane, fun s path p v h hv => ?control,
    fun s p mac sender target ep data hr => ?frames, fun s hr => ?refclk⟩
  case lane =>
    intro d st
    have hadapt {e : Dev} (he : d.hostAdaptTimeout p fom = e) : Completes (.hostAdaptTimeout p fom) s e s.mem :=
      completes_dev (f := fun d => d.hostAdaptTimeout p fom) hr rfl he
    have hlock {e : Dev} (he : d.blockLock p fom hiBer = e) : Completes (.blockLock p fom hiBer) s e s.mem :=
      completes_dev (f := fun d => d.blockLock p fom hiBer) hr rfl he
    have hdrop {e : Dev} (he : d.linkDrop p = e) : Completes (.linkDrop p reason) s e.ptpResettle s.mem :=
      completes_dev (f := fun d => (d.linkDrop p).ptpResettle) hr rfl (congrArg Dev.ptpResettle he)
    have hauto {e : Dev} (he : d.autoSwitch p = e) : Completes (.speedAutoSwitch p) s e s.mem :=
      completes_dev (f := fun d => d.autoSwitch p) hr rfl he
    refine ⟨fun h => ⟨hadapt (hostAdaptTimeout_of_other h), hlock (blockLock_of_other h)⟩, fun h => ?_,
      fun h => hdrop (if_pos h), fun h => hdrop (if_neg h), fun h1 h2 h3 => hauto (if_pos ⟨h1, h2, h3⟩),
      fun h => hauto (if_neg (fun e => absurd e.1 (not_le.mpr h)))⟩
    intro f
    refine ⟨fun hb => hadapt (hostAdaptTimeout_of_short h hb),
      fun hb hh hf => hadapt (hostAdaptTimeout_of_ready h hb hh hf), ?_⟩
    intro g
    exact ⟨fun hb => hlock (blockLock_of_short h hb), fun hb hf => hlock (blockLock_of_ready h hb hf)⟩
  case control =>
    intro d
    obtain ⟨w, hw, hbits⟩ := write_NET_PCTRL h hv
    exact ⟨w, completes_live h.1 rfl hw, hbits⟩
  case frames =>
    intro d
    have hdiscard (c : DiscardCause) {e : Dev} (he : s.dev.frameDiscard p c = e) : Completes (.frameDiscard p c) s e s.mem :=
      completes_dev (f := fun d => d.frameDiscard p c) hr rfl he
    have harp {e : Dev} (he : s.dev.hostFrame (.arpRequest p mac sender target) p (fun d => d.arpRequest p mac sender target)
        = e) : Completes (.arpRequest p mac sender target) s e s.mem :=
      completes_dev (f := fun d => d.hostFrame (.arpRequest p mac sender target) p
        (fun d => d.arpRequest p mac sender target)) hr rfl he
    have hsol {e : Dev} (he : s.dev.hostFrame (.neighbourSolicitation p mac sender target) p
        (fun d => d.neighbourSolicitation p mac sender target) = e) :
        Completes (.neighbourSolicitation p mac sender target) s e s.mem :=
      completes_dev (f := fun d => d.hostFrame (.neighbourSolicitation p mac sender target) p
        (fun d => d.neighbourSolicitation p mac sender target)) hr rfl he
    have hecho {e : Dev} (he : s.dev.hostFrame (.echoRequest p ep target data) p
        (fun d => d.echoRequest p ep target data) = e) : Completes (.echoRequest p ep target data) s e s.mem :=
      completes_dev (f := fun d => d.hostFrame (.echoRequest p ep target data) p
        (fun d => d.echoRequest p ep target data)) hr rfl he
    refine ⟨completes_dev (f := fun d => d.pauseFrame p) hr rfl rfl, hdiscard .fcs rfl, ?_, ?_,
      fun h => ⟨harp (hostFrame_of_asleep h), hsol (hostFrame_of_asleep h), hecho (hostFrame_of_asleep h)⟩, fun h => ?_⟩
    · rintro c (rfl | rfl | rfl | rfl) <;> exact hdiscard _ rfl
    · rintro c (rfl | rfl | rfl | rfl | rfl | rfl) <;> exact hdiscard _ rfl
    · exact ⟨fun ho => harp ((hostFrame_of_on h).trans (arpRequest_of_foreign ho)),
        fun m ho => harp ((hostFrame_of_on h).trans (arpRequest_of_own ho)),
        fun ho => hsol ((hostFrame_of_on h).trans (neighbourSolicitation_of_foreign ho)),
        fun m ho => hsol ((hostFrame_of_on h).trans (neighbourSolicitation_of_own ho)),
        fun hl => hecho ((hostFrame_of_on h).trans (echoRequest_of_long hl)),
        fun m hl ho => hecho ((hostFrame_of_on h).trans (echoRequest_of_own hl ho))⟩
  case refclk =>
    have hret {e : Dev} (he : s.dev.refclkReturn = e) : Completes .refclkReturn s e s.mem :=
      completes_dev (f := Dev.refclkReturn) hr rfl he
    refine ⟨⟨_, completes_dev (f := fun d => d.refclkLoss.ptpResettle) hr rfl rfl, ?_, ?_, fun p => ?_⟩,
      fun h => hret (refclkReturn_of_present h),
      fun h => ⟨_, hret rfl, refclkReturn_refclk h, fun p he hm => refclkReturn_state h he hm⟩⟩
    · rw [ptpResettle_lane]
      exact (refclkLoss_shows (p := 0)).1
    · rw [rd_ptpResettle (by decide) (by decide)]
      exact (refclkLoss_shows (p := 0)).2.1
    · rw [rd_ptpResettle (hostState_apart_ptp p).1 (hostState_apart_ptp p).2]
      exact refclkLoss_shows.2.2

end

section
/-!
SUPPORT. Memory training, kindling, replays and temperature (R383 to R386, R407).
-/
namespace Sys2Proof.Machine

section
variable {d : Dev} {m : Mem}

/-! ### Training (R383) -/

theorem populated_congr {e : Dev} (h : e.rd Fld.MEM_CFG.Channels = d.rd Fld.MEM_CFG.Channels) : e.populated = d.populated := h

/-- The successes of a training shown. -/
def Dev.showTrained (d : Dev) (good : Nat) : Dev := d.wr Fld.MEM_STATUS.TrainOk good

theorem populated_showTrained (good : Nat) : (d.showTrained good).populated = d.populated := rd_wr_ne _ _ _ _ rfl rfl

theorem populated_lt : d.populated < 16 := bitsOf_lt ..

theorem memTrained_showTrained {ok : Nat} : (d.showTrained (ok &&& d.populated)).memTrained = true ↔
    d.populated ≠ 0 ∧ ok &&& d.populated = d.populated := by
  have hlt : ok &&& d.populated < 16 := Nat.and_lt_two_pow (n := 4) _ populated_lt
  have hrd : (d.showTrained (ok &&& d.populated)).rd Fld.MEM_STATUS.TrainOk = ok &&& d.populated :=
    (rd_wr_same _ _ _ rfl).trans (Nat.mod_eq_of_lt hlt)
  unfold Dev.memTrained
  rw [populated_showTrained, hrd]
  simp

theorem trainingDone_of_failed {ok good : Nat} (hg : ok &&& d.populated = good)
    (h : d.populated = 0 ∨ good ≠ d.populated) :
    d.trainingDone m ok = ((((d.showTrained good).sticky Fld.MEM_ERR.TrainFail).trouble Nt.DramTrainFail
      [(1, (if d.populated = 0 then 0xF else d.populated) - good)]).setLimit 0, m) := by
  subst hg
  have hno : ¬ ((d.showTrained (ok &&& d.populated)).memTrained = true) := by
    rw [memTrained_showTrained]
    rintro ⟨h1, h2⟩
    rcases h with h | h
    · exact h1 h
    · exact h h2
  have hf : (d.wr Fld.MEM_STATUS.TrainOk (ok &&& d.populated)).populated = d.populated := populated_showTrained _
  unfold Dev.trainingDone
  dsimp only
  rw [hf]
  exact if_neg hno

/-- R383, R407: a device whose channels have all trained for the first time. -/
def Dev.freshMemory (d : Dev) : Dev :=
  ((((d.loadRemap.setLimit d.limitFor).showMark 0).wr Fld.MEM_STATUS.ReservedKindled 0).wr Fld.MEM_STATUS.Kindled 0).setMemc
    (fun c => { c with sweepNext := 0, ceCols := [], ceSyms := [], reread := [], live := [], resent := [] })

theorem trainingDone_of_trained {ok good : Nat} (hg : ok &&& d.populated = good) (h0 : d.populated ≠ 0)
    (hok : good = d.populated) (hwas : d.memTrained = false) :
    d.trainingDone m ok = ((d.showTrained good).freshMemory, m.fresh) := by
  subst hg
  have hyes := memTrained_showTrained.mpr ⟨h0, hok⟩
  unfold Dev.trainingDone
  dsimp only
  exact (if_pos hyes).trans (if_neg (Bool.eq_false_iff.mp hwas))

theorem jobLimit_setLimit (n : Nat) : (d.setLimit n).jobLimit = n % 2 ^ 40 := by
  have hlo : (d.setLimit n).reg Adr.JOB_LIMITLO = BitVec.ofNat 32 n :=
    (reg_wr_ne _ _ (by decide)).trans (reg_setReg_same ..)
  have hhi : (d.setLimit n).rd Fld.JOB_LIMITHI.LimitHi = n / 2 ^ 32 % 2 ^ 8 := rd_wr_same _ _ _ rfl
  unfold Dev.jobLimit
  rw [hlo, hhi, BitVec.toNat_ofNat]
  omega

theorem jobLimit_wr {f : FieldRef} {v : Nat} (h1 : f.addr ≠ Adr.JOB_LIMITLO) (h2 : f.addr ≠ Adr.JOB_LIMITHI) (hf : f.ok = true) :
    (d.wr f v).jobLimit = d.jobLimit := by
  unfold Dev.jobLimit
  rw [reg_wr_ne _ _ h1.symm, rd_wr_ne _ _ _ _ hf (apart_of_addr h2)]

theorem jobLimit_showMark (w : Nat) : (d.showMark w).jobLimit = d.jobLimit := by
  unfold Dev.showMark
  rw [jobLimit_wr (by decide) (by decide) rfl, jobLimit_wr (by decide) (by decide) rfl]

theorem freshMemory_jobLimit : d.freshMemory.jobLimit = d.limitFor % 2 ^ 40 := by
  have hset (e : Dev) (f : MemCtl → MemCtl) : (e.setMemc f).jobLimit = e.jobLimit := rfl
  unfold Dev.freshMemory
  rw [hset, jobLimit_wr (by decide) (by decide) rfl, jobLimit_wr (by decide) (by decide) rfl, jobLimit_showMark,
    jobLimit_setLimit]

theorem freshMemory_kindled : d.freshMemory.rd Fld.MEM_STATUS.Kindled = 0 ∧
    d.freshMemory.rd Fld.MEM_STATUS.ReservedKindled = 0 := by
  have hset (e : Dev) (g : MemCtl → MemCtl) (f : FieldRef) : (e.setMemc g).rd f = e.rd f := rfl
  unfold Dev.freshMemory
  generalize (d.loadRemap.setLimit d.limitFor).showMark 0 = b
  constructor
  · rw [hset, rd_wr_same _ _ _ rfl]
    rfl
  · rw [hset, rd_wr_ne _ _ _ _ rfl rfl, rd_wr_same _ _ _ rfl]
    rfl

theorem freshMemory_memc : d.freshMemory.memc.sweepNext = 0 ∧ d.freshMemory.memc.live = [] := ⟨rfl, rfl⟩

theorem limitFor_showTrained (good : Nat) : (d.showTrained good).limitFor = d.limitFor := by
  have hsize : (d.showTrained good).installed = d.installed :=
    congrArg (· * 2 ^ 30) (rd_wr_ne d Fld.MEM_STATUS.TrainOk Fld.MEM_SIZE.GiB good rfl rfl)
  unfold Dev.limitFor
  rw [hsize]
  rfl

/-! ### Kindling (R407) -/

theorem kindleDone_of_ready (ht : d.memTrained = true) (hr : d.rd Fld.MEM_STATUS.ReservedKindled = 1)
    (hk : d.rd Fld.MEM_STATUS.Kindled = 0) :
    d.kindleDone m = (((d.wr Fld.MEM_STATUS.Kindled 1).showMark d.jobLimit).notice Nt.KindleDone [],
      { m with watermark := d.jobLimit, blocks := [] }) :=
  if_pos (by rw [ht, hr, hk]; rfl)

theorem kindlingOver_of_free (h : d.memc.emberHeld = false) : d.kindlingOver = d := if_neg (Bool.eq_false_iff.mp h)

theorem rd_showMark_kindled (w : Nat) : (d.showMark w).rd Fld.MEM_STATUS.Kindled = d.rd Fld.MEM_STATUS.Kindled := by
  unfold Dev.showMark
  rw [rd_wr_ne _ _ _ _ rfl rfl, rd_wr_ne _ _ _ _ rfl rfl]

theorem rd_bootPhase (f : FieldRef) : d.bootPhase.rd f = d.rd f := by
  unfold Dev.bootPhase
  split <;> rfl

theorem reservedKindled_of_trained (h : d.memTrained = true) : d.reservedKindled = d.wr Fld.MEM_STATUS.ReservedKindled 1 :=
  if_pos h

/-! ### Commands (R384, R385) -/

theorem zqCalibration_of_stopped (h : d.memRuns = false) : d.zqCalibration = d := if_neg (Bool.eq_false_iff.mp h)

theorem zqCalibration_of_running (h : d.memRuns = true) :
    d.zqCalibration = (allBelow 4 (fun c => d.populated.testBit c)).foldl (fun e c => e.dramCommand 1 c) d := if_pos h

theorem dramCommands_out : ∀ (L : List Nat) (d : Dev),
    L.foldl (fun e c => e.dramCommand 1 c) d = { d with out := d.out ++ L.map (Out.dramCommand 1) }
  | [], d => by rw [List.map_nil, List.append_nil, List.foldl_nil]
  | c :: L, d => by
    rw [List.foldl_cons, dramCommands_out L]
    simp [Dev.dramCommand, Dev.emit]

end

/-! ### A channel (R384 to R386) -/

section
variable {d : Dev} {c : Fin 4}

/-- A channel's commands while the memories run. -/
theorem channel_runs (hr : d.memRuns = true) (hp : d.populated.testBit c.val = true) :
    (d.memRuns && d.populated.testBit c.val) = true := by
  rw [hr, hp]
  rfl

theorem channel_stopped (h : d.memRuns = false ∨ d.populated.testBit c.val = false) :
    ¬ ((d.memRuns && d.populated.testBit c.val) = true) := by
  rcases h with h | h <;> simp [h]

section
variable (h : d.memRuns = false ∨ d.populated.testBit c.val = false)
include h

theorem refresh_of_stopped : d.refresh c = d := if_neg (channel_stopped h)
theorem alertN_of_stopped {accepted : Bool} : d.alertN c accepted = d := if_neg (channel_stopped h)
theorem tempPoll_of_stopped {range : BitVec 2} : d.tempPoll c range = d := if_neg (channel_stopped h)

end

/-- The replays of a channel. -/
def Dev.setReplays (d : Dev) (c : Fin 4) (k : Nat) : Dev :=
  d.setMemc (fun x => { x with replays := x.replays.set c.val k c.isLt })

/-- The cooler readings of a channel. -/
def Dev.setCool (d : Dev) (c : Fin 4) (k : Nat) : Dev := d.setMemc (fun x => { x with cool := x.cool.set c.val k c.isLt })

section
variable (hr : d.memRuns = true) (hp : d.populated.testBit c.val = true)
include hr hp

theorem refresh_of_running : d.refresh c = d.dramCommand 0 c.val := if_pos (channel_runs hr hp)

/-- R385: a replayed command counts, and the fourth in a row that is not accepted retrains the channel. -/
theorem alertN_of_running {accepted : Bool} {k : Nat} (hk : (if accepted then 0 else d.memc.replays[c] + 1) = k) :
    d.alertN c accepted =
      if 4 ≤ k then
        ((((((d.bump Fld.MEM_CAPCNT.Count).dramCommand 2 c.val).setReplays c 0).dramCommand 3 c.val).sticky
          Fld.MEM_ERR.CaParityFail).trouble Nt.CaParityFail [(1, c.val)])
      else ((d.bump Fld.MEM_CAPCNT.Count).dramCommand 2 c.val).setReplays c k := by
  subst hk
  exact if_pos (channel_runs hr hp)

/-- R386: a reading of a channel's temperature. -/
theorem tempPoll_of_running {range : BitVec 2} {hot : Nat} (hh : d.rd Fld.MEM_STATUS.Hot = hot) :
    d.tempPoll c range =
      if 2 ≤ range.toNat then
        ((d.wr (Fld.MEM_TEMP.Range c.val) range.toNat).wr Fld.MEM_STATUS.Hot (hot ||| 2 ^ c.val)).setCool c 0
      else if 2 ≤ d.memc.cool[c] + 1 ∧ hot.testBit c.val then
        ((d.wr (Fld.MEM_TEMP.Range c.val) range.toNat).setCool c (min 2 (d.memc.cool[c] + 1))).wr Fld.MEM_STATUS.Hot
          (hot - 2 ^ c.val)
      else (d.wr (Fld.MEM_TEMP.Range c.val) range.toNat).setCool c (min 2 (d.memc.cool[c] + 1)) := by
  have happart : ∀ c : Fin 4, (Fld.MEM_TEMP.Range c.val).apart Fld.MEM_STATUS.Hot = true := by decide
  have hrd : (d.wr (Fld.MEM_TEMP.Range c.val) range.toNat).rd Fld.MEM_STATUS.Hot = hot :=
    (rd_wr_ne _ _ _ _ rfl (happart c)).trans hh
  unfold Dev.tempPoll
  rw [if_pos (channel_runs hr hp), ← hrd]
  rfl

end
end
end Sys2Proof.Machine
end

section
open Sys2Proof Sys2Proof.Machine

/-- Settles O54. -/
theorem memoryTrainsKindlesAndReplays : Obligations.MemoryTrainsKindlesAndReplays := by
  refine ⟨fun s ok hr => ?training, fun s hr => ⟨fun ht hk h0 hh => ?kindled, fun ht => ?reserved, fun h => ?zq, fun h => ?still⟩,
    fun s c acc range hr => ⟨fun h => ?stopped, fun hm hp => ?running⟩⟩
  case training =>
    intro good d
    have hc {x y : Dev × Mem} (hx : s.dev.trainingDone s.mem ok.toNat = x) (hy : takeUpAll x = y) :
        Completes (.dramTrainingDone ok) s y.1 y.2 :=
      completes_live (f := fun d m => takeUpAll (d.trainingDone m ok.toNat)) hr rfl ((congrArg takeUpAll hx).trans hy)
    refine ⟨fun h => ?_, fun h0 hok hwas => ?_⟩
    · intro failed y
      have hy : takeUpAll (((d.sticky Fld.MEM_ERR.TrainFail).trouble Nt.DramTrainFail [(1, failed)]).setLimit 0, s.mem) = y := rfl
      clear_value y
      exact hc (trainingDone_of_failed rfl h) hy
    · refine ⟨(s.dev.showTrained good).freshMemory, hc (trainingDone_of_trained rfl h0 hok hwas) rfl, ?_, ?_⟩
      · rw [freshMemory_jobLimit, limitFor_showTrained]
      · obtain ⟨h1, h2⟩ := freshMemory_kindled (d := s.dev.showTrained good)
        exact ⟨h1, h2, freshMemory_memc⟩
  case kindled =>
    have he := kindleDone_of_ready (m := s.mem) ht hk h0
    have hfree : (((s.dev.wr Fld.MEM_STATUS.Kindled 1).showMark s.dev.jobLimit).notice Nt.KindleDone []).memc.emberHeld = false := by
      rw [notice_memc]
      exact hh
    refine ⟨_, completes_live (f := fun d m => ((d.kindleDone m).1.kindlingOver, (d.kindleDone m).2)) hr rfl
      (by rw [he, kindlingOver_of_free hfree]), ?_, rfl⟩
    rw [notice_rd _ _ _ _ (by decide), rd_showMark_kindled, rd_wr_same _ _ _ rfl]
    rfl
  case reserved =>
    refine ⟨_, completes_dev (f := fun d => (d.reservedKindled.restoreCounts).bootPhase) hr rfl rfl, ?_⟩
    rw [rd_bootPhase, reservedKindled_of_trained ht]
    exact rd_wr_same s.dev Fld.MEM_STATUS.ReservedKindled 1 rfl
  case zq =>
    refine ⟨_, completes_dev (f := Dev.zqCalibration) hr rfl ((zqCalibration_of_running h).trans (dramCommands_out _ _)), rfl,
      fun c hc => ?_⟩
    exact List.mem_append_right _ (List.mem_map_of_mem (List.mem_filter.mpr ⟨List.mem_range.mpr c.isLt, hc⟩))
  case still => exact completes_dev (f := Dev.zqCalibration) hr rfl (zqCalibration_of_stopped h)
  case stopped =>
    exact ⟨completes_dev (f := fun d => d.refresh c) hr rfl (refresh_of_stopped h),
      completes_dev (f := fun d => d.alertN c acc) hr rfl (alertN_of_stopped h),
      completes_dev (f := fun d => d.tempPoll c range) hr rfl (tempPoll_of_stopped h)⟩
  case running =>
    intro d count t cool hot
    have halert {acc : Bool} {e : Dev} (he : s.dev.alertN c acc = e) : Completes (.alertN c acc) s e s.mem :=
      completes_dev (f := fun d => d.alertN c acc) hr rfl he
    have htemp {e : Dev} (he : s.dev.tempPoll c range = e) : Completes (.tempPoll c range) s e s.mem :=
      completes_dev (f := fun d => d.tempPoll c range) hr rfl he
    have hpoll := tempPoll_of_running (range := range) hm hp rfl
    refine ⟨completes_dev (f := fun d => d.refresh c) hr rfl (refresh_of_running hm hp),
      halert ((alertN_of_running hm hp (k := 0) rfl).trans (if_neg (by decide))),
      fun hk => halert ((alertN_of_running hm hp rfl).trans (if_neg (show ¬ 4 ≤ s.dev.memc.replays[c] + 1 by omega))),
      fun hk => halert ((alertN_of_running hm hp rfl).trans (if_pos (show 4 ≤ s.dev.memc.replays[c] + 1 by omega))),
      fun h2 => htemp (hpoll.trans (if_pos h2)), fun h2 h0 => htemp ?_, fun h2 h1 hhot => htemp ?_⟩
    · refine hpoll.trans ((if_neg (not_le.mpr h2)).trans ((if_neg (fun e => ?_)).trans ?_))
      · have := e.1
        omega
      · rw [h0]
        rfl
    · have hmin : min 2 (s.dev.memc.cool[c] + 1) = 2 := by omega
      refine hpoll.trans ((if_neg (not_le.mpr h2)).trans ((if_pos ⟨by omega, hhot⟩).trans ?_))
      rw [hmin]
      rfl

end

section
/-!
SUPPORT. The roles of a pair (R306 to R317).
-/
namespace Sys2Proof.Machine

section
variable {d : Dev} {h : Hello}

/-! ### Becoming striker, keeper, Isolated or Solo -/

theorem announcePairOn_pair (p : Fin 4) : (d.announcePairOn p).pair = d.pair := by
  have hsend (e : Dev) (c : Prop) [Decidable c] (o : Out) : (if c then e else e.sendFrame p o).pair = e.pair := by
    split
    · rfl
    · exact sendFrame_pair ..
  exact (hsend ..).trans (hsend ..)

theorem announcePair_pair : d.announcePair.pair = d.pair :=
  foldl_keeps (fun e : Dev => e.pair = d.pair) Dev.announcePairOn (fun _ p he => (announcePairOn_pair p).trans he) hostPorts d rfl

theorem becomeStriker_pair (st : PairState) : (d.becomeStriker st).pair = { d.pair with
    role := .striker, state := st, driving := true, takePending := false, handedPorts := [], handoffAt := []
    partnerReady := 0#8, gap := false, lacking := [], dueStreams := [] } := announcePair_pair

theorem port_of_released {e : Dev} (he : e.hp = d.releasePorts.hp) {p : Nat} (hp : p < 64) : e.port p = (d.port p).released := by
  unfold Dev.port
  rw [he]
  unfold vgetD
  rw [dif_pos hp, dif_pos hp]
  exact Vector.getElem_map ..

/-- A keeper of no port drives none, and leaves STRK_OUT low. -/
theorem drives_of_keeper (hk : d.pair.role = .keeper) (hh : d.pair.handedPorts = []) (p : Nat) : d.roleDrives p = false := by
  unfold Dev.roleDrives Dev.isKeeper
  rw [hk, hh]
  rfl

theorem strkOut_of_keeper (hk : d.pair.role = .keeper) : d.strkOut = false := by
  unfold Dev.strkOut Dev.isKeeper
  rw [hk]
  rfl

/-- A keeper that is not Paired, or whose resynchronisation is not complete, is Ready on no plane. -/
theorem readyMask_of_behind (hk : d.pair.role = .keeper)
    (hb : (d.pair.resynced && decide (d.pair.state = .paired ∨ d.pair.state = .yielding)) = false) : d.readyMask = 0#8 := by
  unfold Dev.readyMask Dev.isKeeper
  rw [hk, hb]
  rfl

/-- R317: an Isolated device before its error flags. -/
def Dev.outOfPair (d : Dev) : Dev :=
  (d.releasePorts).setPair (fun p => { p with
    role := .keeper, state := .isolated, driving := false, takePending := false, soloChecks := 0, handedPorts := []
    handoffAt := [], validStore := p.resynced || p.validStore && !decide (d.pair.state = .syncing), begun := 0#8 })

theorem isolate_eq : d.isolate =
    if d.pair.state = .syncing then (d.outOfPair.sticky Fld.PAIR_ERR.Isolated).sticky Fld.PAIR_ERR.ResyncAbort
    else d.outOfPair.sticky Fld.PAIR_ERR.Isolated := by
  by_cases hs : d.pair.state = .syncing
  · exact (if_pos (decide_eq_true hs)).trans (if_pos hs).symm
  · exact (if_neg (by rw [decide_eq_false hs]; decide)).trans (if_neg hs).symm

theorem isolate_parts : d.isolate.pair = d.outOfPair.pair ∧ d.isolate.hp = d.releasePorts.hp := by
  rw [isolate_eq]
  split <;> exact ⟨rfl, rfl⟩

theorem isolate_error : d.isolate.rd Fld.PAIR_ERR.Isolated = 1 := by
  rw [isolate_eq]
  split
  · rw [rd_sticky_ne _ _ _ rfl rfl, rd_sticky_same _ _ rfl]
  · exact rd_sticky_same _ _ rfl

theorem isolate_abort (hs : d.pair.state = .syncing) : d.isolate.rd Fld.PAIR_ERR.ResyncAbort = 1 := by
  rw [isolate_eq, if_pos hs]
  exact rd_sticky_same _ _ rfl

/-! ### Hellos (R310 to R312) -/

theorem helloMismatch_pair (a b : Nat) : (d.helloMismatch a b).pair = d.pair := by
  unfold Dev.helloMismatch
  split
  · rfl
  · rw [noticeTrouble_pair]
    rfl

theorem helloMismatch_differs {a b : Nat} (hab : a ≠ b) : (d.helloMismatch a b).rd Fld.PAIR_ERR.CfgMismatch = 1 := by
  unfold Dev.helloMismatch
  rw [if_neg hab, noticeTrouble_rd _ _ _ _ (by decide), rd_sticky_same _ _ rfl]

theorem helloMismatch_keeps {a b : Nat} (hd : d.rd Fld.PAIR_ERR.CfgMismatch = 1) :
    (d.helloMismatch a b).rd Fld.PAIR_ERR.CfgMismatch = 1 := by
  by_cases hab : a = b
  · unfold Dev.helloMismatch
    rw [if_pos hab]
    exact hd
  · exact helloMismatch_differs hab

/-- The partner's state as its hello tells it. -/
def Dev.hearsHello (d : Dev) (h : Hello) : Dev := d.setPair (fun p => { p with partnerState := h.state })

/-- R311: a hello whose settings have been compared. -/
def Dev.compared (d : Dev) (h : Hello) : Dev :=
  let x := (d.hearsHello h).helloMismatch ((d.hearsHello h).rd Fld.PAIR_CFG.Prefer) h.prefer
  (x.helloMismatch (x.rd Fld.PAIR_CFG.JoinWait) h.joinWait).rolesSettled

theorem compared_pair : (d.compared h).pair = (d.hearsHello h).pair := (helloMismatch_pair ..).trans (helloMismatch_pair ..)

theorem compared_mismatch (hp : d.rd Fld.PAIR_CFG.Prefer ≠ h.prefer) : (d.compared h).rd Fld.PAIR_ERR.CfgMismatch = 1 :=
  helloMismatch_keeps (helloMismatch_differs hp)

/-- R310 to R312: what a hello of the other device does once its settings have been compared. -/
def Dev.answerHello (d : Dev) (h : Hello) : Dev :=
  match d.pair.state with
  | .negotiating => if helloStarting h then d.settleByPrefer h else d.becomeKeeper
  | .isolated =>
    if helloStarting h then (if d.pair.validStore then d.strikerFromIsolated else d.emptyJob.settleByPrefer h)
    else if h.state = 4 then d
    else d.becomeKeeper
  | .solo => d.setPair (fun p => { p with state := .paired })
  | _ => d

theorem answerHello_of_negotiating (hs : d.pair.state = .negotiating) :
    d.answerHello h = if helloStarting h then d.settleByPrefer h else d.becomeKeeper := by
  unfold Dev.answerHello
  simp only [hs]

theorem answerHello_of_isolated (hs : d.pair.state = .isolated) :
    d.answerHello h = if helloStarting h then
        (if d.pair.validStore then d.strikerFromIsolated else d.emptyJob.settleByPrefer h)
      else if h.state = 4 then d else d.becomeKeeper := by
  unfold Dev.answerHello
  simp only [hs]

theorem answerHello_of_solo (hs : d.pair.state = .solo) :
    d.answerHello h = d.setPair (fun p => { p with state := .paired }) := by
  unfold Dev.answerHello
  simp only [hs]

theorem answerHello_of_other (h1 : d.pair.state ≠ .negotiating) (h2 : d.pair.state ≠ .isolated) (h3 : d.pair.state ≠ .solo) :
    d.answerHello h = d := by
  unfold Dev.answerHello
  split
  · next hs => exact absurd hs h1
  · next hs => exact absurd hs h2
  · next hs => exact absurd hs h3
  · rfl

section
variable (hm : d.pair.mode = true) (hf : d.failed = false) (hl : d.pair.locked = false)
include hm hf hl

theorem hello_open : ¬ ((!d.pair.mode || d.failed || d.pair.locked) = true) := by
  rw [hm, hf, hl]
  decide

/-- R310: two devices of one number. -/
theorem hello_of_conflict (hn : h.number % 2 = d.devNum % 2) :
    d.hello h = (((((d.hearsHello h).isolate).setPair (fun p => { p with locked := true })).sticky
      Fld.PAIR_ERR.DevselConflict).noticeTrouble Nt.PairConflict []).rolesSettled :=
  (if_neg (hello_open hm hf hl)).trans (if_pos hn)

theorem hello_of_partner (hn : h.number % 2 ≠ d.devNum % 2) : d.hello h = (d.compared h).answerHello h := by
  unfold Dev.hello
  rw [if_neg (hello_open hm hf hl)]
  exact if_neg hn

theorem startsEmpty_of_isolated (hn : h.number % 2 ≠ d.devNum % 2) (hi : d.pair.state = .isolated) :
    d.startsEmpty h = (helloStarting h && !d.pair.validStore) := by
  unfold Dev.startsEmpty
  rw [hm, hf, hl, decide_eq_true ⟨hn, hi⟩]
  rfl

omit hm hf hl in
theorem startsEmpty_of_other (ho : h.number % 2 = d.devNum % 2 ∨ d.pair.state ≠ .isolated) : d.startsEmpty h = false := by
  have hno : decide (h.number % 2 ≠ d.devNum % 2 ∧ d.pair.state = .isolated) = false := by
    refine decide_eq_false ?_
    rintro ⟨h1, h2⟩
    rcases ho with ho | ho
    · exact h1 ho
    · exact ho h2
  unfold Dev.startsEmpty
  rw [hno]
  simp

end
end

/-! ### Roles by Prefer -/

section
variable {d : Dev} {m : Mem} {h : Hello}

theorem settleByPrefer_role : (d.settleByPrefer h).pair.role =
    if (if d.devNum % 2 = 0 then d.rd Fld.PAIR_CFG.Prefer else h.prefer) = d.devNum % 2 then .striker else .keeper := by
  have he : d.settleByPrefer h =
      if (if d.devNum % 2 = 0 then d.rd Fld.PAIR_CFG.Prefer else h.prefer) = d.devNum % 2 then d.becomeStriker .paired
      else d.becomeKeeper := rfl
  rw [he]
  generalize (if d.devNum % 2 = 0 then d.rd Fld.PAIR_CFG.Prefer else h.prefer) = x
  split
  · rw [becomeStriker_pair]
  · rfl

/-! ### Timers and STRK_IN (R307, R310, R311, R316) -/

theorem joinWaitExpiry_of_negotiating (hm : d.pair.mode = true) (hs : d.pair.state = .negotiating) :
    d.joinWaitExpiry = (if d.pair.strkIn then d.isolate else d.goSolo).rolesSettled :=
  if_pos (by rw [hm, hs]; rfl)

theorem soloResample_of_idle {level : Bool} (hi : d.pair.soloChecks = 0 ∨ d.pair.state ≠ .solo) : d.soloResample level = d :=
  if_pos hi

section
variable (hs : d.pair.state = .solo) (hc : 1 ≤ d.pair.soloChecks)
include hs hc

theorem solo_open : ¬ (d.pair.soloChecks = 0 ∨ d.pair.state ≠ .solo) := by
  rintro (h0 | h0)
  · omega
  · exact h0 hs

theorem soloResample_of_low : d.soloResample false = d.setPair (fun p => { p with soloChecks := 0 }) :=
  if_neg (solo_open hs hc)

theorem soloResample_of_high : d.soloResample true =
    if 2 ≤ d.pair.soloChecks then d.setPair (fun p => { p with soloChecks := 1 }) else d.isolate :=
  if_neg (solo_open hs hc)

end

theorem strkInChange_of_high : d.strkInChange true =
    if d.pair.role = .striker then
      ((d.setPair (fun p => { p with strkIn := true })).sticky Fld.PAIR_ERR.StrkConflict).notice Nt.StrkConflict []
    else d.setPair (fun p => { p with strkIn := true }) := rfl

theorem strkInChange_of_low : d.strkInChange false =
    if d.pair.takePending then
      (if d.isKeeper then (d.setPair (fun p => { p with strkIn := false })).takeLines .solo 0
        else (d.setPair (fun p => { p with strkIn := false })).setPair (fun p => { p with driving := true, takePending := false }))
    else d.setPair (fun p => { p with strkIn := false }) := rfl

/-! ### Heartbeats (R313 to R317) -/

theorem heartbeatSend_of_single (hm : d.pair.mode = false) : d.heartbeatSend = d := if_pos (by rw [hm]; rfl)

theorem heartbeatSend_of_pair (hm : d.pair.mode = true) (hr : d.boot.inReset = false) (hf : d.failed = false) :
    d.heartbeatSend =
      let own := d.emit (.pair (.heartbeat ⟨d.pair.state.code, d.readyMask, BitVec.ofNat 32 (d.rd Fld.PAIR_MISCNT.Count)⟩))
      if d.pair.role = .striker then own.emit (.pair (.time d.now)) else own :=
  if_neg (by rw [hm, hr, hf]; decide)

/-- R313: what a heartbeat tells of the partner. -/
def Dev.hearsBeat (d : Dev) (b : Heartbeat) : Dev :=
  d.setPair (fun p => { p with
    partnerState := b.state, partnerReady := if p.role = .striker then b.ready else p.partnerReady })

theorem heartbeat_of_single {b : Heartbeat} (hm : d.pair.mode = false) : d.heartbeat b = d := if_pos (by rw [hm]; rfl)

section
variable {b : Heartbeat} (hm : d.pair.mode = true)
include hm

theorem pair_open : ¬ ((!d.pair.mode) = true) := by
  rw [hm]
  decide

theorem heartbeat_of_isolated (hs : d.pair.state = .isolated) (hl : d.pair.locked = false)
    (hb : b.state = 1 ∨ b.state = 2 ∨ b.state = 8) : d.heartbeat b = (d.hearsBeat b).becomeKeeper := by
  have hs' : (d.hearsBeat b).pair.state = .isolated := hs
  have hgo : (!(d.hearsBeat b).pair.locked && (b.state == 1 || b.state == 2 || b.state == 8)) = true := by
    rw [show (d.hearsBeat b).pair.locked = false from hl]
    rcases hb with e | e | e <;> rw [e] <;> rfl
  unfold Dev.heartbeat
  rw [if_neg (pair_open hm)]
  extract_lets e
  have he : e = d.hearsBeat b := rfl
  clear_value e
  subst he
  simp only [hs', hgo, if_true]

theorem heartbeat_of_solo (hs : d.pair.state = .solo) (hb : b.state = 3) :
    d.heartbeat b = (d.hearsBeat b).setPair (fun p => { p with state := .paired }) := by
  have hs' : (d.hearsBeat b).pair.state = .solo := hs
  unfold Dev.heartbeat
  rw [if_neg (pair_open hm)]
  extract_lets e
  have he : e = d.hearsBeat b := rfl
  clear_value e
  subst he
  simp only [hs', hb, if_true]

theorem heartbeat_of_other (h1 : d.pair.state ≠ .isolated) (h2 : d.pair.state ≠ .solo) : d.heartbeat b = d.hearsBeat b := by
  unfold Dev.heartbeat
  rw [if_neg (pair_open hm)]
  dsimp only
  split
  · next hs => exact absurd hs h1
  · next hs => exact absurd hs h2
  · rfl

theorem heartbeatLoss_of_pair : d.heartbeatLoss =
    (d.wr Fld.PAIR_HBMISS.Count (d.rd Fld.PAIR_HBMISS.Count + 3)).partnerLost := if_pos hm

end

theorem partnerLost_of_alone (hs : d.pair.state = .syncing ∨ d.pair.state = .suspect ∨ d.pair.state = .selfTest) :
    d.partnerLost = d.reportLost.isolate := by
  unfold Dev.partnerLost
  rcases hs with e | e | e <;> simp only [e]

/-- R316, Table 64: a Paired or Yielding device that has lost its partner. -/
theorem partnerLost_of_paired {r : Dev} (hr : d.reportLost = r) (hs : d.pair.state = .paired ∨ d.pair.state = .yielding) :
    d.partnerLost =
      if r.pair.role = .striker then
        (let e := r.setPair (fun p => { p with
          state := .solo, handedPorts := [], handoffAt := [], mirrors := p.mirrors.map (fun m => { m with left := 0 }) })
         if r.pair.handedPorts = [] then e else e.tookPorts r.pair.handedPorts)
      else if r.readyBusy || decide (r.pair.state = .yielding) then
        (if r.pair.strkIn then r.setPair (fun p => { p with takePending := true }) else r.takeLines .solo 0)
      else r.isolate := by
  subst hr
  unfold Dev.partnerLost
  rcases hs with e | e <;> simp only [e]

end
end Sys2Proof.Machine
end

section
open Sys2Proof Sys2Proof.Machine

/-- Settles O56. The emptied job and memory (log 157) and the no-ops of a resample and of the wait's expiry (log 17) are the
model's choices. -/
theorem pairRolesAreSettledAndLost : Obligations.PairRolesAreSettledAndLost := by
  refine ⟨fun d st => ?striker, fun d => ?keeper, fun d => ?isolated, fun s h hr hm hf hl => ?hello,
    fun d m a => ⟨rfl, rfl, rfl, rfl, rfl, rfl, rfl, rfl, rfl⟩, fun d h => settleByPrefer_role, fun s level hr => ?strkIn,
    fun s b hr => ?heartbeat⟩
  case striker =>
    rw [becomeStriker_pair]
    exact ⟨rfl, rfl, rfl, rfl, rfl⟩
  case keeper =>
    exact ⟨rfl, rfl, rfl, rfl, strkOut_of_keeper rfl, readyMask_of_behind rfl rfl,
      fun p hp => ⟨port_of_released rfl hp, drives_of_keeper rfl rfl p⟩⟩
  case isolated =>
    obtain ⟨hpair, hports⟩ := isolate_parts (d := d)
    have hrole : d.isolate.pair.role = .keeper := by rw [hpair]; rfl
    have hstate : d.isolate.pair.state = .isolated := by rw [hpair]; rfl
    have hhanded : d.isolate.pair.handedPorts = [] := by rw [hpair]; rfl
    exact ⟨hrole, hstate, by rw [hpair]; rfl, strkOut_of_keeper hrole,
      readyMask_of_behind hrole (by rw [hstate, decide_eq_false (by decide), Bool.and_false]), isolate_error, isolate_abort,
      fun p hp => ⟨port_of_released hports hp, drives_of_keeper hrole hhanded p⟩⟩
  case hello =>
    intro d x e
    have he : e = s.dev.compared h := rfl
    have hpair : e.pair = d.pair := compared_pair
    clear_value e
    subst he
    have hc {f : Dev} {m : Mem} (hf : s.dev.hello h = f) (hm : (if s.dev.startsEmpty h then s.mem.emptied else s.mem) = m) :
        Completes (.hello h) s f.bootPhase m :=
      completes_live (f := fun d m => ((d.hello h).bootPhase, if d.startsEmpty h then m.emptied else m)) hr rfl
        (by rw [hf, hm])
    refine ⟨fun hn => ?conflict, fun hn => ⟨hpair, fun hp => compared_mismatch hp, ?partner⟩⟩
    case conflict =>
      exact hc (hello_of_conflict hm hf hl hn) (by rw [startsEmpty_of_other (d := s.dev) (.inl hn)]; rfl)
    case partner =>
      have hh := hello_of_partner hm hf hl hn
      have hkeep (ho : d.pair.state ≠ .isolated) : (if s.dev.startsEmpty h then s.mem.emptied else s.mem) = s.mem := by
        rw [startsEmpty_of_other (d := s.dev) (.inr ho)]
        rfl
      have hst {st : PairState} (hs : d.pair.state = st) : (s.dev.compared h).pair.state = st := by rw [hpair]; exact hs
      have hempty (hi : d.pair.state = .isolated) : (if s.dev.startsEmpty h then s.mem.emptied else s.mem) =
          if (helloStarting h && !d.pair.validStore) = true then s.mem.emptied else s.mem := by
        rw [startsEmpty_of_isolated hm hf hl hn hi]
        rfl
      refine ⟨fun hs h1 => ?_, fun hs h1 => ?_, fun hs h1 hv => ?_, fun hs h1 hv => ?_, fun hs h1 h4 => ?_, fun hs => ?_,
        fun h1 h2 h3 => ?_⟩
      · exact hc (hh.trans ((answerHello_of_negotiating (hst hs)).trans (if_pos h1))) (hkeep (by rw [hs]; decide))
      · exact hc (hh.trans ((answerHello_of_negotiating (hst hs)).trans (if_neg (Bool.eq_false_iff.mp h1))))
          (hkeep (by rw [hs]; decide))
      · refine hc (hh.trans ((answerHello_of_isolated (hst hs)).trans ((if_pos h1).trans (if_pos ?_)))) ?_
        · rw [hpair]
          exact hv
        · rw [hempty hs, h1, hv]
          rfl
      · refine hc (hh.trans ((answerHello_of_isolated (hst hs)).trans ((if_pos h1).trans (if_neg ?_)))) ?_
        · rw [hpair, hv]
          decide
        · rw [hempty hs, h1, hv]
          rfl
      · refine hc (hh.trans ((answerHello_of_isolated (hst hs)).trans
          ((if_neg (Bool.eq_false_iff.mp h1)).trans (if_neg h4)))) ?_
        rw [hempty hs, h1]
        rfl
      · exact hc (hh.trans (answerHello_of_solo (hst hs))) (hkeep (by rw [hs]; decide))
      · exact hc (hh.trans (answerHello_of_other (by rw [hpair]; exact h1) (by rw [hpair]; exact h2) (by rw [hpair]; exact h3)))
          (hkeep h2)
  case strkIn =>
    intro d
    have hjoin {e : Dev} (he : s.dev.joinWaitExpiry = e) : Completes .joinWaitExpiry s e.bootPhase s.mem :=
      completes_dev (f := fun d => d.joinWaitExpiry.bootPhase) hr rfl (congrArg Dev.bootPhase he)
    have hsolo {l : Bool} {e : Dev} (he : s.dev.soloResample l = e) : Completes (.soloResample l) s e s.mem :=
      completes_dev (f := fun d => d.soloResample l) hr rfl he
    have hin {e : Dev} (he : s.dev.strkInChange level = e) : Completes (.strkInChange level) s e s.mem :=
      completes_dev (f := fun d => d.strkInChange level) hr rfl he
    have hwait {e : Dev} (he : s.dev.strkInWaitExpiry = e) : Completes .strkInWaitExpiry s e s.mem :=
      completes_dev (f := Dev.strkInWaitExpiry) hr rfl he
    refine ⟨fun hm hs => ⟨fun hi => hjoin ?_, fun hi => hjoin ?_⟩, fun hs hc => ⟨hsolo (soloResample_of_low hs hc),
        fun h2 => hsolo ((soloResample_of_high hs hc).trans (if_pos h2)),
        fun h1 => hsolo ((soloResample_of_high hs hc).trans (if_neg (by omega)))⟩,
      fun hi => hsolo (soloResample_of_idle hi), fun hl hs => hin ?_, fun hx => hin ?_,
      fun hl ht => ⟨fun hk => hin ?_, fun hk => hin ?_⟩, fun ht hk => hwait (if_pos (by rw [ht, hk]; rfl)),
      fun hx => hwait (if_neg ?_)⟩
    · rw [joinWaitExpiry_of_negotiating hm hs, if_pos hi]
    · rw [joinWaitExpiry_of_negotiating hm hs, if_neg (Bool.eq_false_iff.mp hi)]
    · subst hl
      exact strkInChange_of_high.trans (if_pos hs)
    · rcases hx with ⟨hl, hs⟩ | ⟨hl, ht⟩ <;> subst hl
      · exact strkInChange_of_high.trans (if_neg hs)
      · exact strkInChange_of_low.trans (if_neg (Bool.eq_false_iff.mp ht))
    · subst hl
      exact strkInChange_of_low.trans ((if_pos ht).trans (if_pos hk))
    · subst hl
      exact strkInChange_of_low.trans ((if_pos ht).trans (if_neg (Bool.eq_false_iff.mp hk)))
    · rcases hx with hx | hx <;> simp [hx]
  case heartbeat =>
    intro own d l r
    have hsend {e : Dev} (he : s.dev.heartbeatSend = e) : Completes .heartbeatSend s e s.mem :=
      completes_dev (f := Dev.heartbeatSend) hr rfl he
    have hbeat {e : Dev} (he : s.dev.heartbeat b = e) : Completes (.heartbeat b) s e s.mem :=
      completes_dev (f := fun d => d.heartbeat b) hr rfl he
    have hloss {e : Dev} (he : s.dev.heartbeatLoss = e) : Completes .heartbeatLoss s e s.mem :=
      completes_dev (f := Dev.heartbeatLoss) hr rfl he
    have hl : l.pair = s.dev.pair := rfl
    refine ⟨fun hm => ⟨hsend (heartbeatSend_of_single hm), hbeat (heartbeat_of_single hm),
        hloss (if_neg (Bool.eq_false_iff.mp hm))⟩,
      fun hm hf => ⟨fun hs => hsend ((heartbeatSend_of_pair hm hr hf).trans (if_pos hs)),
        fun hs => hsend ((heartbeatSend_of_pair hm hr hf).trans (if_neg hs))⟩,
      fun hm => ⟨fun hs hk hb => hbeat (heartbeat_of_isolated hm hs hk hb), fun hs hb => hbeat (heartbeat_of_solo hm hs hb),
        fun h1 h2 => hbeat (heartbeat_of_other hm h1 h2),
        fun hs => hloss ((heartbeatLoss_of_pair hm).trans (partnerLost_of_alone hs)), fun hs => ?_⟩⟩
    have hp := (heartbeatLoss_of_pair hm).trans (partnerLost_of_paired (r := r) rfl hs)
    clear_value r
    refine ⟨fun hk => ?_, fun hk h1 h2 => hloss (hp.trans ((if_neg hk).trans (if_neg ?_))),
      fun hk h1 => ⟨fun hi => hloss (hp.trans ((if_neg hk).trans ((if_pos ?_).trans (if_pos hi)))),
        fun hi => hloss (hp.trans ((if_neg hk).trans ((if_pos ?_).trans (if_neg (Bool.eq_false_iff.mp hi)))))⟩⟩
    · intro e
      exact ⟨fun he => hloss (hp.trans ((if_pos hk).trans (if_pos he))),
        fun he => hloss (hp.trans ((if_pos hk).trans (if_neg he)))⟩
    · rw [h1, decide_eq_false h2]
      decide
    all_goals
      rcases h1 with h1 | h1 <;> simp [h1]

end

section
/-!
SUPPORT. The rally and its arbitration (R325 to R330).
-/
namespace Sys2Proof.Machine

section
variable {d : Dev} {a : ArbLine} {r own theirs : RallyRec} {n e : Nat}

/-! ### Records (R325, R327) -/

/-- R327: the partner's evidence taken for a line in arbitration. -/
def Dev.takeEvidence (d : Dev) (r : RallyRec) : Dev :=
  d.setPair (fun p => { p with
    arb := p.arb.map (fun a => if a.isLine r.plane.val r.event then { a with theirs := some r.evidence } else a) })

theorem rallyRecord_of_arbitrated (h : d.pair.arb.any (fun a => a.isLine r.plane.val r.event) = true) :
    d.rallyRecord r = (d.takeEvidence r).arbitrate r.plane.val r.event := if_pos h

section
variable (h : d.pair.arb.any (fun a => a.isLine r.plane.val r.event) = false)
include h

theorem rallyRecord_of_idle (hr : d.rallies r.plane.val = false) : d.rallyRecord r = d :=
  (if_neg (Bool.eq_false_iff.mp h)).trans (if_pos hr)

theorem rallyRecord_of_first (hr : d.rallies r.plane.val = true)
    (ho : d.pair.own.find? (fun o => decide (o.plane = r.plane) && decide (o.event = r.event)) = none) :
    d.rallyRecord r = d.setPair (fun p => { p with partner := p.partner ++ [r] }) := by
  have hno : ¬ (d.rallies r.plane.val = false) := by rw [hr]; decide
  unfold Dev.rallyRecord
  simp only [h, Bool.false_eq_true, if_false, if_neg hno, ho]

theorem rallyRecord_of_own {o : RallyRec} (hr : d.rallies r.plane.val = true)
    (ho : d.pair.own.find? (fun o => decide (o.plane = r.plane) && decide (o.event = r.event)) = some o) :
    d.rallyRecord r = d.compareRally o r := by
  have hno : ¬ (d.rallies r.plane.val = false) := by rw [hr]; decide
  unfold Dev.rallyRecord
  simp only [h, Bool.false_eq_true, if_false, if_neg hno, ho]

end

theorem find_takeEvidence (ha : d.pair.arb.find? (fun a => a.isLine r.plane.val r.event) = some a) :
    (d.takeEvidence r).pair.arb.find? (fun a => a.isLine r.plane.val r.event) =
      some { a with theirs := some r.evidence } := by
  have hline : a.isLine r.plane.val r.event = true :=
    List.find?_some (p := fun a : ArbLine => a.isLine r.plane.val r.event) ha
  have hcomp : ((fun x : ArbLine => x.isLine r.plane.val r.event) ∘ fun x : ArbLine =>
      if x.isLine r.plane.val r.event then { x with theirs := some r.evidence } else x) =
      fun x => x.isLine r.plane.val r.event := by
    funext x
    show ArbLine.isLine (if _ then _ else _) _ _ = _
    split
    · rfl
    · rfl
  show (d.pair.arb.map _).find? _ = _
  rw [List.find?_map, hcomp, ha]
  exact congrArg some (if_pos hline)

theorem arbitrated_of_find (ha : d.pair.arb.find? (fun a => a.isLine r.plane.val r.event) = some a) :
    d.pair.arb.any (fun a => a.isLine r.plane.val r.event) = true :=
  List.any_eq_true.mpr ⟨a, List.mem_of_find?_eq_some ha,
    List.find?_some (p := fun a : ArbLine => a.isLine r.plane.val r.event) ha⟩

/-- R327: the line is resolved once this device has stated its evidence too. -/
theorem arbitrate_of_both {x y : Bool} (ha : d.pair.arb.find? (fun a => a.isLine n e) = some a) (hx : a.mine = some x)
    (hy : a.theirs = some y) : d.arbitrate n e = d.resolve a x y := by
  unfold Dev.arbitrate
  simp only [ha, hx, hy]

theorem arbitrate_of_partner (ha : d.pair.arb.find? (fun a => a.isLine n e) = some a) (hx : a.mine = none) :
    d.arbitrate n e = d := by
  unfold Dev.arbitrate
  simp only [ha, hx]

/-! ### Table 67 (R328) -/

/-- R327: a line leaves arbitration. -/
def Dev.endArbitration (d : Dev) (a : ArbLine) : Dev :=
  d.setPair (fun p => { p with
    arb := p.arb.filter (fun x => !x.isLine a.plane a.event)
    evidence := p.evidence.filter (fun x => x != (a.plane, a.event)) })

/-- R329: an arbitrated line joins its plane's range. -/
def Dev.joinArbitrated (d : Dev) (a : ArbLine) : Dev :=
  (d.endArbitration a).joinRange a.plane a.event a.mask ((d.endArbitration a).pagesAt a.plane a.event a.pageId)

section
variable {mine other striker keeper : Bool} (hs : (if d.isKeeper then other else mine) = striker)
  (hk : (if d.isKeeper then mine else other) = keeper)
include hs hk

theorem resolve_eq : d.resolve a mine other =
    if keeper && !striker then d.endArbitration a
    else if striker && !keeper && (d.joinArbitrated a).readyBusy && decide ((d.joinArbitrated a).pair.state = .paired) then
      (if (d.joinArbitrated a).isKeeper then (d.joinArbitrated a).setPair (fun p => { p with handoffReason := 1 })
        else (d.joinArbitrated a).startHandoff 1)
    else d.joinArbitrated a := by
  subst hs hk
  rfl

theorem resolve_of_keeper (h1 : keeper = true) (h2 : striker = false) : d.resolve a mine other = d.endArbitration a :=
  (resolve_eq hs hk).trans (if_pos (by rw [h1, h2]; rfl))

theorem resolve_of_same (h1 : keeper = striker) : d.resolve a mine other = d.joinArbitrated a :=
  (resolve_eq hs hk).trans ((if_neg (by rw [h1]; cases striker <;> decide)).trans
    (if_neg (by rw [h1]; cases striker <;> simp)))

theorem resolve_of_striker (h1 : keeper = false) (h2 : striker = true) (hb : (d.joinArbitrated a).readyBusy = true)
    (hp : (d.joinArbitrated a).pair.state = .paired) (hn : (d.joinArbitrated a).isKeeper = false) :
    d.resolve a mine other = (d.joinArbitrated a).startHandoff 1 :=
  (resolve_eq hs hk).trans ((if_neg (by rw [h1]; simp)).trans ((if_pos (by rw [h1, h2, hb, hp]; rfl)).trans
    (if_neg (Bool.eq_false_iff.mp hn))))

theorem resolve_of_unready (h1 : keeper = false) (hb : (d.joinArbitrated a).readyBusy = false) :
    d.resolve a mine other = d.joinArbitrated a :=
  (resolve_eq hs hk).trans ((if_neg (by rw [h1]; simp)).trans (if_neg (by rw [hb]; simp)))

end

/-! ### Comparison (R325) -/

/-- R325: both records of a line are taken out of what is held. -/
def Dev.takeRecords (d : Dev) (own : RallyRec) : Dev :=
  d.setPair (fun p => { p with
    own := p.own.filter (fun r => !(decide (r.plane = own.plane) && decide (r.event = own.event)))
    partner := p.partner.filter (fun r => !(decide (r.plane = own.plane) && decide (r.event = own.event))) })

theorem compareRally_eq {y : Dev} (hy : d.takeRecords own = y) : d.compareRally own theirs =
    if y.differing own.plane.val own theirs = 0 then y.matchingLine own.plane.val
    else (((y.bump Fld.PAIR_MISCNT.Count).setPair (fun q => { q with
      arb := q.arb ++ [⟨own.plane.val, own.event, y.differing own.plane.val own theirs, own.pageId, none, none⟩] })).stateKnown
        own.plane.val 0).judgeSuspect own.plane.val own.event := by
  subst hy
  rfl

theorem differing_of_equal (h : own.lcvs = theirs.lcvs) : d.differing n own theirs = 0 := by
  refine Nat.eq_of_testBit_eq (fun i => ?_)
  unfold Dev.differing
  rw [testBit_maskOf, h, Nat.zero_testBit]
  simp

theorem differing_of_port {p : Nat} (hp : p < 64) (hm : p ∈ d.portsOf n)
    (hd : own.lcvs.getD (p - (d.range n).1) 0#32 ≠ theirs.lcvs.getD (p - (d.range n).1) 0#32) :
    d.differing n own theirs ≠ 0 := by
  intro h0
  have hbit : (d.differing n own theirs).testBit p = true := by
    unfold Dev.differing
    rw [testBit_maskOf, decide_eq_true hp, List.contains_iff_mem.mpr hm, decide_eq_true hd]
    rfl
  rw [h0, Nat.zero_testBit] at hbit
  cases hbit

/-! ### A record that does not come (R325) -/

/-- This device's own record of a line. -/
def isRecord (plane : Fin 8) (event : Nat) (r : RallyRec) : Bool := decide (r.plane = plane) && decide (r.event = event)

theorem isRecord_val (plane : Fin 8) (event : Nat) :
    (fun r : RallyRec => decide (r.plane.val = plane.val) && decide (r.event = event)) = isRecord plane event := by
  funext r
  unfold isRecord
  rw [decide_eq_decide.mpr Fin.ext_iff]

theorem rallyWaitExpiry_eq (plane : Fin 8) (event : Nat) : d.rallyWaitExpiry plane.val event =
    if d.pair.own.any (isRecord plane event) then
      ((d.setPair (fun p => { p with own := p.own.filter (fun r => !isRecord plane event r) })).bump
        Fld.PAIR_MISSCNT.Count).sticky Fld.PAIR_ERR.RallyMissing
    else d := by
  unfold Dev.rallyWaitExpiry
  extract_lets mine
  have hmine : mine = isRecord plane event := isRecord_val plane event
  clear_value mine
  subst hmine
  rfl

end
end Sys2Proof.Machine
end

section
open Sys2Proof Sys2Proof.Machine

/-- Settles O58. That a wait's expiry with no record of the device's own changes nothing is the model's choice (log 17). -/
theorem rallyIsComparedAndArbitrated : Obligations.RallyIsComparedAndArbitrated := by
  refine ⟨fun s r hr => ?record, fun d a mine theirs => ?resolve, fun d own theirs => ?compare, fun s plane event hr => ?expiry⟩
  case record =>
    intro n e
    have hc {f : Dev} (he : s.dev.rallyRecord r = f) : Completes (.rallyRecord r) s f s.mem :=
      completes_dev (f := fun d => d.rallyRecord r) hr rfl he
    have he : e = s.dev.takeEvidence r := rfl
    clear_value e
    subst he
    refine ⟨fun h => ⟨fun hn => hc (rallyRecord_of_idle h hn), fun hn ho => hc (rallyRecord_of_first h hn ?_),
        fun o hn ho => hc (rallyRecord_of_own h hn ho)⟩,
      fun a x ha hx => hc ((rallyRecord_of_arbitrated (arbitrated_of_find ha)).trans
        (arbitrate_of_both (find_takeEvidence ha) hx rfl)),
      fun a ha hx => hc ((rallyRecord_of_arbitrated (arbitrated_of_find ha)).trans
        (arbitrate_of_partner (find_takeEvidence ha) hx))⟩
    refine List.find?_eq_none.mpr (fun o hmem hd => ho o hmem ?_)
    simpa using hd
  case resolve =>
    intro striker keeper y z
    exact ⟨fun h1 h2 => resolve_of_keeper rfl rfl h1 h2, fun h1 => resolve_of_same rfl rfl h1,
      fun h1 h2 hb hp hn => resolve_of_striker rfl rfl h1 h2 hb hp hn, fun h1 _ hb => resolve_of_unready rfl rfl h1 hb⟩
  case compare =>
    intro same y
    exact ⟨fun h => (compareRally_eq (y := y) rfl).trans (if_pos (differing_of_equal h)),
      fun p hp hm hd => (compareRally_eq (y := y) rfl).trans (if_neg (differing_of_port hp hm hd))⟩
  case expiry =>
    intro mine
    have hc {f : Dev} (he : s.dev.rallyWaitExpiry plane.val event = f) : Completes (.rallyWaitExpiry plane event) s f s.mem :=
      completes_dev (f := fun d => d.rallyWaitExpiry plane.val event) hr rfl he
    refine ⟨fun h => hc ((rallyWaitExpiry_eq plane event).trans (if_neg (Bool.eq_false_iff.mp h))),
      fun h => ⟨_, hc ((rallyWaitExpiry_eq plane event).trans (if_pos h)), rfl, ?_, rd_sticky_same _ _ rfl⟩⟩
    rw [rd_sticky_ne _ _ _ rfl rfl, Dev.bump, rd_wr_same _ _ _ rfl]
    rfl

end

section
/-!
SUPPORT. Messages over the Igmal link (R98, R120, R177, R318 to R322, R338 to R340).
-/
namespace Sys2Proof.Machine

/-! ### A line written whole (R319) -/

section
variable {m : Mem}

theorem length_padTo (n : Nat) (bs : Bytes) : (padTo n bs).length = n := by
  simp only [padTo, sliceB, List.drop_zero, List.length_append, List.length_take, List.length_replicate]
  omega

/-- A line padded to its length reads as the bytes given, and zeros. -/
theorem getD_padTo {n i : Nat} (bs : Bytes) (h : i < n) : (padTo n bs).getD i 0#8 = bs.getD i 0#8 := by
  simp only [padTo, sliceB, List.drop_zero, List.getD_eq_getElem?_getD]
  by_cases hi : i < bs.length
  · rw [List.getElem?_append_left (by simp only [List.length_take]; omega), List.getElem?_take_of_lt h]
  · rw [List.getElem?_append_right (by simp only [List.length_take]; omega), List.getElem?_replicate,
      List.getElem?_eq_none (by omega)]
    split <;> rfl

theorem mem_insNat {a b : Nat} : ∀ {l : List Nat}, b ∈ insNat a l ↔ b = a ∨ b ∈ l
  | [] => by simp [insNat]
  | k :: l => by
    unfold insNat
    split
    · simp
    · split
      · next h => subst h; simp
      · simp only [List.mem_cons, mem_insNat (l := l)]
        tauto

theorem contains_heal (sec line : Nat) : (m.heal sec line).poison.contains line = false := by
  unfold Mem.heal
  split
  · simp [delNat]
  · next h => simpa using h

theorem contains_putLine (sec line : Nat) (bs : Bytes) (bad : Bool) : (m.putLine sec line bs bad).poison.contains line = bad := by
  unfold Mem.putLine
  dsimp only
  cases bad
  · exact contains_heal ..
  · exact List.contains_iff_mem.mpr (mem_insNat.mpr (.inl rfl))

theorem byte_putLine (sec line a : Nat) (bs : Bytes) (bad : Bool) :
    (m.putLine sec line bs bad).byte a = if line ≤ a ∧ a < line + 64 then bs.getD (a - line) 0#8 else m.byte a := by
  have hlen : (padTo 64 bs).length = 64 := length_padTo ..
  have hbyte : (m.putLine sec line bs bad).byte a = ((m.block line).write line (padTo 64 bs)).byte a := by
    unfold Mem.putLine
    cases bad <;> simp
  rw [hbyte, Mem.byte_write, hlen, Mem.byte_block]
  split
  · next h => exact getD_padTo bs (by omega)
  · rfl

end

/-! ### Messages that need the job store -/

section
variable {s : State} {d : Dev} {m : Mem}

theorem storeMessage_of_stopped {i : Instr} {f : Dev → Mem → Dev × Mem} (h : d.memRuns = false) :
    storeMessage i f d m = ((d.wake 5 8).holdFrame i, m) := if_neg (Bool.eq_false_iff.mp h)

theorem storeMessage_of_running {i : Instr} {f : Dev → Mem → Dev × Mem} (h : d.memRuns = true) :
    storeMessage i f d m = f d m := if_pos h

/-- A keeper of a pair, or not. -/
theorem keeper_acts (hm : d.pair.mode = true) (hk : d.isKeeper = true) : (d.pair.mode && d.isKeeper) = true := by
  rw [hm, hk]
  rfl

theorem keeper_idle (h : d.pair.mode = false ∨ d.isKeeper = false) : ¬ ((d.pair.mode && d.isKeeper) = true) := by
  rcases h with h | h <;> simp [h]

theorem resyncData_of_syncing {x : ResyncItem} (hm : d.pair.mode = true) (hs : d.pair.state = .syncing) :
    resyncData d m x = resyncItem d m x := if_pos (by rw [hm, hs]; rfl)

theorem resyncData_of_late {x : StreamSt} (hm : d.pair.mode = true) (hk : d.isKeeper = true) :
    resyncData d m (.stream x) = (d.takeStream x, m) := if_pos (by rw [hm, hk]; simp [lateItem])

theorem lateItem_of_other {x : ResyncItem} (h : ∀ y, x ≠ .stream y) : lateItem x = false := by
  cases x
  case stream y => exact absurd rfl (h y)
  all_goals rfl

theorem resyncData_of_idle {x : ResyncItem} (hm : d.pair.mode = false ∨ d.pair.state ≠ .syncing)
    (hk : d.isKeeper = false ∨ ∀ y, x ≠ .stream y) : resyncData d m x = (d, m) := by
  refine if_neg ?_
  have hlate : (d.isKeeper && lateItem x) = false := by
    rcases hk with hk | hk
    · rw [hk]
      rfl
    · rw [lateItem_of_other hk, Bool.and_false]
  rw [hlate]
  rcases hm with hm | hm
  · simp [hm]
  · simp [hm]

theorem takeStream_of_new {x : StreamSt} (h : d.stream x.number = none) :
    d.takeStream x = (d.setStream x).haveStream x.number := if_neg (by rw [h]; decide)

theorem takeStream_of_known {x : StreamSt} (h : (d.stream x.number).isSome = true) : d.takeStream x = d := if_pos h

/-! ### Repair (R338) -/

section
variable {line : Nat} {finds : Finds}

theorem repairRequest_of_single (hm : d.pair.mode = false) : d.repairRequest m line finds = d := if_pos (by rw [hm]; rfl)

theorem repairRequest_of_good (hm : d.pair.mode = true) (hb : m.bad finds line = false)
    (hf : foundAs finds .corrected line = false) :
    d.repairRequest m line finds = d.emit (.pair (.repairAnswer line (some (m.read line 64)))) := by
  unfold Dev.repairRequest
  simp only [hm, hb, hf, Bool.not_true, Bool.false_eq_true, if_false, Bool.false_and]

theorem repairRequest_of_poisoned (hm : d.pair.mode = true) (hw : line < m.watermark) (hp : m.poison.contains line = true) :
    d.repairRequest m line finds = d.emit (.pair (.repairAnswer line none)) := by
  have hb : m.bad finds line = true := by
    unfold Mem.bad
    rw [decide_eq_true hw, hp]
    rfl
  unfold Dev.repairRequest
  simp only [hm, hb, hp, Bool.not_true, Bool.false_eq_true, if_false, if_true]

theorem refetch_nothing {x : Dev × Mem} (h : x.1.pair.heldFetch = []) :
    (x.1.pair.heldFetch.foldl (Dev.keeperRefetch x.2) x.1, x.2) = x := by
  rw [h]
  rfl

section
variable {e : Dev} (hm : d.pair.mode = true) (hh : d.pair.heldFetch = [])
  (he : d.setPair (fun p => { p with repairs := delNat line p.repairs }) = e)
include hm hh he

theorem repairAnswer_of_some {bs : Bytes} : repairAnswer d m line (some bs) =
    ((e.bump Fld.PAIR_RPROK.Count).dropWait line, m.putLine d.now.sec line bs false) := by
  subst he
  exact (if_neg (pair_open hm)).trans (refetch_nothing (x := (Dev.dropWait (Dev.bump _ _) line, _)) hh)

theorem repairAnswer_of_none : repairAnswer d m line none =
    (((e.bump Fld.PAIR_RPRFAIL.Count).sticky Fld.PAIR_ERR.RepairFail).endWait line, m) := by
  subst he
  exact (if_neg (pair_open hm)).trans (refetch_nothing (x := (Dev.endWait (Dev.sticky (Dev.bump _ _) _) line, _)) hh)

end
end

/-! ### Streams that a keeper lacks (R340) -/

section
variable {n key k j : Nat} {x : StreamSt}

theorem mem_lackStream (hk : d.isKeeper = true) (hg : d.pair.gap = true) (hs : d.stream k = none) :
    (n, key, k) ∈ (d.lackStream n key k).pair.lacking := by
  have he : d.lackStream n key k =
      { d with pair := { d.pair with lacking := (d.pair.lacking.filter (fun e => e != (n, key, k))) ++ [(n, key, k)] } } :=
    if_pos (by rw [hk, hg, hs]; rfl)
  rw [he]
  exact List.mem_append_right _ (List.mem_singleton_self _)

theorem mem_haveStream : (n, key, k) ∈ (d.haveStream j).pair.lacking ↔ (n, key, k) ∈ d.pair.lacking ∧ k ≠ j := by
  show (n, key, k) ∈ d.pair.lacking.filter _ ↔ _
  rw [List.mem_filter]
  simp

theorem stream_setStream : (d.setStream x).stream x.number = some x := by
  show ((d.dec.streams.filter _) ++ [x]).find? _ = some x
  rw [List.find?_append, List.find?_eq_none.mpr (fun y hy => ?_), Option.none_or]
  · simp
  · simpa using (List.mem_filter.mp hy).2

/-- R340: a plane that waits for a stream is not Ready. -/
theorem readyMask_of_lacking (hk : d.isKeeper = true) (hn : n < 8) (hm : (n, key, k) ∈ d.pair.lacking)
    (hr : ∃ r ∈ (d.plane n).runs, r.page = key) : d.readyMask.toNat.testBit n = false := by
  obtain ⟨r, hmem, hkey⟩ := hr
  have hlack : d.lacksStream n = true := by
    refine List.any_eq_true.mpr ⟨_, hm, ?_⟩
    simp only [beq_self_eq_true, Bool.true_and]
    exact List.any_eq_true.mpr ⟨r, hmem, by simp [hkey]⟩
  unfold Dev.readyMask
  rw [if_pos hk]
  split
  · have hbit : (maskOf 8 (fun i =>
        d.pair.lateMonitor.any (fun p => decide (d.planeOf p = some i)) || d.lacksStream i)).testBit n = true := by
      rw [testBit_maskOf, decide_eq_true hn, hlack, Bool.or_true, Bool.and_true]
    rw [BitVec.toNat_and, Nat.testBit_and, BitVec.testBit_toNat (~~~_), BitVec.getLsbD_not, BitVec.getLsbD_ofNat, hbit,
      decide_eq_true hn]
    exact Bool.and_false _
  · exact Nat.zero_testBit n

end

/-! ### Mirrored messages (R319) -/

theorem sum_takeMirrorAck : ∀ (n : Nat) (l : List MirrorWait),
    ((takeMirrorAck n l).map (fun w => w.left)).sum = (l.map (fun w => w.left)).sum - n
  | n, [] => by simp [takeMirrorAck]
  | n, w :: rest => by
    unfold takeMirrorAck
    split
    · simp only [List.map_cons, List.sum_cons]
      omega
    · simp only [List.map_cons, List.sum_cons, sum_takeMirrorAck (n - w.left) rest]
      omega

theorem length_takeMirrorAck : ∀ (n : Nat) (l : List MirrorWait), (takeMirrorAck n l).length = l.length
  | n, [] => by simp [takeMirrorAck]
  | n, w :: rest => by
    unfold takeMirrorAck
    split
    · rfl
    · simp only [List.length_cons, length_takeMirrorAck]

/-! ### Register and sequence messages (R318, R320) -/

section
variable {a : Nat} {v : Word} {g : SeqMsg}

theorem registerMessage_of_single (hm : d.pair.mode = false) : registerMessage d m a v = (d, m) := if_pos (by rw [hm]; rfl)

theorem registerMessage_of_keeper (hm : d.pair.mode = true) (hk : d.isKeeper = true) :
    registerMessage d m a v = (windowWrite d m .partner [] a v).2 := (if_neg (pair_open hm)).trans (if_pos hk)

theorem registerMessage_of_striker (hm : d.pair.mode = true) (hk : d.isKeeper = false) :
    registerMessage d m a v = if a = Adr.PAIR_CTRL ∧ v.toNat.testBit 0 = true then (d.handoff, m) else (d, m) :=
  (if_neg (pair_open hm)).trans (if_neg (Bool.eq_false_iff.mp hk))

theorem sequenceMessage_of_other (h : d.pair.mode = false ∨ d.isKeeper = false) : sequenceMessage d m g = (d, m) :=
  if_pos (by rw [Bool.eq_false_iff.mpr (keeper_idle h)]; rfl)

theorem sequenceMessage_of_held (hm : d.pair.mode = true) (hk : d.isKeeper = true) (hh : d.pair.heldFetch ≠ []) :
    sequenceMessage d m g = (d.holdFrame (.sequenceMessage g), m) :=
  (if_neg (by rw [keeper_acts hm hk]; decide)).trans (if_pos hh)

theorem sequenceMessage_of_keeper (hm : d.pair.mode = true) (hk : d.isKeeper = true) (hh : d.pair.heldFetch = []) :
    sequenceMessage d m g = keeperActs d m g :=
  (if_neg (by rw [keeper_acts hm hk]; decide)).trans (if_neg (not_not.mpr hh))

end

/-! ### Verdicts, sessions and time (R120, R177, R322) -/

theorem verdictMessage_of_keeper {z : Nat} {v : BitVec 2} (hm : d.pair.mode = true) (hk : d.isKeeper = true)
    (hz : z ≤ d.part.maxNozzle) : d.verdictMessage z v = d.setNozzleState z v 2 :=
  if_pos (by rw [hm, hk, decide_eq_true hz]; rfl)

theorem verdictMessage_of_other {z : Nat} {v : BitVec 2} (h : d.pair.mode = false ∨ d.isKeeper = false) :
    d.verdictMessage z v = d := if_neg (by rw [Bool.eq_false_iff.mpr (keeper_idle h)]; simp)

theorem sessionMessage_of_other {i : Nat} {c : Option SessionCopy} (h : d.pair.mode = false ∨ d.isKeeper = false) :
    d.sessionMessage i c = d := if_neg (keeper_idle h)

theorem sessionMessage_of_none {i : Nat} (hm : d.pair.mode = true) (hk : d.isKeeper = true) :
    d.sessionMessage i none = d.setCopies (d.ojp.copies.filter (fun e => e.1 != i)) := if_pos (keeper_acts hm hk)

theorem sessionMessage_of_some {i : Nat} {c : SessionCopy} (hm : d.pair.mode = true) (hk : d.isKeeper = true) :
    d.sessionMessage i (some c) = d.setCopies (d.ojp.copies.filter (fun e => e.1 != i) ++
      [(i, SessionCopy.session c d.initialRto)]) := if_pos (keeper_acts hm hk)

theorem timeMessage_of_keeper {t : TimeStamp} (hk : d.isKeeper = true) : d.timeMessage t =
    { d.wr Fld.PAIR_TIMEOFF.Offset (patternOf 32 (clampInt (-2147483648) 2147483647
        (Int.fdiv (TimeStamp.fine d.now - TimeStamp.fine t) (2 ^ 32)))) with now := stampOf (TimeStamp.fine t) } := if_pos hk

theorem timeMessage_of_other {t : TimeStamp} (hk : d.isKeeper = false) : d.timeMessage t = d :=
  if_neg (Bool.eq_false_iff.mp hk)

end
end Sys2Proof.Machine
end

section
open Sys2Proof Sys2Proof.Machine

/-- Settles O59. Model's choices: the lines of a lacking stream (logs 140, 158), the messages held for the store or a repair
(log 133), and that a message whose condition does not hold changes nothing (log 17). -/
theorem pairMessagesArePerformed : Obligations.PairMessagesArePerformed := by
  refine ⟨fun s lines line finds item hr => ⟨fun hs => ?stopped, fun hs => ?running⟩,
    fun d n key k j x hk hn => ⟨mem_lackStream hk, mem_haveStream, readyMask_of_lacking hk hn, stream_setStream⟩,
    fun s line bytes hr hs hm hh => ?repaired,
    fun m sec line a bytes bad => ⟨contains_putLine .., fun h => (byte_putLine ..).trans (if_neg (by omega)),
      fun h1 h2 => (byte_putLine ..).trans (if_pos ⟨h1, h2⟩)⟩,
    fun s n hr => ⟨completes_live (f := fun d m => mirrorAck d m n) hr rfl rfl, sum_takeMirrorAck .., length_takeMirrorAck ..⟩,
    fun s a v hr => ?register, fun s g hr => ?sequence, fun s z state i copy t hr => ?keeper⟩
  case stopped =>
    exact ⟨completes_live (f := storeMessage _ fun d m => mirrorLines d m lines) hr rfl (storeMessage_of_stopped hs),
      completes_live (f := storeMessage _ fun d m => (d.repairRequest m line finds, m)) hr rfl (storeMessage_of_stopped hs),
      completes_live (f := storeMessage _ fun d m => resyncData d m item) hr rfl (storeMessage_of_stopped hs)⟩
  case running =>
    have hmirror {e : Dev} {m : Mem} (he : mirrorLines s.dev s.mem lines = (e, m)) : Completes (.mirror lines) s e m :=
      completes_live (f := storeMessage _ fun d m => mirrorLines d m lines) hr rfl ((storeMessage_of_running hs).trans he)
    have hresync {x : ResyncItem} {e : Dev} {m : Mem} (he : resyncData s.dev s.mem x = (e, m)) :
        Completes (.resyncData x) s e m :=
      completes_live (f := storeMessage _ fun d m => resyncData d m x) hr rfl ((storeMessage_of_running hs).trans he)
    have hrepair {e : Dev} (he : s.dev.repairRequest s.mem line finds = e) : Completes (.repairRequest line finds) s e s.mem :=
      completes_live (f := storeMessage _ fun d m => (d.repairRequest m line finds, m)) hr rfl
        ((storeMessage_of_running hs).trans (congrArg (·, s.mem) he))
    have hstream {x : StreamSt} {e : Dev} (hm : s.dev.pair.mode = true) (hk : s.dev.isKeeper = true)
        (he : s.dev.takeStream x = e) : Completes (.resyncData (.stream x)) s e s.mem :=
      hresync ((resyncData_of_late hm hk).trans (congrArg (·, s.mem) he))
    exact ⟨fun hm hk => hmirror (if_pos (keeper_acts hm hk)), fun h => hmirror (if_neg (keeper_idle h)),
      fun hm hy => hresync (resyncData_of_syncing hm hy), fun hm hk => hresync (resyncData_of_idle hm hk),
      fun hm hk x => ⟨fun hx => hstream hm hk (takeStream_of_new hx), fun hx => hstream hm hk (takeStream_of_known hx)⟩,
      fun hm => hrepair (repairRequest_of_single hm), fun hm hb hf => hrepair (repairRequest_of_good hm hb hf),
      fun hm hw hp => hrepair (repairRequest_of_poisoned hm hw hp)⟩
  case repaired =>
    intro d ok no
    have hd : s.dev.setPair (fun p => { p with repairs := delNat line p.repairs }) = d := rfl
    clear_value d
    have hok : takeUpAll ((d.bump Fld.PAIR_RPROK.Count).dropWait line, s.mem.putLine s.dev.now.sec line bytes false) = ok := rfl
    have hno : takeUpAll (((d.bump Fld.PAIR_RPRFAIL.Count).sticky Fld.PAIR_ERR.RepairFail).endWait line, s.mem) = no := rfl
    clear_value ok no
    have hc {data : Option Bytes} {x y : Dev × Mem} (hx : repairAnswer s.dev s.mem line data = x) (hy : takeUpAll x = y) :
        Completes (.repairAnswer line data) s y.1 y.2 :=
      completes_live (f := storeMessage _ fun d m => takeUpAll (repairAnswer d m line data)) hr rfl
        ((storeMessage_of_running hs).trans ((congrArg takeUpAll hx).trans hy))
    exact ⟨hc (repairAnswer_of_some hm hh hd) hok, hc (repairAnswer_of_none hm hh hd) hno⟩
  case register =>
    have hc {e : Dev} {m : Mem} (he : registerMessage s.dev s.mem a v = (e, m)) : Completes (.registerMessage a v) s e m :=
      completes_live (f := fun d m => registerMessage d m a v) hr rfl he
    refine ⟨fun hm => hc (registerMessage_of_single hm), fun hm => ?_⟩
    intro y
    have hy : (windowWrite s.dev s.mem .partner [] a v).2 = y := rfl
    clear_value y
    exact ⟨fun hk => hc ((registerMessage_of_keeper hm hk).trans hy),
      fun hk ha hv => hc ((registerMessage_of_striker hm hk).trans (if_pos ⟨ha, hv⟩)),
      fun hk ha => hc ((registerMessage_of_striker hm hk).trans (if_neg (fun h => ha h.1)))⟩
  case sequence =>
    have hc {g : SeqMsg} {e : Dev} {m : Mem} (he : sequenceMessage s.dev s.mem g = (e, m)) :
        Completes (.sequenceMessage g) s e m := completes_live (f := fun d m => sequenceMessage d m g) hr rfl he
    refine ⟨fun h => hc (sequenceMessage_of_other h), fun hm hk => ⟨fun hh => hc (sequenceMessage_of_held hm hk hh),
      fun hh => ?_⟩⟩
    have hacts {g : SeqMsg} {e : Dev} {m : Mem} (he : keeperActs s.dev s.mem g = (e, m)) : Completes (.sequenceMessage g) s e m :=
      hc ((sequenceMessage_of_keeper hm hk hh).trans he)
    refine ⟨hacts rfl, hacts rfl, fun off crc => hacts rfl, fun n e => hacts rfl, fun c p resume => hacts rfl,
      fun c o t => ?_⟩
    intro y
    have hy : keeperActs s.dev s.mem (.pageStart c o t) = y := rfl
    clear_value y
    exact hacts hy
  case keeper =>
    have hverdict {e : Dev} (he : s.dev.verdictMessage z state = e) : Completes (.verdictMessage z state) s e s.mem :=
      completes_dev (f := fun d => d.verdictMessage z state) hr rfl he
    have hsession {c : Option SessionCopy} {e : Dev} (he : s.dev.sessionMessage i.val c = e) :
        Completes (.sessionMessage i c) s e s.mem := completes_dev (f := fun d => d.sessionMessage i.val c) hr rfl he
    have htime {e : Dev} (he : s.dev.timeMessage t = e) : Completes (.timeMessage t) s e s.mem :=
      completes_dev (f := fun d => d.timeMessage t) hr rfl he
    exact ⟨fun hm hk hz => hverdict (verdictMessage_of_keeper hm hk hz),
      fun h => ⟨hverdict (verdictMessage_of_other h), hsession (sessionMessage_of_other h)⟩,
      fun hm hk => ⟨hsession (sessionMessage_of_none hm hk), fun c => hsession (sessionMessage_of_some hm hk)⟩,
      fun hk => htime (timeMessage_of_other hk), fun hk => ⟨_, htime (timeMessage_of_keeper hk), rfl, rfl⟩⟩

end
